-- ==== Sys2Proof/Word.lean ====
section
/-! DEFINITION. The word types of the model: bytes, byte strings and the address type of R3. -/

namespace Sys2Proof

/-- One byte. -/
abbrev Byte := BitVec 8

/-- A byte string, lowest offset first. -/
abbrev Bytes := List Byte

/-- A network address as a byte string of 16 bytes (R3): the first byte on the wire lies in the lowest
eight bits. IPv4 addresses are held in IPv4-mapped form. -/
abbrev Addr := BitVec 128

/-- A bit pattern of binary32 (R109). -/
abbrev F32 := BitVec 32

end Sys2Proof
end

