-- ==== Sys2Proof/Syntax.lean ====
section
/-! DEFINITION. The commands and events of the block: one constructor of `Instr` for every row of
the opcode table, with the operands the row takes. -/

namespace Sys2Proof

/-- A UDP datagram as it arrives on host port `port` (R23). `hostList` is what the module would read from host memory
at admission of the command it completes, where that command's list is a kind-3 reference (R73). -/
structure Datagram where
  port   : Nat
  dstIp  : Addr
  dstUdp : Nat
  srcIp  : Addr
  srcUdp : Nat
  bytes  : Bytes
  hostList : Bytes := []
  deriving DecidableEq, Repr

/-- A whole Nimox command: where its completing fragment arrived, the fields of its header that a
command keeps (Table 2.1), its parameter block and its payload. The opcode is the row's. `hostList` is what the
module reads from host memory at admission, where the command's list is a kind-3 reference (R73). -/
structure Frame where
  port    : Nat
  srcIp   : Addr
  srcUdp  : Nat
  urgent  : Bool
  berth   : Nat
  queue   : Nat
  tag     : BitVec 32
  seq     : BitVec 32
  params  : Bytes
  payload : Bytes
  hostList : Bytes := []
  deriving DecidableEq, Repr

/-- The reassembly key of R28. -/
structure ReasmKey where
  port   : Nat
  srcIp  : Addr
  srcUdp : Nat
  berth  : Nat
  queue  : Nat
  tag    : BitVec 32
  seq    : BitVec 32
  deriving DecidableEq, Repr

/-- The SRAM detail of Table 2.3: unit, index and the ADDRESS of Table 14.3. -/
structure SramWord where
  unit    : Nat
  index   : Nat
  address : BitVec 64
  deriving DecidableEq, Repr

/-- What physically stopped the work of an accepted command (R77, R140, R169, R186, R371). -/
inductive WorkError where
  /-- MEDIA_UE: object kind, object id, quay, LOGICAL and PHYSICAL of the MEDIA detail -/
  | media (kind : Nat) (obj : Nat) (quay : Nat) (logical : BitVec 64) (physical : BitVec 64)
  /-- SRAM_UE at a word -/
  | sram (w : SramWord)
  /-- LINK_DOWN: link kind and link number -/
  | link (kind : Nat) (linkId : Nat)
  deriving DecidableEq, Repr

/-- What a RoCEv2 request packet asks for (Table 2.20 and R69). -/
inductive RdmaOp where
  | write | read | send | atomic | otherOp
  deriving DecidableEq, Repr

/-- A RoCEv2 request packet of a reliable-connected queue pair, at the level of one operation. -/
structure RdmaPkt where
  port   : Nat
  qpn    : BitVec 24
  psn    : BitVec 24
  ce     : Bool
  op     : RdmaOp
  rkey   : BitVec 32
  offset : Nat
  length : Nat
  data   : Bytes
  deriving DecidableEq, Repr

/-- A NAK the module receives (R70). -/
inductive NakCode where
  | sequenceError | invalidRequest | remoteAccess | remoteOperational
  deriving DecidableEq, Repr

/-- A PTP message as the timestamp unit hands it on (R307, R308): times in ns, the master's identity
and the fields that the best master clock algorithm compares. -/
structure PtpMsg where
  port     : Nat
  domain   : Nat
  version  : Nat
  master   : BitVec 64
  seqId    : Nat
  twoStep  : Bool
  origin   : Nat
  arrival  : Nat
  priority : Nat
  interval : Nat
  deriving DecidableEq, Repr

/-- The thing whose bytes lie on a page, as the quay's reverse map names it. -/
inductive MediaTarget where
  | none
  | hold (id : Nat) (offset : Nat)
  | ns (nsid : Nat) (lba : Nat)
  deriving DecidableEq, Repr

/-- The end of one page read of a six-plane NAND read (R143): read retries made, whether a soft read
was made, bits corrected, the codewords (0-3) that failed after them, and those of these whose rebuild
failed too (R77). -/
structure NandRead where
  quay      : Nat
  die       : Nat
  plane     : Nat
  block     : Nat
  page      : Nat
  pslc      : Bool
  retries   : Nat
  soft      : Bool
  corrected : Nat
  failed    : List Nat
  lost      : List Nat
  target    : MediaTarget
  deriving DecidableEq, Repr

/-- The end of a NAND program (R78): where, whether it succeeded, and how many entries of the quay's
write buffer it put on media; `plane` is the plane that failed, and `pslc` the mode of the superblock. -/
structure NandProgram where
  quay    : Nat
  die     : Nat
  plane   : Nat
  block   : Nat
  pslc    : Bool
  ok      : Bool
  entries : Nat
  deriving DecidableEq, Repr

/-- The causes of R94. -/
inductive RelocCause where
  | wearLevelling | deletedHolds | refresh | degraded
  deriving DecidableEq, Repr

/-- An engine that the tide grants (R313). -/
inductive Engine where
  | crane (n : Nat) | quayArray (q : Nat) | scoring (q : Nat)
  deriving DecidableEq, Repr

/-- A hawser frame as it arrives: the port, whether FEC could correct every codeword, how many codewords it corrected,
and its 1,024 bytes. -/
structure HawserRx where
  port      : Nat
  fecOk     : Bool
  corrected : Nat := 0
  bytes     : Bytes
  deriving DecidableEq, Repr

/-- What a scrub read of one 32-byte word finds (R370, R371, R376). -/
inductive ScrubResult where
  | clean
  | correctable (bitPos : Nat)
  | uncorrectable (hard : Bool)
  | passEnd
  deriving DecidableEq, Repr

/-- The faults sea trial finds, by unit number (R13, Table 17.2). -/
structure TrialFaults where
  cranes   : List Nat
  hawsers  : List Nat
  hosts    : List Nat
  quays    : List Nat
  computes : List Nat
  srams    : List Nat
  ioDie    : Bool
  logbook  : Bool
  seismic  : Bool
  deriving DecidableEq, Repr

/-- A temperature sensor (Table 1.1): quay die, compute die (die, sensor), I/O die, regulator, inlet,
outlet. -/
inductive Sensor where
  | quay (q : Nat) | compute (die : Nat) (i : Nat) | ioDie (i : Nat) | regulator (i : Nat)
  | inlet | outlet
  deriving DecidableEq, Repr

/-- The commands and events of the block. `t` is the local time in ns at which the row happens. -/
inductive Instr where
  -- frames, queues and accepted work
  | nimoxFrame (t : Nat) (d : Datagram)
  | reassemblyTimeout (t : Nat) (k : ReasmKey)
  | refusedKeyExpiry (t : Nat) (k : ReasmKey)
  | sequenceGapTimeout (t : Nat) (berth queue : Nat)
  | commandStart (t : Nat) (id : Nat)
  | workCompletion (t : Nat) (id : Nat) (err : Option WorkError)
  | powerExitComplete (t : Nat)
  | idleP1Timeout (t : Nat)
  | idleP2Timeout (t : Nat)
  | idleP3Timeout (t : Nat)
  -- device group and parameters
  | echo (t : Nat) (f : Frame)
  | getParam (t : Nat) (f : Frame)
  | setParam (t : Nat) (f : Frame)
  | portClass (t : Nat) (f : Frame) (port : Nat) (cls : BitVec 2)
  | nimoxTransport (t : Nat) (f : Frame) (value mask : BitVec 64)
  | berthShares (t : Nat) (f : Frame) (value mask : BitVec 128)
  | breakwater (t : Nat) (f : Frame) (value mask : BitVec 128)
  | hawserConfig (t : Nat) (f : Frame) (value mask : BitVec 64)
  | userWp (t : Nat) (f : Frame) (group : Nat) (on : Bool)
  | floor (t : Nat) (f : Frame) (value : BitVec 16)
  | revoke (t : Nat) (f : Frame) (key : Nat)
  | eventsClear (t : Nat) (f : Frame) (pid : Nat) (bits : BitVec 4)
  | readResult (t : Nat) (f : Frame)
  | release (t : Nat) (f : Frame)
  | queueStatus (t : Nat) (f : Frame)
  | queueSet (t : Nat) (f : Frame)
  | drain (t : Nat) (f : Frame)
  | reset (t : Nat) (f : Frame)
  -- RoCEv2
  | qpCreate (t : Nat) (f : Frame)
  | qpDestroy (t : Nat) (f : Frame)
  | regionRegister (t : Nat) (f : Frame)
  | regionDeregister (t : Nat) (f : Frame)
  | rdmaWrite (t : Nat) (p : RdmaPkt)
  | rdmaWriteWithImmediate (t : Nat) (p : RdmaPkt) (imm : BitVec 32)
  | rdmaRead (t : Nat) (p : RdmaPkt)
  | rdmaReadResponse (t : Nat) (qpn : BitVec 24) (psn : BitVec 24) (data : Bytes)
  | ackReceived (t : Nat) (qpn : BitVec 24) (psn : BitVec 24)
  | nakReceived (t : Nat) (qpn : BitVec 24) (psn : BitVec 24) (code : NakCode)
  | ackTimeout (t : Nat) (qpn : BitVec 24)
  | congestionNotificationPacket (t : Nat) (qpn : BitVec 24)
  | rateRecovery (t : Nat) (qpn : BitVec 24)
  | pfcFrame (t : Nat) (port : Nat) (priority : Nat) (pause : Bool)
  -- host ports and network time
  | arpRequest (t : Nat) (port : Nat) (target : BitVec 32) (senderIp : BitVec 32) (senderMac : BitVec 48)
  | neighborDiscovery (t : Nat) (port : Nat) (target : Addr) (srcIp : Addr)
  | icmpEcho (t : Nat) (port : Nat) (dstIp srcIp : Addr) (ident seqNo : BitVec 16) (data : Bytes)
  | lldpTransmit (t : Nat) (port : Nat)
  | hostLinkAttemptTimeout (t : Nat) (port : Nat)
  | hostLinkLoss (t : Nat) (port : Nat)
  | sync (t : Nat) (m : PtpMsg)
  | followUp (t : Nat) (m : PtpMsg)
  | delayReqSend (t : Nat)
  | delayResp (t : Nat) (m : PtpMsg)
  | ptpAnnounce (t : Nat) (m : PtpMsg)
  | masterLoss (t : Nat)
  | syncTimeout (t : Nat)
  | ppsPulse (t : Nat)
  -- namespaces and holds
  | nsCreate (t : Nat) (f : Frame)
  | nsDelete (t : Nat) (f : Frame)
  | nsInfo (t : Nat) (f : Frame)
  | nsRead (t : Nat) (f : Frame)
  | nsWrite (t : Nat) (f : Frame)
  | nsDiscard (t : Nat) (f : Frame)
  | nsFlush (t : Nat) (f : Frame)
  | holdCreate (t : Nat) (f : Frame)
  | holdWrite (t : Nat) (f : Frame)
  | holdSeal (t : Nat) (f : Frame)
  | holdRead (t : Nat) (f : Frame)
  | holdDelete (t : Nat) (f : Frame)
  | holdInfo (t : Nat) (f : Frame)
  | holdMap (t : Nat) (f : Frame)
  | relocAck (t : Nat) (f : Frame)
  | relocList (t : Nat) (f : Frame)
  -- media events
  | nandReadComplete (t : Nat) (r : NandRead)
  | nandProgramComplete (t : Nat) (p : NandProgram)
  | nandEraseComplete (t : Nat) (quay sb : Nat) (failed : List (Nat × Nat))
  | dieCommandTimeout (t : Nat) (quay die : Nat)
  | dredging (t : Nat) (quay : Nat)
  | wearLevelling (t : Nat) (quay : Nat)
  | pslcPoolTarget (t : Nat) (quay : Nat)
  | mapCheckpoint (t : Nat)
  | relocation (t : Nat) (hold run : Nat) (cause : RelocCause)
  | noticeRepeat (t : Nat) (hold : Nat) (token : BitVec 64)
  | forwardingExpiry (t : Nat) (hold : Nat) (token : BitVec 64)
  | quayLinkLoss (t : Nat) (quay : Nat) (resent : Nat)
  | quayLinkTrainTimeout (t : Nat) (quay : Nat)
  | enginePartBoundary (t : Nat) (e : Engine)
  | tideWindowStart (t : Nat) (entry : Nat)
  | tideWindowEnd (t : Nat) (entry : Nat)
  | tideTableSwitch (t : Nat)
  -- cargo plans
  | planLoad (t : Nat) (f : Frame)
  | planBind (t : Nat) (f : Frame)
  | planUnbind (t : Nat) (f : Frame)
  | planDelete (t : Nat) (f : Frame)
  | planInfo (t : Nat) (f : Frame)
  | planRun (t : Nat) (f : Frame)
  | planEstimate (t : Nat) (f : Frame)
  | contextClear (t : Nat) (f : Frame)
  | adaptStep (t : Nat) (f : Frame)
  | adaptExport (t : Nat) (f : Frame)
  | adaptReset (t : Nat) (f : Frame)
  -- vector search and selection
  | indexCreate (t : Nat) (f : Frame)
  | indexDelete (t : Nat) (f : Frame)
  | indexInfo (t : Nat) (f : Frame)
  | indexInsert (t : Nat) (f : Frame)
  | indexRemove (t : Nat) (f : Frame)
  | indexSearch (t : Nat) (f : Frame)
  | indexRebalance (t : Nat) (f : Frame)
  | indexFold (t : Nat) (index : Nat) (quay : Nat)
  | selectTopk (t : Nat) (f : Frame)
  | selectMerge (t : Nat) (f : Frame)
  -- vault
  | vaultCreate (t : Nat) (f : Frame)
  | vaultDelete (t : Nat) (f : Frame)
  | vaultInfo (t : Nat) (f : Frame)
  | vaultPlan (t : Nat) (f : Frame)
  | vaultBegin (t : Nat) (f : Frame)
  | vaultCommit (t : Nat) (f : Frame)
  | vaultCancel (t : Nat) (f : Frame)
  | vaultList (t : Nat) (f : Frame)
  | vaultManifest (t : Nat) (f : Frame)
  | vaultRestore (t : Nat) (f : Frame)
  | vaultVerify (t : Nat) (f : Frame)
  | vaultConsolidate (t : Nat) (f : Frame)
  | vaultKeep (t : Nat) (f : Frame)
  | vaultDrop (t : Nat) (f : Frame)
  | replAccept (t : Nat) (f : Frame)
  | replSet (t : Nat) (f : Frame)
  | consolidation (t : Nat) (berth : Nat)
  | captureDue (t : Nat) (berth : Nat)
  | hello (t : Nat) (berth : Nat)
  | begin (t : Nat) (berth : Nat)
  | endRecord (t : Nat) (berth : Nat)
  | credit (t : Nat) (berth : Nat)
  | acknowledgement (t : Nat) (berth : Nat)
  | replTimeout (t : Nat) (berth : Nat)
  | replRetry (t : Nat) (berth : Nat)
  -- berths
  | berthCreate (t : Nat) (f : Frame)
  | berthRelease (t : Nat) (f : Frame)
  | berthSuspend (t : Nat) (f : Frame)
  | berthResume (t : Nat) (f : Frame)
  | berthInfo (t : Nat) (f : Frame)
  | tideLoad (t : Nat) (f : Frame)
  | tideRead (t : Nat) (f : Frame)
  | bollardRead (t : Nat) (f : Frame) (bollard : Byte)
  | bollardGive (t : Nat) (f : Frame) (bollard : Byte) (count : BitVec 16)
  | bollardTake (t : Nat) (f : Frame) (bollard : Byte) (count : BitVec 16)
  | bollardSet (t : Nat) (f : Frame) (bollard : Byte) (count : BitVec 16)
  | mailSend (t : Nat) (f : Frame)
  | mailRecv (t : Nat) (f : Frame)
  -- hawser
  | hawserInfo (t : Nat) (f : Frame)
  | hawserRetrain (t : Nat) (f : Frame)
  | fleetMap (t : Nat) (f : Frame)
  | allReduce (t : Nat) (f : Frame)
  | allGather (t : Nat) (f : Frame)
  | idle (t : Nat) (r : HawserRx)
  | data (t : Nat) (r : HawserRx)
  | ident (t : Nat) (r : HawserRx)
  | topo (t : Nat) (r : HawserRx)
  | flowOpen (t : Nat) (r : HawserRx)
  | flowAck (t : Nat) (r : HawserRx)
  | work (t : Nat) (r : HawserRx)
  | result (t : Nat) (r : HawserRx)
  | announce (t : Nat) (r : HawserRx)
  | hawserReplayTimeout (t : Nat) (port : Nat)
  | hawserTraining (t : Nat) (port : Nat)
  | trainingStepTimeout (t : Nat) (port : Nat)
  | hawserDownRetry (t : Nat) (port : Nat)
  | identRecheck (t : Nat) (port : Nat)
  -- storm mooring
  | braceAlert (t : Nat) (f : Frame)
  | motionEvents (t : Nat) (f : Frame)
  | motionWaveform (t : Nat) (f : Frame)
  | accelerometerSample (t : Nat) (sample : Option (BitVec 16 × BitVec 16 × BitVec 16))
  | braceSealComplete (t : Nat)
  | accelerometerFault (t : Nat)
  | alertExpiry (t : Nat) (source : BitVec 64)
  | peerExpiry (t : Nat) (moduleNo : Nat)
  | announcementRepeat (t : Nat)
  | holdOffExpiry (t : Nat)
  | powerFailAssertion (t : Nat)
  | pfGlitch (t : Nat)
  | flushComplete (t : Nat) (ok : Bool)
  | powerRestored (t : Nat)
  | holdupMeasurement (t : Nat) (v1 v2 : Nat)
  -- memory integrity
  | patrolScrub (t : Nat) (w : SramWord) (r : ScrubResult)
  | poisonRewrite (t : Nat) (w : SramWord)
  -- logbook
  | logbookInfo (t : Nat) (f : Frame)
  | logbookRead (t : Nat) (f : Frame)
  | logbookProgram (t : Nat) (f : Frame)
  | logbookErase (t : Nat) (f : Frame)
  | logbookSettings (t : Nat) (f : Frame)
  | logbookCompaction (t : Nat) (region : Nat)
  -- trust and firmware
  | fwInfo (t : Nat) (f : Frame)
  | fwStage (t : Nat) (f : Frame)
  | fwActivate (t : Nat) (f : Frame)
  | fwCommit (t : Nat) (f : Frame)
  | identity (t : Nat) (f : Frame)
  | attest (t : Nat) (f : Frame)
  -- input, power-on and reset
  | inputSwitchClose (t : Nat) (removedMs : Nat)
  | senseBreak (t : Nat)
  | overvoltage (t : Nat)
  | railsInRegulation (t : Nat)
  | railFault (t : Nat)
  | railRetry (t : Nat)
  | componentStart (t : Nat) (component : Nat) (unitNo : Nat)
  | startTimeout (t : Nat) (component : Nat)
  | seaTrialComplete (t : Nat) (faults : TrialFaults)
  | holdupBankFull (t : Nat)
  | holdupChargeTimeout (t : Nat)
  | mountingComplete (t : Nat) (offlineNs : List Nat) (offlineIndex : List Nat) (brokenCkpts : List (Nat × Nat))
  | holdSExpiry (t : Nat)
  | drainComplete (t : Nat)
  | sidebandTransaction (t : Nat) (frame : BitVec 24)
  | sidebandTimeout (t : Nat)
  | sidebandReset (t : Nat)
  | powerDown (t : Nat)
  | powerUp (t : Nat)
  | cancel (t : Nat)
  -- temperature and input power
  | temperatureSample (t : Nat) (sensor : Sensor) (value : Int)
  | tempSensorTimeout (t : Nat) (sensor : Sensor)
  | thermalStepExit (t : Nat) (sensor : Sensor)
  | thermalTrip (t : Nat) (sensor : Sensor)
  | powerSample (t : Nat) (watts : Int)
  | powerSampleTimeout (t : Nat)
  | powerStepExit (t : Nat)
  -- the last rows of the table
  | hostLinkUp (t : Nat) (port : Nat) (gbps : Nat)
  | hawserSignalLoss (t : Nat) (port : Nat)
  | quayLinkLock (t : Nat) (quay : Nat)
  | laneLock (t : Nat) (port : Nat) (lanes : Nat)
  | comparatorRearm (t : Nat)
  | logbookOperationComplete (t : Nat) (bank : Nat) (ok : Bool)
  | resetSealComplete (t : Nat)
  | railsOffExpiry (t : Nat)
  deriving DecidableEq, Repr

end Sys2Proof
end

