-- ==== Sys2Proof/Decode.lean ====
section
/-! DEFINITION. The block has no instruction encoding: the opcode table gives no row any bits, since a row
is a command or an event that reaches the block whole. -/

namespace Sys2Proof

/-- The command that a word spells by the table's bits. No row of the table has bits, so no word spells a
command. -/
def decodeTableWord (_nbits _w : Nat) : Option Instr := none

end Sys2Proof
end

