-- ==== Sys2Proof/Config.lean ====
section
/-! DEFINITION. What the spec leaves to the implementation: free values. Every constant here is opaque, so
no proof can see a value of it. `fresh` arguments are values of the counter `State.fresh`, which every
use advances. -/

namespace Sys2Proof.Config

/-- How many identifiers the module skips when it makes a new one (R82, R87, R173, R203, R255: the spec says only
that identifiers are never used again). -/
opaque idGap : Nat → Nat

/-- A free choice among things the spec permits (a region index, a superblock, which two partial sums are
added next); the user takes it modulo the number of permitted things. -/
opaque pick : Nat → Nat

/-- A 24-bit value the module chooses (LOCAL_PSN of Table 2.21). -/
opaque psn : Nat → BitVec 24

/-- The CHECK of a placement token (R91): a keyed code of the token's other fields. -/
opaque tokenCheck : Nat → Nat → BitVec 16

/-- Time in ns that a piece of the module's own work took, where a reply reports it. -/
opaque elapsed : Nat → Nat

/-- A byte count, a rate or an estimate that the module reports and the spec does not fix. -/
opaque amount : Nat → Nat

/-- The stored bytes the spec leaves open. -/
opaque freeByte : Nat → Nat → Byte

/-- A value whose bits the spec does not state for the operands (an arithmetic corner). -/
opaque freeWord : Nat → Nat → BitVec 32

/-- Which two partial sums a sum of products adds next (R117: the order of additions is not specified): by the use, the
sum's number within it, and the addition's number within the sum. -/
opaque addOrder : Nat → Nat → Nat → Nat

/-- Whether the module takes a step that the spec lets it take or leave. -/
opaque choose : Nat → Bool

/-- What lies in a physical SRAM word of Table 14.3 where the manual places nothing: the byte offset of a berth's SRAM
share, a result slot (berth, slot index, offset), blocks of the protected write buffer (namespace, block), a plan's
area, and whether management firmware keeps its state there. -/
opaque shareOf : SramWord → Option (Nat × Nat)
opaque resultOf : SramWord → Option (Nat × Nat × Nat)
opaque bufferOf : SramWord → List (Nat × Nat)
opaque planOf : SramWord → Option Nat
opaque mgmtState : SramWord → Bool

/-- ML-DSA verification (R403): does the signature verify under this key for these bytes? The manual
names the scheme and not its steps. -/
opaque signatureOk : BitVec 512 → Bytes → Bytes → Bool

/-- A header field of the image of a component that the module left the factory with, by component and header offset, and
that image's digest (the manual gives no contents of an image). -/
opaque factoryHeader : Nat → Nat → Nat
opaque factoryDigest : Nat → BitVec 512

/-- Whether the manifest of the factory's management image lists a combination of three interlock numbers. -/
opaque factoryLists : Nat → Nat → Nat → Bool

/-- ML-DSA signing with the device key (R417). -/
opaque sign : Nat → Bytes → Bytes

/-- The servo's filter over measured offsets in ns, newest first (R308, R309: the manual states the result's bounds
and not the filter). -/
opaque servoFilter : List Int → Int

/-- The servo's frequency correction in ppb over filtered offsets, newest first. -/
opaque servoFreq : List Int → Int

/-- exp(x) in FP32 (the manual states the function and not its rounding). -/
opaque expF : F32 → F32

/-- Natural logarithm in FP32. -/
opaque logF : F32 → F32

/-- tanh(x) in FP32. -/
opaque tanhF : F32 → F32

/-- Square root in FP32 where the manual names no rounding. -/
opaque sqrtF : F32 → F32

end Sys2Proof.Config
end

