-- ==== Sys2Proof/Machine/State.lean ====
section
/-! DEFINITION. The state of the block as plain data, the reasons a step can stop, and the state after
reset. Registers that software reads and writes whole are bit vectors; counters are naturals whose
width the operations saturate to; everything that holds bytes is one sparse memory in canonical form. -/

namespace Sys2Proof.Machine

/-- The block never stops with a fault: what the spec calls an error is a reply, a NAK, a state or a
counter. One name is kept for an event that the spec says cannot happen while the ports do not answer;
nothing raises it. Safe. -/
inductive Fault where
  /-- Raised by nothing. -/
  | never
  deriving DecidableEq, Repr

/-- Reasons for which a command has no meaning in the model. -/
inductive Refusal where
  /-- Raised by an arm of `exec` whose command has no meaning yet; safe. -/
  | notModelled (mnemonic : String)
  deriving DecidableEq, Repr

/-- Sparse bytes: addresses strictly rising, no listed byte zero. An unlisted byte reads zero: SRAM is
filled with zero at power-on (R368), namespace blocks never written read as zeros (R82, R84), a hold's
last stripe is zero-filled (R90). -/
abbrev Mem := List Host.Cell

/-! ### What the module sends -/

/-- The detail kinds of Table 2.3. -/
inductive Detail where
  | none
  | field (location paramId bitLo bitHi min max : Nat)
  | progress (frac phase elapsed : Nat)
  | media (obj kind quay : Nat) (logical physical : BitVec 64)
  | sram (w : SramWord)
  | objectState (kind obj state : Nat)
  | counter (id value threshold : Nat)
  | limit (paramId bitLo bitHi setting : Nat)
  | accepted (slot bytes time : Nat)
  | integrity (kind obj offset : Nat)
  | short (returned requested excluded : Nat)
  | component (comp image interlock : Nat)
  | link (kind linkId since : Nat)
  | resource (res avail requested : Nat)
  | missing (bits : BitVec 64)
  deriving DecidableEq, Repr

/-- A status block (Table 2.2). -/
structure StatusBlock where
  status     : Nat
  devState   : Nat
  berthState : Nat
  detail     : Detail
  deriving DecidableEq, Repr

/-- A reply or a notice (R32, R33, R53): the echoed header fields, the status block, the reply fields
from offset 32 and the payload. -/
structure Reply where
  opcode  : Nat
  berth   : Nat
  queue   : Nat
  tag     : BitVec 32
  seq     : BitVec 32
  urgent  : Bool
  block   : StatusBlock
  fields  : Bytes
  payload : Bytes
  deriving DecidableEq, Repr

/-- Everything the module sends or drives, as a host, a peer or a probe sees it. -/
inductive Output where
  | reply (port : Nat) (ip : Addr) (udp : Nat) (unit : Nat) (r : Reply)
  | notice (port : Nat) (ip : Addr) (udp : Nat) (r : Reply)
  | rdmaAck (port : Nat) (qpn psn : BitVec 24)
  | rdmaNak (port : Nat) (qpn psn : BitVec 24) (code : NakCode)
  | rdmaReadData (port : Nat) (qpn psn : BitVec 24) (data : Bytes)
  | rdmaReadRequest (port : Nat) (qpn psn : BitVec 24) (rkey : BitVec 32) (va len : Nat)
  | rdmaWriteRequest (port : Nat) (qpn psn : BitVec 24) (rkey : BitVec 32) (va : Nat) (data : Bytes)
      (imm : Option (BitVec 32))
  | cnp (port : Nat) (qpn : BitVec 24)
  | pfc (port priority : Nat) (pause : Bool)
  | arpReply (port : Nat) (ip : BitVec 32) (toIp : BitVec 32) (toMac : BitVec 48)
  | neighborAdvert (port : Nat) (target toIp : Addr)
  | icmpReply (port : Nat) (fromIp toIp : Addr) (ident seqNo : BitVec 16) (data : Bytes)
  | lldp (port : Nat) (serial : Bytes) (portId : Nat)
  | delayReq (port seqId : Nat)
  | pps (widthMs : Nat)
  | hawser (port : Nat) (frame : Bytes)
  | sideband (result value crc : Byte)
  deriving DecidableEq, Repr

/-! ### Set at manufacture -/

inductive Variant where
  | X | S | V
  deriving DecidableEq, Repr

/-- What the factory fixed: no command changes it. `factoryBad` gives the factory bad blocks of a quay's die:
quay, die, blocks; `fuses` the spares of a bank that the fuse map uses: unit, index, bank, whether bit lines, how many. -/
structure Fixed where
  variant     : Variant := .X
  serial      : Bytes := List.replicate 16 0
  macs        : List (BitVec 48) := List.replicate 8 0
  identity    : Bytes := []
  issuerKey   : Bytes := []
  romKeys     : List (BitVec 512) := List.replicate 4 0
  romDigest   : BitVec 512 := 0
  factoryBad  : List (Nat × Nat × Nat) := []
  fuses       : List (Nat × Nat × Nat × Bool × Nat) := []
  deriving DecidableEq, Repr

/-! ### Host ports, frames and queues -/

structure PortStats where
  framesIn    : Nat := 0
  dropHdr     : Nat := 0
  badFrame    : Nat := 0
  fragTimeout : Nat := 0
  dupDrop     : Nat := 0
  denied      : Nat := 0
  reasmFull   : Nat := 0
  deriving DecidableEq, Repr

/-- A host port En: its link (R442), its statistics (Table 2.16), its notice count (R53), the
priorities a peer has paused and the PAUSE it has sent (R72). -/
structure HostPort where
  linkUp      : Bool := false
  gbps        : Nat := 0
  trying      : Nat := 400
  trySince    : Nat := 0
  downSince   : Nat := 0
  stats       : PortStats := {}
  noticeCount : BitVec 32 := 0
  paused      : BitVec 8 := 0
  pauseSent   : BitVec 8 := 0
  rxFill      : Nat := 0
  lldpAt      : Nat := 0
  deriving DecidableEq, Repr

/-- A reassembly (R28-R30) under the transport values with which it began (R65). -/
structure Reasm where
  key        : ReasmKey
  opcode     : Nat
  urgent     : Bool
  paramLen   : Nat
  payloadLen : Nat
  fragCount  : Nat
  unit       : Nat
  timeoutNs  : Nat
  frags      : List (Nat × Bytes)
  last       : Nat
  held       : Bool := false
  deriving DecidableEq, Repr

structure RefusedKey where
  key       : ReasmKey
  timeoutNs : Nat
  last      : Nat
  deriving DecidableEq, Repr

/-- A command held ahead of the expected sequence number (R35). -/
structure HeldCmd where
  opcode : Nat
  frame  : Frame
  deriving DecidableEq, Repr

/-- What the reply cache keeps for a sequence number (R37): the reply it produced, or the FRAGMENT_TIMEOUT of
a number that R36 skipped. -/
inductive Cached where
  | reply (r : Reply)
  | skipped (b : StatusBlock)
  deriving DecidableEq, Repr

/-- One sequenced queue of a berth (R35-R40, R53). -/
structure Queue where
  berth    : Nat
  queue    : Nat
  expected : BitVec 32 := 0
  cache    : List (BitVec 32 × Cached) := []
  held     : List HeldCmd := []
  gapSince : Option Nat := none
  notify   : Bool := false
  dest     : Option (Nat × Addr × Nat) := none
  deriving DecidableEq, Repr

/-- Host ports and the frame parser's state. -/
structure Net where
  ports   : List HostPort := List.replicate 8 {}
  reasms  : List Reasm := []
  refused : List RefusedKey := []
  queues  : List Queue := []
  deriving DecidableEq, Repr

/-! ### Accepted commands and results -/

/-- A range-lock entry (R54): namespace, first block, count, whether it writes or discards. -/
structure RangeLock where
  nsid   : Nat
  lba    : Nat
  blocks : Nat
  writes : Bool
  deriving DecidableEq, Repr

/-- What a command's work came to: status, detail, the reply fields and payload of a plain command, or
(in `payload`) the body of a result-producing one. -/
structure WorkOut where
  status  : Nat
  detail  : Detail
  fields  : Bytes := []
  payload : Bytes := []
  deriving DecidableEq, Repr

/-- An accepted command that has not completed (R42). `id` is its place in the acceptance order.
`objs` are the objects it uses (kind of Table 2.4, id), `regions` and `qps` what its data references
name (R71), `fetched` the host data that has arrived for reference i, `pin` a pinned epoch,
`reserved` the berth SRAM its work holds beside the result memory, `snap` data captured at acceptance. -/
structure Active where
  id       : Nat
  opcode   : Nat
  frame    : Frame
  phase    : Nat
  accepted : Nat
  acceptedLocal : Nat
  result   : Bool
  lock     : Option RangeLock := none
  objs     : List (Nat × Nat) := []
  regions  : List (BitVec 32) := []
  qps      : List (BitVec 24) := []
  fetched  : List (Nat × Bytes) := []
  awaiting : List Nat := []
  pin      : Nat := 0
  reserved : Nat := 0
  out      : Option WorkOut := none
  snap     : List Nat := []
  hawser   : Bool := false
  origin   : Option (Nat × Nat) := none
  applied  : Bool := false
  sequenced : Bool := false
  depth    : Nat := 3
  progress : Nat := 0
  deriving DecidableEq, Repr

inductive SlotState where
  | pending | ready | discard
  deriving DecidableEq, Repr

/-- A result slot that is not FREE (R47-R49). -/
structure Slot where
  berth    : Nat
  index    : Nat
  tag      : BitVec 32
  queue    : Nat
  state    : SlotState
  reserved : Nat
  outcome  : Bytes := []
  deriving DecidableEq, Repr

structure Cmds where
  nextId     : Nat := 0
  active     : List Active := []
  slots      : List Slot := []
  deriving DecidableEq, Repr

/-! ### RoCEv2 -/

inductive QpState where
  | rts | error
  deriving DecidableEq, Repr

/-- A request the module sent as requester and has not seen acknowledged: an RDMA READ for reference
`ref` of command `cmd`, or an RDMA WRITE. -/
structure QpRequest where
  psn    : BitVec 24
  isRead : Bool
  cmd    : Nat
  ref    : Nat
  rkey   : BitVec 32
  va     : Nat
  len    : Nat
  data   : Bytes
  imm    : Option (BitVec 32)
  deriving DecidableEq, Repr

/-- A queue pair (R70, Table 2.21). -/
structure Qp where
  qpn        : BitVec 24
  berth      : Nat
  port       : Nat
  mtu        : Nat
  dscp       : Nat
  hopLimit   : Nat
  remoteQpn  : BitVec 24
  remoteGid  : Addr
  localGid   : Addr
  sendPsn    : BitVec 24
  recvPsn    : BitVec 24
  state      : QpState
  retryCnt   : Nat
  retries    : Nat
  ackTimeout : Nat
  timerAt    : Nat := 0
  requests   : List QpRequest := []
  rateMbps   : Nat
  lastCnpIn  : Nat := 0
  lastCnpOut : Option Nat := none
  errorSince : Nat := 0
  deriving DecidableEq, Repr

/-- What a region belongs to: software (R71), a capture's intake (R258), the replica region (R284), the
acknowledgement area (R285). -/
inductive RegionOwner where
  | plain | intake (ckpt : Nat) | replica | ackArea
  deriving DecidableEq, Repr

structure Region where
  berth  : Nat
  index  : Nat
  rkey   : BitVec 32
  offset : Nat
  length : Nat
  canWrite : Bool
  canRead  : Bool
  owner  : RegionOwner
  deriving DecidableEq, Repr

structure Rdma where
  qps     : List Qp := []
  regions : List Region := []
  gens    : List (Nat × Nat × BitVec 20) := []
  sram    : List (Nat × Mem) := []
  side    : List (Nat × Nat × Mem) := []
  deriving DecidableEq, Repr

/-! ### Device state, power states, drain and reset -/

inductive DevState where
  | powered | trial | dryDock | mounting | ready | braced | draining
  deriving DecidableEq, Repr

/-- Parameter 0x0012 (Table 17.4). -/
structure TrialRecord where
  failedCrane   : BitVec 8 := 0
  failedHawser  : BitVec 6 := 0
  failedHost    : BitVec 8 := 0
  failedSeismic : Bool := false
  failedQuay    : BitVec 24 := 0
  failedSram    : BitVec 8 := 0
  dockCause     : Nat := 0
  failStage     : Nat := 0
  failUnit      : Nat := 0
  trialMs       : Nat := 0
  mountMs       : Nat := 0
  resetKind     : Nat := 0
  readyMs       : Nat := 0
  trialTime     : Nat := 0
  deriving DecidableEq, Repr

/-- A drain in progress (R434, R435): what follows it, HOLD_S, how far it has come and since when. -/
inductive DrainStage where
  | running | holding | sealing
  deriving DecidableEq, Repr

structure Drain where
  thenReset : Bool
  holdNs    : Nat
  stage     : DrainStage
  since     : Nat
  fromSideband : Bool
  deriving DecidableEq, Repr

/-- The device state, the unit-presence word, and the sequences that change them. `trialAt` is the time of step 2 of Table
17.1, `resetAsked` that an FW_ACTIVATE with MODE 1 has succeeded and its reply is on its way. -/
structure Device where
  state       : DevState := .trial
  prev        : DevState := .powered
  units       : BitVec 64 := 0
  record      : TrialRecord := {}
  enteredAt   : Nat := 0
  trialPassed : Bool := false
  bankFull    : Bool := false
  bankLate    : Bool := false
  drain       : Option Drain := none
  resetSeal   : Option Nat := none
  railsOffAt  : Option Nat := none
  trialAt     : Nat := 0
  resetAsked  : Bool := false
  deriving DecidableEq, Repr

/-- Power states P0-P3 (R58-R60, Table 2.13). -/
structure Power where
  current  : Nat := 0
  exitTo   : Option Nat := none
  maxState : BitVec 2 := 3
  idleP1   : BitVec 32 := 0x3E8
  idleP2   : BitVec 32 := 0x64
  idleP3   : BitVec 32 := 0x2710
  lastP0   : Nat := 0
  lastNand : Nat := 0
  lastSram : Nat := 0
  deriving DecidableEq, Repr

/-! ### Parameters held as registers (the device-scoped RW and RWL words) -/

/-- The device-scoped registers that software writes. LB words hold their factory values. -/
structure Regs where
  portClass      : List (BitVec 2) := [2, 1, 1, 1, 2, 1, 1, 1]
  portRemain     : List Nat := List.replicate 8 16
  thermalControl : BitVec 32 := 0x708
  nimoxTransport : BitVec 64 := (1 <<< 53) ||| (10 <<< 46) ||| (8 <<< 38) ||| (3 <<< 35) ||| (4 <<< 32)
      ||| (0x1F4 <<< 16) ||| 0x4E4D
  portAddr       : List (BitVec 512) := List.replicate 8 0
  memControl     : BitVec 32 := 0x3C
  mediaControl   : BitVec 128 := (0x40 <<< 88) ||| (0x3C <<< 80) ||| (0x50 <<< 64) ||| (0xA <<< 48)
      ||| (0xC8 <<< 32) ||| (0x10 <<< 24) ||| (0x40 <<< 16) ||| 0x1000
  quayControl    : BitVec 32 := 0x17
  ptpConfig      : BitVec 64 := (0xA <<< 48) ||| (0x3E8 <<< 32) ||| 0xFF00
  hawserConfig   : BitVec 64 := (0x40 <<< 20) ||| (0x3F <<< 14)
  stormControl   : BitVec 64 := (0x3C <<< 48) ||| (5 <<< 40) ||| (0x28 <<< 32) ||| (0xA <<< 19)
      ||| (0x1E <<< 8) ||| 0x1F
  userWp         : BitVec 8 := 0
  userWpRemain   : List Nat := List.replicate 8 8
  floor          : BitVec 16 := 0
  floorRemain    : Nat := 64
  revoke         : BitVec 4 := 0
  revokeRemain   : BitVec 4 := 0xF
  trialBoots     : BitVec 3 := 3
  deriving DecidableEq, Repr

/-- The LB counters of every chapter (R385). Per-quay and per-unit ones are lists. -/
structure LbCounters where
  diesRetired   : Nat := 0
  badGrown      : Nat := 0
  ueCount       : Nat := 0
  correctedBits : Nat := 0
  xorRebuilds   : Nat := 0
  fwdExpired    : Nat := 0
  fwdEarly      : Nat := 0
  quayBadGrown  : List Nat := List.replicate 24 0
  quayTempMax   : List Int := List.replicate 24 0
  quayTempMin   : List Int := List.replicate 24 0
  minAbove70    : List Nat := List.replicate 24 0
  minAbove85    : List Nat := List.replicate 24 0
  braces        : Nat := 0
  announceNo    : Nat := 0
  pfEvents      : Nat := 0
  memUe         : Nat := 0
  bufLoss       : Nat := 0
  repairsApplied : Nat := 0
  memResets     : Nat := 0
  unitUe        : List ((Nat × Nat) × Nat) := []
  unitHard      : List ((Nat × Nat) × Nat) := []
  programFails  : Nat := 0
  eraseFails    : Nat := 0
  eccUe         : Nat := 0
  boots         : Nat := 0
  trips         : Nat := 0
  deriving DecidableEq, Repr

/-! ### Flash media -/

inductive NsState where
  | online | worn | offline
  deriving DecidableEq, Repr

/-- A namespace (R82-R86). `data` is what is programmed on media, addressed by byte; `mapped` the
blocks whose last write was not a discard; `lost` the blocks that read MEDIA_UE (R77, R371), each with
the PHYSICAL it reports. -/
structure Namespace where
  nsid    : Nat
  berth   : Nat
  blocks  : Nat
  forward : Bool
  state   : NsState := .online
  data    : Mem := []
  mapped  : List Nat := []
  lost    : List (Nat × BitVec 64) := []
  deriving DecidableEq, Repr

/-- A block in the protected write buffer (R83, R357): its new bytes, or a discard. -/
structure BufEntry where
  nsid : Nat
  lba  : Nat
  data : Option Bytes
  cmd  : Nat
  deriving DecidableEq, Repr

/-- A run of a hold (R90, Table 3.8, Table 3.9). -/
structure Run where
  offset : Nat
  length : Nat
  sb     : Nat
  stripe : Nat
  narrow : Bool
  gen    : BitVec 16
  deriving DecidableEq, Repr

/-- A hold (R87-R93). `lost` lists the lost codewords by their first hold byte, each with the PHYSICAL
it reports. -/
structure Hold where
  id      : Nat
  berth   : Nat
  quay    : Nat
  size    : Nat
  alloc   : Nat
  written : Nat := 0
  isSealed : Bool := false
  data    : Mem := []
  runs    : List Run := []
  lost    : List (Nat × BitVec 64) := []
  deriving DecidableEq, Repr

/-- A forwarding entry (R94-R97); `born` is the module's service time (`Media.service`) at its making. -/
structure Forward where
  hold     : Nat
  oldToken : BitVec 64
  newToken : BitVec 64
  offset   : Nat
  length   : Nat
  born     : Nat
  lastSent : Nat
  deriving DecidableEq, Repr

inductive SbUse where
  | erased | open | full | pendingFree | inCheckpoint
  deriving DecidableEq, Repr

/-- A superblock that is not in its factory state (R74, R98). `wear` counts TLC-equivalent cycles in
tenths, `progs` the die programs since its erase, `used` the stripes assigned to hold runs, `deadDies` the dies
that were retired while it held data on them, `refreshDue` whether R94 asks for a refresh. -/
structure Superblock where
  no       : Nat
  pslc     : Bool
  use      : SbUse
  gen      : BitVec 16 := 0
  erases   : Nat := 0
  wear     : Nat := 0
  reads    : Nat := 0
  progs    : Nat := 0
  used     : Nat := 0
  narrow   : Bool := false
  deadDies : List Nat := []
  hadDeleted : Bool := false
  refreshDue : Bool := false
  deriving DecidableEq, Repr

/-- The media of one quay, which survives power loss. -/
structure QuayMedia where
  sbs         : List Superblock := []
  retiredDies : List Nat := []
  dieTimeouts : List (Nat × Nat) := []
  retired     : List (Nat × Nat × Nat) := []
  target      : Nat := 32
  fills       : List Nat := []
  fillsNow    : Nat := 0
  targetAt    : Nat := 0
  braceFree   : Nat := 4
  deriving DecidableEq, Repr

structure MapCkpt where
  atLocal   : Nat := 0
  ptp       : Nat := 0
  journalNo : Nat := 0
  deriving DecidableEq, Repr

/-- The newest of the records that step 6 of R426 looks at. -/
inductive MountRecord where
  | none | session | flush (us kib : Nat) | closing
  deriving DecidableEq, Repr

/-- Media objects and bookkeeping that survive power loss. -/
structure Media where
  nss        : List Namespace := []
  holds      : List Hold := []
  fwds       : List Forward := []
  lastNsid   : Nat := 0
  lastHold   : Nat := 0
  quays      : List QuayMedia := List.replicate 24 {}
  ckpt       : MapCkpt := {}
  volume     : Nat := 0
  journal    : Nat := 0
  record     : MountRecord := .none
  worn       : Bool := false
  service    : Nat := 0
  deriving DecidableEq, Repr

/-! ### Quay engines, volatile -/

inductive LinkState where
  | up | training (attempts : Nat) (since : Nat) | lost
  deriving DecidableEq, Repr

/-- A quay's volatile state (R101, R145, R147, Table 5.7). -/
structure Quay where
  link       : LinkState := .up
  replays    : Nat := 0
  arrayBusy  : Nat := 0
  tiles      : Nat := 0
  mediaStall : Nat := 0
  linkStall  : Nat := 0
  softReads  : Nat := 0
  dredge     : Nat := 0
  retryLog   : List (Nat × Nat × Nat) := []
  deriving DecidableEq, Repr

structure CraneStats where
  busy       : Nat := 0
  products   : Nat := 0
  sramStall  : Nat := 0
  operations : Nat := 0
  lastSm     : Nat := 0
  switches   : Nat := 0
  deriving DecidableEq, Repr

/-- The write buffer and the engines' volatile state. -/
structure Engines where
  wbuf     : List BufEntry := []
  quays    : List Quay := List.replicate 24 {}
  cranes   : List CraneStats := List.replicate 8 {}
  grants   : List (Engine × Nat × Nat) := []
  mediaEvents : BitVec 4 := 0
  deferred : List (Nat × Nat) := []
  deriving DecidableEq, Repr

/-! ### Cargo plans -/

inductive PlanState where
  | loaded | binding | bound
  deriving DecidableEq, Repr

/-- A loaded plan (R172-R184). `size` is its SRAM area in bytes and `mem` what the area holds, `lengths` the contexts'
LENGTHs, `bindings` slot, hold and offset, `runs` how often each operation has run (R121), `copy` the current adapter
copy (R189). -/
structure Plan where
  id       : Nat
  berth    : Nat
  image    : Bytes
  state    : PlanState := .loaded
  size     : Nat := 0
  mem      : Mem := []
  lengths  : List Nat := []
  bindings : List (Nat × Nat × Nat) := []
  peers    : List (Nat × Nat) := []
  steps    : Nat := 0
  copy     : Nat := 0
  runs     : List (Nat × Nat) := []
  deriving DecidableEq, Repr

/-! ### Vector search -/

inductive IndexState where
  | online | worn | offline
  deriving DecidableEq, Repr

inductive NodeState where
  | free | live | retired
  deriving DecidableEq, Repr

/-- A node of the chart (R196, Table 8.14): centroid as BF16 patterns, edges as (node, generation). -/
structure Node where
  no        : Nat
  state     : NodeState
  gen       : BitVec 12 := 0
  liveFrom  : Nat := 0
  retiredAt : Nat := 0
  home      : Nat
  centroid  : List (BitVec 16)
  edges     : List (Option (Nat × BitVec 12))
  deriving DecidableEq, Repr

/-- An item version (R197, R206): its record, the nodes whose list has held it (from epoch, node), the epochs at which
it was inserted, removed, moved from a delta page into a chain, and left out of its list's newest chain version,
and its re-rank vector bytes. -/
structure Item where
  key      : BitVec 64
  slot     : Nat
  gen      : BitVec 12
  attr     : BitVec 32
  codes    : List Nat
  vec      : Bytes
  inserted : Nat
  removed  : Option Nat := none
  places   : List (Nat × Nat)
  folded   : Option Nat := none
  purged   : Option Nat := none
  deriving DecidableEq, Repr

/-- A vector index (R195-R235). -/
structure VIndex where
  id       : Nat
  berth    : Nat
  hold     : Nat
  table    : Nat
  state    : IndexState := .online
  metric   : Nat
  codeBits : Nat
  dim      : Nat
  subspaces : Nat
  degree   : Nat
  rrFmt    : Nat
  rr       : Bool
  codebook : List (BitVec 16)
  nodeMax  : Nat
  itemsMax : Nat
  allocGib : Nat
  sram     : Nat
  epoch    : Nat := 1
  entry    : Nat
  nodes    : List Node
  items    : List Item := []
  slotGens : List (Nat × BitVec 12) := []
  deriving DecidableEq, Repr

/-! ### The vault -/

/-- Table 10.3; `retired` is NONE with versions that later chains still need, or whose space brace keeps. -/
inductive CkptState where
  | openC | committing | captured | consolidated | broken | retired
  deriving DecidableEq, Repr

/-- A tensor of a checkpoint (Tables 10.5, 10.8). `data` is its bytes as its chain gives them, `got` the received byte
ranges, `frac` rows changed and rows of its most recent DELTA version, `copy` the checkpoint whose consolidation
programmed its TLC copy. -/
structure Tensor where
  name     : BitVec 64
  bytes    : Nat
  offset   : Nat
  rowBytes : Nat
  mode     : Nat
  form     : Nat
  fmt      : Nat
  chain    : Nat := 0
  changed  : Nat := 0
  parent   : Nat := 0
  digest   : BitVec 512 := 0
  host     : BitVec 512 := 0
  data     : Mem := []
  got      : List (Nat × Nat) := []
  digested : Bool := false
  frac     : Option (Nat × Nat) := none
  copy     : Nat := 0
  deriving DecidableEq, Repr

/-- A checkpoint (R255 to R268). `tlc` says that its versions lie in TLC, `deferred` that a cancel in BRACED frees its
space later. -/
structure Ckpt where
  id         : Nat
  step       : Nat
  state      : CkptState
  tensors    : List Tensor
  kept       : Bool := false
  replica    : Bool := false
  acked      : Bool := false
  pinned     : Bool := false
  rkey       : BitVec 32 := 0
  commitTime : Nat := 0
  intake     : Nat := 0
  stored     : Nat := 0
  firstWrite : Option Nat := none
  ports      : List Nat := []
  manifest   : Bytes := []
  tlc        : Bool := false
  deferred   : Bool := false
  deriving DecidableEq, Repr

inductive ReplState where
  | off | idle | sending | down
  deriving DecidableEq, Repr

/-- The sender's side of replication (R285, R286, R288). -/
structure ReplSend where
  state     : ReplState := .off
  qpn       : BitVec 24 := 0
  altQpn    : BitVec 24 := 0
  alt       : Bool := false
  peerRkey  : BitVec 32 := 0
  window    : Nat := 0
  ackRkey   : BitVec 32 := 0
  stream    : Nat := 0
  base      : Nat := 0
  credit    : Nat := 0
  current   : Option Nat := none
  ended     : Bool := false
  refZero   : Bool := false
  fails     : Nat := 0
  conflicts : Nat := 0
  progressAt : Nat := 0
  retryAt   : Option Nat := none
  skippedIds : List Nat := []
  lastAcked : Nat := 0
  ackedAt   : Nat := 0
  sent      : Nat := 0
  skipped   : Nat := 0
  downs     : Nat := 0
  resent    : Nat := 0
  wasDown   : Bool := false
  deriving DecidableEq, Repr

/-- The receiver's side of replication (R284, R286, R287). `refs` maps the sender's checkpoint numbers
to the local replicas, `todo` holds control records that have arrived and have not been taken. -/
structure ReplRecv where
  qpn        : BitVec 24 := 0
  altQpn     : BitVec 24 := 0
  window     : Nat := 0
  rkey       : BitVec 32 := 0
  ackRkey    : BitVec 32 := 0
  lastQpn    : BitVec 24 := 0
  consumed   : Nat := 0
  stream     : Bytes := []
  begun      : Option (Nat × Nat × Nat × Nat × Nat) := none
  refs       : List (Nat × Nat) := []
  todo       : List (Nat × Bytes) := []
  deriving DecidableEq, Repr

/-- The vault of one berth (R253-R290). -/
structure Vault where
  berth     : Nat
  pslc      : Nat
  tlc       : Nat
  staging   : Nat
  ckpts     : List Ckpt := []
  lastId    : Nat := 0
  consAt    : Nat
  consRunning : Option (Nat × Nat) := none
  fullMs    : Option Nat := none
  noTlc     : Bool := false
  lastBegin : Option (Nat × Nat) := none
  dueSent   : Bool := false
  lastElapsed : Nat := 0
  prevStep  : Option Nat := none
  low90     : Bool := false
  send      : ReplSend := {}
  recv      : Option ReplRecv := none
  deriving DecidableEq, Repr

/-! ### Berths -/

inductive BerthState where
  | free | moored | suspended
  deriving DecidableEq, Repr

structure Mail where
  sender : Nat
  seqNo  : Nat
  time   : Nat
  body   : Bytes
  deriving DecidableEq, Repr

/-- The berth-scoped registers that software writes. -/
structure BerthRegs where
  shares       : BitVec 128 := 0
  breakwater   : BitVec 128 := 0
  noticeDest   : BitVec 256 := 0x4E4D00
  arithControl : BitVec 32 := 0x2001
  quantThresh  : BitVec 128 := 0x000186A00000FFFF00640000C35003E8
  vectorControl : BitVec 32 := 0x32400080
  vaultControl : BitVec 128 := 0x01000404_0F080E10_287A0000_00000000
  deriving DecidableEq, Repr

/-- The berth-scoped counters (Tables 4.8, 7.13, 8.20, 9.10, 10.16, 11.10). -/
structure BerthStats where
  arithOps     : Nat := 0
  alarmOps     : Nat := 0
  shadowMax    : Nat := 0xFFFFFFFF
  satAct       : Nat := 0
  uflAct       : Nat := 0
  nanIn        : Nat := 0
  nanOut       : Nat := 0
  planRuns     : Nat := 0
  planRows     : Nat := 0
  selections   : Nat := 0
  dropped      : Nat := 0
  nanRoute     : Nat := 0
  queries      : Nat := 0
  pagesRead    : Nat := 0
  chartEvals   : Nat := 0
  badQueries   : Nat := 0
  nanScores    : Nat := 0
  deriving DecidableEq, Repr

structure SelectStats where
  rows         : Nat := 0
  values       : Nat := 0
  nanExcluded  : Nat := 0
  padExcluded  : Nat := 0
  shortRows    : Nat := 0
  relocated    : Nat := 0
  deriving DecidableEq, Repr

structure VaultStats where
  captures       : Nat := 0
  consolidations : Nat := 0
  hostBytes      : Nat := 0
  pslcBytes      : Nat := 0
  boundMissed    : Nat := 0
  digestFails    : Nat := 0
  overlaps       : Nat := 0
  stagingFull    : Nat := 0
  deriving DecidableEq, Repr

structure BerthUse where
  grantWait     : Nat := 0
  mediaLimited  : Nat := 0
  linkLimited   : Nat := 0
  sramLimited   : Nat := 0
  hostLimited   : Nat := 0
  hawserLimited : Nat := 0
  hostDrops     : Nat := 0
  bollardSat    : Nat := 0
  lateMax       : Nat := 0
  deriving DecidableEq, Repr

/-- One berth B0-B15. `buckets` are its HOST buckets (R303): port, level in bytes x 100, time of the
last fill. -/
structure Berth where
  state    : BerthState := .free
  regs     : BerthRegs := {}
  bollards : List Nat := List.replicate 64 0
  inbox    : List Mail := []
  mailSeq  : Nat := 0
  stats    : BerthStats := {}
  sel      : SelectStats := {}
  vstats   : VaultStats := {}
  use      : BerthUse := {}
  buckets  : List (Nat × Int × Nat) := []
  deriving DecidableEq, Repr

/-! ### Network time and the tide -/

inductive TimeState where
  | unsync | acquiring | locked | holdover
  deriving DecidableEq, Repr

structure Master where
  port     : Nat
  master   : BitVec 64
  priority : Nat
  interval : Nat
  last     : Nat
  deriving DecidableEq, Repr

/-- The clock (R306-R310). PTP time is the local time plus `offset`. `servo` is the servo's present estimate of the
offset from the master, `recent` the filtered offsets of the last 64 s with their local times, `syncs` the Syncs of the
last 100 ms that wait for a Follow_Up (sequenceId, arrival, local time), `delayReqs` the Delay_Reqs of the last
second (sequenceId, local time), `lastSync` the last completed Sync (origin, arrival). -/
structure Clock where
  offset    : Int := 0
  state     : TimeState := .unsync
  selected  : Option Master := none
  masters   : List Master := []
  servo     : Int := 0
  offsetNs  : Int := 0
  holdAt    : Nat := 0
  holdBase  : Nat := 0
  freqPpb   : Int := 0
  freqLog   : List (Nat × Int) := []
  recent    : List (Nat × Int) := []
  good      : Nat := 0
  bad       : Nat := 0
  lockedOnce : Bool := false
  lastGood  : Nat := 0
  slewAt    : Nat := 0
  syncs     : List (Nat × Nat) := []
  delayReqs : List (Nat × Nat) := []
  lastSync  : Option (Nat × Nat) := none
  delaySeq  : Nat := 0
  rejects   : Nat := 0
  steps     : Nat := 0
  holdovers : Nat := 0
  pathNs    : Nat := 0
  lastPps   : Nat := 0
  deriving DecidableEq, Repr

/-- A tide entry (Table 11.7). -/
structure TideEntry where
  start    : Nat
  length   : Nat
  owner    : Nat
  backfill : Bool
  vaultSlot : Bool
  quiet    : Bool
  cranes   : BitVec 8
  quays    : BitVec 24
  guardNs  : Nat
  deriving DecidableEq, Repr

structure TideTable where
  cycle    : Nat := 1000000000
  phase    : Nat := 0
  entries  : List TideEntry := []
  switchAt : Nat := 0
  deriving DecidableEq, Repr

/-- The active and pending tide tables (logbook, R293) and the windows open now; `counted`
lists the open windows whose late start has been counted, `atStart` the engines that ran another berth's part when a window
opened and have not reached a boundary since. -/
structure Tide where
  active  : TideTable := {}
  pending : Option TideTable := none
  since   : Nat := 0
  late    : Nat := 0
  openWin : List Nat := []
  counted : List Nat := []
  atStart : List (Nat × Engine) := []
  deriving DecidableEq, Repr

/-! ### Hawser -/

inductive HawserState where
  | absent | training | up | narrow | down | miswired | conflict | foreign
  deriving DecidableEq, Repr

/-- A hawser port (Tables 12.5, 12.9, 12.12; R324, R332). `txq` holds frames that wait for a credit or for room in the
replay buffer, a transit frame with the port it came by and the lane whose credit returns when it goes on; `lastIdent` the last
valid IDENT of this attempt, `linked` that the port carries traffic or retrains after it did. -/
structure HawserPort where
  state      : HawserState := .absent
  lanes      : Nat := 0
  peerModule : Nat := 0
  peerPort   : Nat := 0
  peerSerial : Bytes := []
  since      : Nat := 0
  fecCorr    : Nat := 0
  fecUncorr  : Nat := 0
  replays    : Nat := 0
  retrains   : Nat := 0
  downs      : Nat := 0
  badFrames  : Nat := 0
  flowUnknown : Nat := 0
  noRoute    : Nat := 0
  step       : Nat := 0
  stepAt     : Nat := 0
  failures   : Nat := 0
  signal     : Bool := false
  linked     : Bool := false
  locked     : Nat := 0
  txSeq      : BitVec 16 := 0
  rxNext     : BitVec 16 := 0
  nakDone    : Bool := false
  replay     : List (BitVec 16 × Bytes) := []
  txq        : List (Option (Nat × Nat) × Bytes) := []
  ackAt      : Nat := 0
  resendLog  : List Nat := []
  lastIdent  : Option Bytes := none
  deriving DecidableEq, Repr

/-- The sender's credits at the far end of a port: per lane reserved credits, shared credits, and the lanes of the
frames that hold shared ones, oldest first. -/
structure Credits where
  reserved : List (Nat × Nat) := []
  shared   : Nat := 0
  heldBy   : List Nat := []
  deriving DecidableEq, Repr

/-- A module known from TOPO and IDENT messages: its neighbours (module, its port). -/
structure FleetModule where
  module     : Nat
  serial     : Bytes
  neighbours : List (Nat × Nat)
  version    : BitVec 16
  deriving DecidableEq, Repr

/-- An open flow as receiver (R325): the frame numbers that have arrived, and for a flow that belongs to work of this
module (`work`) the bytes in its receive space. -/
structure Flow where
  src    : Nat
  flow   : BitVec 32
  berth  : Nat
  offset : Nat
  bytes  : Nat
  frames : List Nat
  work   : Option Nat := none
  data   : Mem := []
  deriving DecidableEq, Repr

/-- A flow this module sends: waiting for FLOW_ACK, or acknowledged. -/
structure TxFlow where
  flow    : BitVec 32
  dest    : Nat
  berth   : Nat
  data    : Bytes
  cmd     : Nat
  deriving DecidableEq, Repr

/-- What a member does in one step of work under R334: bytes to send to peers (peer, offset, length) and bytes to
receive (peer, offset, length), which are added to the partial sums or replace them. -/
structure FleetStep where
  sends : List (Nat × Nat × Nat)
  recvs : List (Nat × Nat × Nat)
  add   : Bool
  deriving DecidableEq, Repr

/-- Work under R334 at this module, for the accepted command `cmd`: the members whose RESULT the origin awaits, the
results that have come (module, block and counters), the exchange steps still to do, whether the present step's sends
have gone out, and the working buffer. -/
structure FleetWork where
  cmd     : Nat
  waiting : List Nat := []
  results : List (Nat × Bytes) := []
  steps   : List FleetStep := []
  sent    : Bool := false
  buf     : Mem := []
  failed  : Option (Nat × Nat) := none
  deriving DecidableEq, Repr

structure Hawser where
  ports    : List HawserPort := List.replicate 6 {}
  credits  : List Credits := List.replicate 6 {}
  fleet    : List FleetModule := []
  topoVer  : BitVec 16 := 0
  flows    : List Flow := []
  txFlows  : List TxFlow := []
  nextFlow : BitVec 32 := 0
  partialMsg : List (Nat × Bytes) := []
  works    : List FleetWork := []
  seenAnn  : List (Nat × Nat) := []
  retrainAsked : Bool := false
  deriving DecidableEq, Repr

/-! ### Storm mooring -/

inductive StormState where
  | calm | brace | settle | flush
  deriving DecidableEq, Repr

/-- One axis of the motion filter (R346): last input, last high-pass output, the low-pass history. -/
structure AxisFilter where
  x1 : F32 := 0
  h1 : F32 := 0
  h2 : F32 := 0
  y1 : F32 := 0
  y2 : F32 := 0
  deriving DecidableEq, Repr

structure AlertSource where
  source : BitVec 64
  seqNo  : BitVec 32
  expiry : Nat
  deriving DecidableEq, Repr

structure PeerBrace where
  module : Nat
  last   : Nat
  deriving DecidableEq, Repr

/-- A motion event record and its waveform (R362, R363, Table 13.9). -/
structure MotionEvent where
  no         : Nat
  cause      : BitVec 5
  flags      : BitVec 4
  devState   : Nat
  timeState  : Nat
  openTime   : Nat
  closeTime  : Nat
  peakTime   : Nat
  peak       : F32
  peakXyz    : List F32
  staltaPeak : Nat
  errBound   : Nat
  source     : BitVec 64
  firstTime  : Nat
  samples    : List (BitVec 16 × BitVec 16 × BitVec 16)
  deriving DecidableEq, Repr

/-- The accelerometer, its filters and windows (R345-R347). Windows are newest first. -/
structure Motion where
  filters   : List AxisFilter := [{}, {}, {}]
  last      : Option (BitVec 16 × BitVec 16 × BitVec 16) := none
  lastAt    : Nat := 0
  same      : List Nat := [0, 0, 0]
  missing   : Nat := 0
  window    : List F32 := []
  ltaWin    : List F32 := []
  validRun  : Nat := 0
  pgaRun    : Nat := 0
  staltaWas : Bool := false
  raw       : List (BitVec 16 × BitVec 16 × BitVec 16) := []
  fault     : Bool := false
  faultRun  : Nat := 0
  triggerAt : Nat := 0
  sampledMs : Nat := 0
  rawMs     : Nat := 0
  spikes    : Nat := 0
  clipped   : Nat := 0
  faults    : Nat := 0
  deriving DecidableEq, Repr

structure Storm where
  state     : StormState := .calm
  since     : Nat := 0
  motion    : Bool := false
  power     : Bool := false
  alerts    : List AlertSource := []
  peers     : List PeerBrace := []
  holdAt    : Nat := 0
  bracedAt  : Nat := 0
  peakSince : F32 := 0
  repeatAt  : Nat := 0
  sealDone  : Bool := false
  events    : BitVec 4 := 0
  openEvent : Bool := false
  sensor    : Motion := {}
  deriving DecidableEq, Repr

/-- The holdup bank, the power-fail comparator and the last flush (Table 13.12); INPUT_DV is free at every
read (log entry 88). `flushed` says that power was lost and R359 holds the module in POWERED. `flushAt` is the time of the assertion whose flush or shutdown is running. -/
structure PowerFail where
  holdupMj  : Nat := 12000
  holdupLow : Bool := false
  flushOk   : Bool := true
  flushUs   : Nat := 0
  flushKib  : Nat := 0
  glitches  : Nat := 0
  measuredAt : Nat := 0
  measured  : Bool := false
  armed     : Bool := true
  flushAt   : Option Nat := none
  flushed   : Bool := false
  deriving DecidableEq, Repr

/-! ### Memory integrity -/

structure RepairRecord where
  unit    : Nat
  index   : Nat
  bank    : Nat
  target  : Nat
  isLine  : Bool
  cause   : Nat
  timeS   : Nat
  applied : Bool
  deriving DecidableEq, Repr

structure UnitStats where
  unit     : Nat
  index    : Nat
  ce       : Nat := 0
  passes   : Nat := 0
  lastAddr : BitVec 64 := 0
  passAt   : Nat := 0
  deriving DecidableEq, Repr

/-- Check-code events, poisoned words and scrubbing, volatile part (R370-R376). `ceRows` counts
consecutive passes in which a row gave correctable errors: (unit, index, bank, row) to (passes, seen
in this pass); `ceBits` lists (unit, index, bank, bit, row) of this pass. -/
structure MemHealth where
  ce        : Nat := 0
  poisoned  : List SramWord := []
  rdmaUe    : Nat := 0
  deferred  : Nat := 0
  events    : BitVec 4 := 0
  units     : List UnitStats := []
  ceRows    : List ((Nat × Nat × Nat × Nat) × Nat × Bool) := []
  ceBits    : List (Nat × Nat × Nat × Nat × Nat) := []
  recorded  : List (Nat × Nat × Nat) := []
  deriving DecidableEq, Repr

/-- Repair records in the logbook, the units (unit, index) whose spare page is in use, and those that have failed for want
of a spare (R376-R378). -/
structure Repairs where
  records   : List RepairRecord := []
  pages     : List (Nat × Nat) := []
  failed    : List (Nat × Nat) := []
  deriving DecidableEq, Repr

/-! ### The logbook -/

structure BadSector where
  phys   : Nat
  cause  : Nat
  timeS  : Nat
  deriving DecidableEq, Repr

/-- An operation accepted on a bank (R382): program of words, erase of sectors, or system compaction;
`cmd` is the accepted command, `left` the words or sectors still to do. -/
structure BankOp where
  cmd    : Nat
  kind   : Nat
  sector : Nat
  word   : Nat
  total  : Nat
  left   : Nat
  began  : Nat
  words  : List (BitVec 64)
  deriving DecidableEq, Repr

/-- The logbook flash (R380-R401). `words` are the programmed user words by word address, `dead` those
that cannot be corrected, `intents` sectors with an erase-intent record and no completion record. -/
structure Logbook where
  words     : List (Nat × BitVec 64) := []
  dead      : List Nat := []
  bad       : List BadSector := []
  mapped    : List (Nat × Nat) := []
  erases    : List (Nat × Nat) := []
  intents   : List Nat := []
  readOnly  : Bool := false
  deriving DecidableEq, Repr

structure LogbookLive where
  ops        : List (List BankOp) := [[], [], [], []]
  mirrorLost : Bool := false
  eccCorrected : Nat := 0
  events     : BitVec 4 := 0
  deriving DecidableEq, Repr

/-! ### Trust and firmware -/

/-- A firmware slot: its bytes, whether its staging completed and is running, and whether a write into
it has happened at all (R410, R411). `genuine` marks a slot that still holds the image of a component that the module left
the factory with (log entry 2). -/
structure FwSlot where
  empty    : Bool := true
  writing  : Bool := false
  complete : Bool := false
  genuine  : Option Nat := none
  image    : Bytes := []
  deriving DecidableEq, Repr

/-- The slot that holds the factory's image of component `c`. -/
def factorySlot (c : Nat) : FwSlot := { empty := false, complete := true, genuine := some c }

/-- An image that a boot loaded: none, the factory's, or a staged one with its interlock number, SVN and digest. -/
inductive LoadedImage where
  | absent
  | factory (c : Nat)
  | staged (interlock svn : BitVec 16) (digest : BitVec 512)
  deriving DecidableEq, Repr

/-- The boot selection and the slots, in the trust region and the image store (R407). -/
structure Trust where
  slots     : List FwSlot := [factorySlot 0, {}, factorySlot 1, {}, factorySlot 2, {}]
  current   : BitVec 3 := 0
  knownGood : BitVec 3 := 0
  trial     : Bool := false
  trialLeft : Nat := 0
  deriving DecidableEq, Repr

/-- What the last boot chose (Table 16.9) and which components have started (R408). -/
structure Boot where
  running   : BitVec 3 := 0
  loaded    : Bool := false
  images    : List LoadedImage := [.absent, .absent, .absent]
  cause     : Nat := 0
  comp      : Nat := 0
  image     : Nat := 0
  reason    : Nat := 0
  wasTrial  : Bool := false
  releasedAt : Nat := 0
  mgmtAt    : Nat := 0
  mgmtUp    : Bool := false
  quaysUp   : List Nat := []
  seqsUp    : List Nat := []
  quayFail  : List Nat := []
  seqFail   : List Nat := []
  deriving DecidableEq, Repr

/-! ### Input, sideband, heat and input power -/

/-- The sideband controller and the input switch, which keep their state in POWERED (R422, R438, R439,
R445, R449). -/
structure Sideband where
  switchClosed : Bool := true
  senseOk      : Bool := true
  bladeOk      : Bool := true
  railsOn      : Bool := true
  railFault    : Bool := false
  railTries    : Nat := 0
  railFaultAt  : Nat := 0
  lockout      : Bool := false
  tripped      : Nat := 0
  tripNote     : Nat := 0
  openCause    : Nat := 0
  pdPending    : Bool := false
  request      : Nat := 0
  drained      : Bool := false
  busy         : Bool := false
  nextKind     : Nat := 1
  powerOnDue   : Bool := false
  deriving DecidableEq, Repr

/-- A temperature sensor's filter (R147, R448): the last five valid samples, newest first, in 1/16 °C; `run` counts valid
samples in a row while the sensor is faulty, `step` is its thermal step, `cool` since when the temperature has stayed 3 °C
below each threshold, `above70` and `above85` the ms towards the next minute of QUAY_HEALTH. -/
structure SensorState where
  sensor   : Sensor
  samples  : List Int := []
  lastAt   : Nat := 0
  fault    : Bool := false
  run      : Nat := 0
  step     : Nat := 0
  cool     : List (Option Nat) := []
  above70  : Nat := 0
  above85  : Nat := 0
  deriving DecidableEq, Repr

/-- Temperature sensors, and input power (R447): `samples` of the last ms, newest first. -/
structure Thermal where
  sensors   : List SensorState := []
  powerStep : Nat := 0
  stepAt    : Nat := 0
  samples   : List Nat := []
  lastPower : Nat := 0
  powerFault : Bool := false
  validFrom : Option Nat := none
  lowFrom   : Option Nat := none
  throttleMs : Nat := 0
  stepFrom  : Option Nat := none
  events    : BitVec 4 := 0
  faults    : Nat := 0
  deriving DecidableEq, Repr

/-! ### The whole block -/

/-- The state of the block. `pending` is the queue of waiting commands (the model's own), `now` the local
time in ns, `out` everything sent so far, newest first (the model's own), `fresh` counts the free values
used (the model's own). -/
structure State where
  pending : List Instr := []
  now     : Nat := 0
  fresh   : Nat := 0
  out     : List Output := []
  fixed   : Fixed := {}
  dev     : Device := {}
  power   : Power := {}
  net     : Net := {}
  cmds    : Cmds := {}
  rdma    : Rdma := {}
  regs    : Regs := {}
  lb      : LbCounters := {}
  lbSaved : LbCounters := {}
  media   : Media := {}
  eng     : Engines := {}
  plans   : List Plan := []
  lastPlan : Nat := 0
  indexes : List VIndex := []
  lastIndex : Nat := 0
  vaults  : List Vault := []
  berths  : List Berth := []
  clock   : Clock := {}
  tide    : Tide := {}
  hawser  : Hawser := {}
  storm   : Storm := {}
  motionLog : List MotionEvent := []
  lastEvent : Nat := 0
  pf      : PowerFail := {}
  mem     : MemHealth := {}
  repairs : Repairs := {}
  logbook : Logbook := {}
  logLive : LogbookLive := {}
  trust   : Trust := {}
  boot    : Boot := {}
  side    : Sideband := {}
  thermal : Thermal := {}
  deriving DecidableEq, Repr

/-- Shares of B0 from the factory (Table 11.3): SRAM_UNITS 16, ACT_UNITS 8, SCAN_UNITS 4, QP_QUOTA 64,
WEIGHT 1, CAP_GIB 0. -/
def factoryB0Shares : BitVec 128 := (1 <<< 48) ||| (64 <<< 32) ||| (4 <<< 24) ||| (8 <<< 16) ||| 16

/-- A breakwater with MIN 0 and MAX 100 for every resource and BURST_US 100 (R300, Table 11.6). -/
def openBreakwater : BitVec 128 :=
  (100 <<< 80) ||| (100 <<< 71) ||| (100 <<< 55) ||| (100 <<< 39) ||| (100 <<< 23) ||| (100 <<< 7)

/-- The berths as the factory leaves them: B0 MOORED, the others FREE (Table 11.1). -/
def factoryBerths : List Berth :=
  { state := .moored, regs := { shares := factoryB0Shares, breakwater := openBreakwater } } ::
    List.replicate 15 {}

/-- The block right after reset: in TRIAL, entered from POWERED, every parameter at its Reset value and
every LB field at its factory value (Tables 1.7, 1.9 and the register tables of every chapter). -/
def State.reset : State := { berths := factoryBerths, boot := { loaded := true, images := [.factory 0, .factory 1, .factory 2] } }

end Sys2Proof.Machine
end

