-- ==== Sys2Proof/Machine/Ops.lean ====
section
/-! DEFINITION. The named operations every meaning uses: byte strings and bit fields, saturating counters,
sparse memory, check codes, time, free values, and what the module sends. -/

namespace Sys2Proof.Machine

/-! ### Byte strings and bit fields (R3) -/

/-- The number a little-endian byte string holds. -/
def ofLE : Bytes → Nat
  | [] => 0
  | b :: bs => b.toNat + 256 * ofLE bs

/-- `n` bytes of `v`, little-endian. -/
def toLE : Nat → Nat → Bytes
  | 0, _ => []
  | n + 1, v => BitVec.ofNat 8 v :: toLE n (v / 256)

/-- `n` bytes from offset `off`; bytes past the end are absent. -/
def slice (bs : Bytes) (off n : Nat) : Bytes := (bs.drop off).take n

/-- The field of `n` bytes at offset `off`; bytes past the end read zero (log entry 5). -/
def getLE (bs : Bytes) (off n : Nat) : Nat := ofLE (slice bs off n)

/-- `bs` with `new` written at `off` (`bs` is padded with zeros to reach). -/
def putBytes (bs : Bytes) (off : Nat) (new : Bytes) : Bytes :=
  let p := if bs.length < off then bs ++ List.replicate (off - bs.length) 0 else bs
  p.take off ++ new ++ p.drop (off + new.length)

/-- `n` zero bytes. -/
def zeros (n : Nat) : Bytes := List.replicate n 0

/-- Pads with zeros to `n` bytes. -/
def padTo (n : Nat) (bs : Bytes) : Bytes := bs ++ zeros (n - bs.length)

/-- Bits [lo + n - 1 : lo]. -/
def bits (v lo n : Nat) : Nat := v / 2 ^ lo % 2 ^ n

/-- `v` with bits [lo + n - 1 : lo] replaced by `x`. -/
def setBits (v lo n x : Nat) : Nat := v - bits v lo n * 2 ^ lo + x % 2 ^ n * 2 ^ lo

/-- Two's complement reading of `n` bits. -/
def signed (n v : Nat) : Int := if v % 2 ^ n < 2 ^ (n - 1) then (v % 2 ^ n : Nat) else ((v % 2 ^ n : Nat) : Int) - 2 ^ n

/-- Two's complement form in `n` bits. -/
def unsigned (n : Nat) (v : Int) : Nat := (v % ((2 ^ n : Nat) : Int)).toNat

def ceilDiv (a b : Nat) : Nat := (a + b - 1) / b

/-- Rounded up to a multiple of `b`. -/
def roundUp (a b : Nat) : Nat := ceilDiv a b * b

/-- A counter of `w` bits saturates. -/
def satAdd (w a b : Nat) : Nat := min (a + b) (2 ^ w - 1)

/-- A value that does not fit its field of `w` bits is reported as the largest it holds. -/
def clampTo (w a : Nat) : Nat := min a (2 ^ w - 1)

/-- A signed value clamped to `n` bits. -/
def clampInt (n : Nat) (v : Int) : Int := max (-(2 ^ (n - 1) : Nat)) (min v ((2 ^ (n - 1) : Nat) - 1))

/-- Sum of naturals. -/
def sumNat (l : List Nat) : Nat := l.foldl (· + ·) 0

def maxNat (l : List Nat) : Nat := l.foldl max 0

/-- Insertion in ascending order by a key. -/
def insertBy {α : Type} (le : α → α → Bool) (a : α) : List α → List α
  | [] => [a]
  | b :: l => if le a b then a :: b :: l else b :: insertBy le a l

/-- Stable sort by a Bool order, by insertion. -/
def sortBy {α : Type} (le : α → α → Bool) : List α → List α
  | [] => []
  | a :: l => insertBy le a (sortBy le l)

/-- The first `some` of a list of checks, in order. -/
def firstSome {α : Type} (l : List (Option α)) : Option α := l.findSome? id

/-! ### Sparse memory -/

def memGet : Mem → Nat → Byte
  | [], _ => 0
  | (x, c) :: m, a => if x = a then c else memGet m a

def memPut : Mem → Nat → Byte → Mem
  | [], a, b => if b = 0 then [] else [(a, b)]
  | (x, c) :: m, a, b =>
    if a < x then (if b = 0 then (x, c) :: m else (a, b) :: (x, c) :: m)
    else if a = x then (if b = 0 then m else (a, b) :: m)
    else (x, c) :: memPut m a b

/-- Writes a byte string at `a`. -/
def memWrite : Mem → Nat → Bytes → Mem
  | m, _, [] => m
  | m, a, b :: bs => memWrite (memPut m a b) (a + 1) bs

/-- Reads `n` bytes from `a`. -/
def memRead (m : Mem) : Nat → Nat → Bytes
  | _, 0 => []
  | a, n + 1 => memGet m a :: memRead m (a + 1) n

/-- Bytes [a, a + n) become zero. -/
def memClear (m : Mem) (a n : Nat) : Mem := m.filter (fun c => decide (c.1 < a ∨ a + n ≤ c.1))

/-- The canonical form: addresses strictly rising, no listed byte zero. -/
def memWf : Mem → Bool
  | [] => true
  | [(_, c)] => c != 0
  | (x, c) :: (y, d) :: m => c != 0 && decide (x < y) && memWf ((y, d) :: m)

/-! ### Check codes -/

/-- One bit of a reflected CRC. -/
def crcBit (poly c : Nat) : Nat := if c % 2 = 1 then (c / 2) ^^^ poly else c / 2

def crcByte (poly c : Nat) (b : Byte) : Nat :=
  let x := c ^^^ b.toNat
  crcBit poly (crcBit poly (crcBit poly (crcBit poly (crcBit poly (crcBit poly (crcBit poly (crcBit poly x)))))))

/-- CRC-32C (Castagnoli), as R24 and the hawser frames use it. -/
def crc32c (bs : Bytes) : Nat := (bs.foldl (crcByte 0x82F63B78) 0xFFFFFFFF) ^^^ 0xFFFFFFFF

/-- One bit of the non-reflected CRC-8 of the sideband. -/
def crc8Bit (c : Nat) : Nat := if 128 ≤ c then ((c * 2) % 256) ^^^ 0x07 else c * 2

def crc8Byte (c : Nat) (b : Byte) : Nat :=
  crc8Bit (crc8Bit (crc8Bit (crc8Bit (crc8Bit (crc8Bit (crc8Bit (crc8Bit (c ^^^ b.toNat))))))))

/-- CRC-8 with polynomial x^8 + x^2 + x + 1 and initial value 0. -/
def crc8 (bs : Bytes) : Nat := bs.foldl crc8Byte 0

/-! ### Time and free values -/

/-- The row happens at local time `t`; local time never runs backward. -/
def setNow (t : Nat) (s : State) : State := { s with now := max s.now t }

/-- PTP time as the module holds it at this instant (R306). -/
def ptpNow (s : State) : Nat := (s.now + s.clock.offset).toNat

/-- Consumes one value of the counter that feeds the free values. -/
def useFresh (s : State) : State := { s with fresh := s.fresh + 1 }

/-- A new identifier after `last`: above every earlier one, so never used again. -/
def newId (s : State) (last : Nat) : Nat := last + 1 + Config.idGap s.fresh

/-- A free choice below `n`. -/
def pickBelow (s : State) (n : Nat) : Nat := if n = 0 then 0 else Config.pick s.fresh % n

/-- The module runs: its rails are on and no flush or shutdown after a power-fail assertion is under way. -/
def alive (s : State) : Bool := s.dev.state != .powered && s.pf.flushAt.isNone

/-! ### Places in State -/

def hostPort (s : State) (n : Nat) : HostPort := s.net.ports.getD n {}

def modPort (n : Nat) (g : HostPort → HostPort) (s : State) : State :=
  { s with net := { s.net with ports := s.net.ports.modify n g } }

def modPortStats (n : Nat) (g : PortStats → PortStats) (s : State) : State :=
  modPort n (fun p => { p with stats := g p.stats }) s

def getBerth (s : State) (b : Nat) : Berth := s.berths.getD b {}

def modBerth (b : Nat) (g : Berth → Berth) (s : State) : State :=
  { s with berths := s.berths.modify b g }

def modBerthStats (b : Nat) (g : BerthStats → BerthStats) (s : State) : State :=
  modBerth b (fun x => { x with stats := g x.stats }) s

def getQueue (s : State) (b q : Nat) : Queue :=
  (s.net.queues.find? (fun x => x.berth == b && x.queue == q)).getD { berth := b, queue := q }

def setQueue (q : Queue) (s : State) : State :=
  let others := s.net.queues.filter (fun x => !(x.berth == q.berth && x.queue == q.queue))
  { s with net := { s.net with queues := q :: others } }

/-- R40: every queue of the berth has E = 0, an empty cache and nothing held. -/
def resetQueues (b : Nat) (s : State) : State :=
  { s with net := { s.net with queues := s.net.queues.filter (fun x => x.berth != b) } }

def getActive (s : State) (id : Nat) : Option Active := s.cmds.active.find? (fun a => a.id == id)

def modActive (id : Nat) (g : Active → Active) (s : State) : State :=
  { s with cmds := { s.cmds with
      active := s.cmds.active.map (fun a => if a.id == id then g a else a) } }

def dropActive (id : Nat) (s : State) : State :=
  { s with cmds := { s.cmds with active := s.cmds.active.filter (fun a => a.id != id) } }

def getSlot (s : State) (b : Nat) (tag : BitVec 32) : Option Slot :=
  s.cmds.slots.find? (fun x => x.berth == b && x.tag == tag)

def getQp (s : State) (qpn : BitVec 24) : Option Qp := s.rdma.qps.find? (fun q => q.qpn == qpn)

def modQp (qpn : BitVec 24) (g : Qp → Qp) (s : State) : State :=
  { s with rdma := { s.rdma with qps := s.rdma.qps.map (fun q => if q.qpn == qpn then g q else q) } }

def getRegion (s : State) (rkey : BitVec 32) : Option Region :=
  s.rdma.regions.find? (fun r => r.rkey == rkey)

def getNs (s : State) (nsid : Nat) : Option Namespace := s.media.nss.find? (fun n => n.nsid == nsid)

def modNs (nsid : Nat) (g : Namespace → Namespace) (s : State) : State :=
  { s with media := { s.media with nss := s.media.nss.map (fun n => if n.nsid == nsid then g n else n) } }

def getHold (s : State) (id : Nat) : Option Hold := s.media.holds.find? (fun h => h.id == id)

def modHold (id : Nat) (g : Hold → Hold) (s : State) : State :=
  { s with media := { s.media with holds := s.media.holds.map (fun h => if h.id == id then g h else h) } }

def getPlan (s : State) (id : Nat) : Option Plan := s.plans.find? (fun p => p.id == id)

def modPlan (id : Nat) (g : Plan → Plan) (s : State) : State :=
  { s with plans := s.plans.map (fun p => if p.id == id then g p else p) }

def getIndex (s : State) (id : Nat) : Option VIndex := s.indexes.find? (fun x => x.id == id)

def modIndex (id : Nat) (g : VIndex → VIndex) (s : State) : State :=
  { s with indexes := s.indexes.map (fun x => if x.id == id then g x else x) }

def getVault (s : State) (b : Nat) : Option Vault := s.vaults.find? (fun v => v.berth == b)

def modVault (b : Nat) (g : Vault → Vault) (s : State) : State :=
  { s with vaults := s.vaults.map (fun v => if v.berth == b then g v else v) }

def getQuay (s : State) (q : Nat) : Quay := s.eng.quays.getD q {}

def modQuay (q : Nat) (g : Quay → Quay) (s : State) : State :=
  { s with eng := { s.eng with quays := s.eng.quays.modify q g } }

def getQuayMedia (s : State) (q : Nat) : QuayMedia := s.media.quays.getD q {}

def modQuayMedia (q : Nat) (g : QuayMedia → QuayMedia) (s : State) : State :=
  { s with media := { s.media with quays := s.media.quays.modify q g } }

def hawserPort (s : State) (n : Nat) : HawserPort := s.hawser.ports.getD n {}

def modHawserPort (n : Nat) (g : HawserPort → HawserPort) (s : State) : State :=
  { s with hawser := { s.hawser with ports := s.hawser.ports.modify n g } }

/-! ### Codes of states -/

def DevState.code : DevState → Nat
  | .powered => 0 | .trial => 1 | .dryDock => 2 | .mounting => 3 | .ready => 4 | .braced => 5 | .draining => 6

def BerthState.code : BerthState → Nat
  | .free => 0 | .moored => 1 | .suspended => 2

/-- BERTH_STATE of the status block: 0xFF when the header's berth is out of range (Table 2.2). -/
def berthStateCode (s : State) (b : Nat) : Nat :=
  if b ≤ 15 then (getBerth s b).state.code else 0xFF

/-- Berths in MOORED or SUSPENDED. -/
def berthLive (s : State) (b : Nat) : Bool := (getBerth s b).state != .free

/-- Time spent in READY and BRACED so far (R95). -/
def serviceNs (s : State) : Nat :=
  s.media.service + (if s.dev.state = .ready ∨ s.dev.state = .braced then s.now - s.dev.enteredAt else 0)

/-- Moves to another device state and records the one before (Table 1.9). -/
def enterState (d : DevState) (s : State) : State :=
  { s with
    media := { s.media with service := serviceNs s }
    dev := { s.dev with state := d, prev := s.dev.state, enteredAt := s.now } }

/-! ### Variant constants (Table 0.1, Table 11.3) -/

def variantCode : Variant → Nat
  | .X => 1 | .S => 2 | .V => 3

def cranesOf : Variant → Nat
  | .X => 8 | .S => 4 | .V => 0

def hawsersOf : Variant → Nat
  | .X => 6 | .S => 2 | .V => 0

def sramGibOf : Variant → Nat
  | .X => 16 | .S => 8 | .V => 4

/-- SRAM_UNITS module total (Table 11.3). -/
def sramUnitsTotal : Variant → Nat
  | .X => 992 | .S => 496 | .V => 240

/-- Bit of the unit-presence word. -/
def unitBit (s : State) (n : Nat) : Bool := s.dev.units.toNat.testBit n

/-- Bits of the needed units that the word lacks. -/
def missingUnits (s : State) (need : Nat) : Nat := need &&& (s.dev.units.toNat ^^^ (2 ^ 64 - 1))

/-! ### Sending -/

def emit (o : Output) (s : State) : State := { s with out := o :: s.out }

/-- U of R27: the fragment body size that FRAG_BODY selects. -/
def fragUnit (s : State) : Nat := if s.regs.nimoxTransport.toNat.testBit 30 then 8192 else 1408

def udpPort (s : State) : Nat := bits s.regs.nimoxTransport.toNat 0 16

/-- FRAG_TIMEOUT in ns. -/
def fragTimeoutNs (s : State) : Nat := bits s.regs.nimoxTransport.toNat 16 14 * 1000000

end Sys2Proof.Machine
end

