-- ==== Sys2Proof/Machine/Float.lean ====
section
/-! DEFINITION. The number formats of Table 4.1 and exact floating arithmetic with one rounding (R108, R109, R110,
R116, R117). A floating value is a signed dyadic `m * 2^e`, an infinity or NaN. -/

namespace Sys2Proof.Machine

/-- A decoded floating value. `fin neg m e` is `(-1)^neg * m * 2^e`; zero has `m = 0` and a sign. -/
inductive Num where
  | nan
  | inf (neg : Bool)
  | fin (neg : Bool) (m : Nat) (e : Int)
  deriving DecidableEq, Repr

def Num.zero : Num := .fin false 0 0

/-- A floating format: significant bits, exponent field bits, bias, and whether all-ones exponents hold numbers (E4M3). -/
structure Fmt where
  p      : Nat
  ebits  : Nat
  bias   : Nat
  noInf  : Bool := false
  deriving DecidableEq, Repr

def fmtFp32 : Fmt := { p := 24, ebits := 8, bias := 127 }
def fmtFp64 : Fmt := { p := 53, ebits := 11, bias := 1023 }
def fmtBf16 : Fmt := { p := 8, ebits := 8, bias := 127 }
def fmtE4m3 : Fmt := { p := 4, ebits := 4, bias := 7, noInf := true }
def fmtE5m2 : Fmt := { p := 3, ebits := 5, bias := 15 }

/-- Exponent of the least subnormal. -/
def Fmt.emin (f : Fmt) : Int := 1 - (f.bias : Int) - ((f.p : Int) - 1)

/-- The largest finite value, as significand and exponent. -/
def Fmt.maxM (f : Fmt) : Nat := if f.noInf then 2 ^ f.p - 2 else 2 ^ f.p - 1
def Fmt.maxE (f : Fmt) : Int :=
  (2 ^ f.ebits : Nat) - (if f.noInf then 1 else 2) - (f.bias : Int) - ((f.p : Int) - 1)

/-- `2^e` on the numerator or the denominator of `m * 2^e`. -/
def ratOf (m : Nat) (e : Int) : Nat × Nat :=
  match e with
  | .ofNat k => (m * 2 ^ k, 1)
  | .negSucc k => (m, 2 ^ (k + 1))

/-- ⌊log2(num / den)⌋ for positive `num`, `den`. -/
def floorLog (num den : Nat) : Int :=
  let k : Int := (Nat.log2 num : Int) - (Nat.log2 den : Int)
  let fits := match k with
    | .ofNat j => decide (den * 2 ^ j ≤ num)
    | .negSucc j => decide (den ≤ num * 2 ^ (j + 1))
  if fits then k else k - 1

/-- A quotient rounded to the nearest integer, ties to even. -/
def divRne (a b : Nat) : Nat :=
  let q := a / b
  let r := a % b
  if 2 * r < b then q else if b < 2 * r then q + 1 else if q % 2 = 0 then q else q + 1

/-- `num / den` rounded to nearest, ties to even, to `p` significant bits with no exponent below `emin`. -/
def roundRat (p : Nat) (emin : Int) (num den : Nat) : Nat × Int :=
  if num = 0 then (0, 0) else
  let e := max emin (floorLog num den - (p : Int) + 1)
  let q := match e with
    | .ofNat j => divRne num (den * 2 ^ j)
    | .negSucc j => divRne (num * 2 ^ (j + 1)) den
  if q = 2 ^ p then (2 ^ (p - 1), e + 1) else (q, e)

/-- Is `m * 2^e` above the format's largest finite value? -/
def Fmt.exceeds (f : Fmt) (m : Nat) (e : Int) : Bool :=
  let d := e - f.maxE
  match d with
  | .ofNat j => decide (f.maxM < m * 2 ^ j)
  | .negSucc j => decide (f.maxM * 2 ^ (j + 1) < m)

/-- Rounded to the format; beyond its largest value the result is infinite. -/
def Fmt.ratTo (f : Fmt) (neg : Bool) (num den : Nat) : Num :=
  let r := roundRat f.p f.emin num den
  if f.exceeds r.1 r.2 then .inf neg else .fin neg r.1 r.2

def Fmt.round (f : Fmt) : Num → Num
  | .nan => .nan
  | .inf n => .inf n
  | .fin n m e => let r := ratOf m e; f.ratTo n r.1 r.2

/-- The largest finite value with a sign. -/
def Fmt.max (f : Fmt) (neg : Bool) : Num := .fin neg f.maxM f.maxE

/-- The value a bit pattern of the format holds (R109). -/
def Fmt.decode (f : Fmt) (v : Nat) : Num :=
  let mant := bits v 0 (f.p - 1)
  let ex := bits v (f.p - 1) f.ebits
  let neg := v.testBit (f.p - 1 + f.ebits)
  if f.noInf && ex == 2 ^ f.ebits - 1 && mant == 2 ^ (f.p - 1) - 1 then .nan
  else if !f.noInf && ex == 2 ^ f.ebits - 1 then (if mant = 0 then .inf neg else .nan)
  else if ex = 0 then .fin neg mant f.emin
  else .fin neg (mant + 2 ^ (f.p - 1)) (f.emin + (ex : Int) - 1)

/-- The bit pattern of a value that the format holds; NaN is the canonical NaN of R109. -/
def Fmt.encode (f : Fmt) : Num → Nat
  | .nan => if f.noInf then 2 ^ (f.p - 1 + f.ebits) - 1
            else (2 ^ f.ebits - 1) * 2 ^ (f.p - 1) + 2 ^ (f.p - 2)
  | .inf n => (if n then 2 ^ (f.p - 1 + f.ebits) else 0) + (2 ^ f.ebits - 1) * 2 ^ (f.p - 1)
  | .fin n m e =>
    let sg := if n then 2 ^ (f.p - 1 + f.ebits) else 0
    let r := ratOf m e
    let x := roundRat f.p f.emin r.1 r.2
    if x.1 < 2 ^ (f.p - 1) then sg + x.1
    else sg + ((x.2 - f.emin).toNat + 1) * 2 ^ (f.p - 1) + (x.1 - 2 ^ (f.p - 1))

/-! ### Exact operations and comparisons -/

def Num.neg : Num → Num
  | .nan => .nan
  | .inf n => .inf (!n)
  | .fin n m e => .fin (!n) m e

def Num.isNan : Num → Bool
  | .nan => true
  | _ => false

def Num.isInf : Num → Bool
  | .inf _ => true
  | _ => false

def Num.isFin : Num → Bool
  | .fin .. => true
  | _ => false

def Num.isZero : Num → Bool
  | .fin _ m _ => m == 0
  | _ => false

/-- A signed integer in units of `2^e`, for `e` at or below the value's exponent. -/
def scaled (neg : Bool) (m : Nat) (e base : Int) : Int :=
  let v : Int := (m * 2 ^ (e - base).toNat : Nat)
  if neg then -v else v

/-- The exact sum; an exact zero is +0 unless both terms are −0. -/
def Num.add : Num → Num → Num
  | .nan, _ => .nan
  | _, .nan => .nan
  | .inf a, .inf b => if a = b then .inf a else .nan
  | .inf a, _ => .inf a
  | _, .inf b => .inf b
  | .fin a m e, .fin b n d =>
    let base := min e d
    let v := scaled a m e base + scaled b n d base
    if v = 0 then .fin (a && b) 0 0 else .fin (decide (v < 0)) v.natAbs base

/-- The exact product. -/
def Num.mul : Num → Num → Num
  | .nan, _ => .nan
  | _, .nan => .nan
  | .inf a, .inf b => .inf (a != b)
  | .inf a, .fin b m _ => if m = 0 then .nan else .inf (a != b)
  | .fin a m _, .inf b => if m = 0 then .nan else .inf (a != b)
  | .fin a m e, .fin b n d => .fin (a != b) (m * n) (e + d)

/-- The quotient rounded once to the format. -/
def Fmt.div (f : Fmt) : Num → Num → Num
  | .nan, _ => .nan
  | _, .nan => .nan
  | .inf _, .inf _ => .nan
  | .inf a, .fin b _ _ => .inf (a != b)
  | .fin a _ _, .inf b => .fin (a != b) 0 0
  | .fin a m e, .fin b n d =>
    if n = 0 then (if m = 0 then .nan else .inf (a != b))
    else
      let x := ratOf m (e - d)
      f.ratTo (a != b) x.1 (x.2 * n)

def Fmt.add (f : Fmt) (x y : Num) : Num := f.round (x.add y)
def Fmt.mul (f : Fmt) (x y : Num) : Num := f.round (x.mul y)

/-- x < y for numbers that are not NaN; −0 equals +0. -/
def Num.lt : Num → Num → Bool
  | .nan, _ => false
  | _, .nan => false
  | .inf a, .inf b => a && !b
  | .inf a, _ => a
  | _, .inf b => !b
  | .fin a m e, .fin b n d => decide (scaled a m e (min e d) < scaled b n d (min e d))

def Num.min (x y : Num) : Num := if y.lt x then y else x
def Num.maxOf (x y : Num) : Num := if x.lt y then y else x

/-- Rounded to an integer, ties to even. -/
def Num.toInt : Num → Int
  | .fin n m e => let r := ratOf m e; let q : Int := (divRne r.1 r.2 : Nat); if n then -q else q
  | _ => 0

def Num.ofInt (v : Int) : Num := .fin (decide (v < 0)) v.natAbs 0
def Num.ofNat (v : Nat) : Num := .fin false v 0

/-- ⌊√n⌋ by bisection over `k` bits. -/
def isqrtGo (n : Nat) : Nat → Nat → Nat
  | 0, acc => acc
  | k + 1, acc =>
    let c := acc + 2 ^ k
    isqrtGo n k (if c * c ≤ n then c else acc)

def isqrt (n : Nat) : Nat := isqrtGo n (Nat.log2 n / 2 + 1) 0

/-- The square root rounded once to the format: 2·p extra bits of the integer root and a sticky bit. -/
def Fmt.sqrt (f : Fmt) : Num → Num
  | .nan => .nan
  | .inf n => if n then .nan else .inf false
  | .fin n m e =>
    if m = 0 then .fin n 0 0
    else if n then .nan
    else
      let e1 : Int := if e % 2 = 0 then e else e - 1
      let m1 := if e % 2 = 0 then m else 2 * m
      let k := 2 * f.p
      let big := m1 * 2 ^ (2 * k)
      let r := isqrt big
      let st := if r * r = big then 2 * r else 2 * r + 1
      let x := ratOf st (e1 / 2 - (k : Int) - 1)
      f.ratTo false x.1 x.2

/-! ### FP32 bit patterns -/

def f32 (v : Nat) : Num := fmtFp32.decode v
def f32Bits (x : Num) : Nat := fmtFp32.encode x

/-- A function of the environment on FP32 patterns, applied to a value. -/
def viaF32 (g : F32 → F32) (x : Num) : Num := f32 (g (BitVec.ofNat 32 (f32Bits (fmtFp32.round x)))).toNat

/-! ### Format codes (R107, R108, Table 4.1) -/

/-- Width in bits of a format code; 0 for codes that are not assigned. -/
def codeBits (c : Nat) : Nat := [1, 2, 2, 3, 4, 6, 8, 0, 4, 8, 8, 8, 16, 32].getD c 0

/-- The code of the integer weight formats, 0x0 to 0x6. -/
def isIntWeight (c : Nat) : Bool := decide (c ≤ 6)

/-- The floating format of a code. -/
def fmtOf (c : Nat) : Fmt := if c = 0xA then fmtE4m3 else if c = 0xB then fmtE5m2 else if c = 0xC then fmtBf16 else fmtFp32

def isUintCode (c : Nat) : Bool := c == 8 || c == 9
def isFloatCode (c : Nat) : Bool := c == 0xA || c == 0xB || c == 0xC || c == 0xD

/-- The integer that a stored weight code decodes to (R108). -/
def decodeInt (c code : Nat) : Int :=
  let b := codeBits c
  if c = 0 ∨ c = 2 then 2 * (code : Int) - ((2 ^ b : Nat) - 1) else signed b code

/-- A reserved code: the most negative of a two's-complement weight format. -/
def reservedCode (c code : Nat) : Bool :=
  isIntWeight c && c != 0 && c != 2 && code == 2 ^ (codeBits c - 1)

/-- The weight as it enters the multiplier (R116). -/
def decodeWeight (c code : Nat) : Num := if isIntWeight c then Num.ofInt (decodeInt c code) else (fmtOf c).decode code

/-- Element `i` of a bit stream of `b`-bit codes (R110). -/
def streamCode (bs : Bytes) (b i : Nat) : Nat :=
  getLE bs (b * i / 8) ((b + 14) / 8) / 2 ^ (b * i % 8) % 2 ^ b

/-- A stored floating element of code `c` at byte `off`. -/
def readElem (c : Nat) (bs : Bytes) (off : Nat) : Num := (fmtOf c).decode (getLE bs off (codeBits c / 8))

/-- `n` stored floating elements from byte `off`. -/
def readElems (c : Nat) (bs : Bytes) (off n : Nat) : List Num :=
  (List.range n).map (fun i => readElem c bs (off + i * (codeBits c / 8)))

/-- The bytes of floating elements in code `c`. -/
def elemBytes (c : Nat) (xs : List Num) : Bytes := (xs.map (fun x => toLE (codeBits c / 8) ((fmtOf c).encode x))).flatten

/-! ### Sums in an unspecified order (R117) -/

/-- Adds two of the partial sums, chosen freely, until one is left. -/
def sumGo (f : Fmt) (use no : Nat) : Nat → List Num → Num
  | 0, l => l.headD Num.zero
  | n + 1, l =>
    match l with
    | [] => Num.zero
    | [x] => x
    | _ =>
      let i := Config.addOrder use no (2 * n) % l.length
      let x := l.getD i Num.zero
      let l1 := l.eraseIdx i
      let j := Config.addOrder use no (2 * n + 1) % l1.length
      let y := l1.getD j Num.zero
      sumGo f use no n (f.add x y :: l1.eraseIdx j)

/-- A sum of products in the format, from an accumulator at +0. `use` and `no` name the sum. -/
def sumIn (f : Fmt) (use no : Nat) (xs : List Num) : Num := sumGo f use no xs.length (Num.zero :: xs)

def sumF32 (use no : Nat) (xs : List Num) : Num := sumIn fmtFp32 use no xs

/-- The largest integer not above a non-negative value. -/
def Num.floorNat : Num → Nat
  | .fin false m e => let r := ratOf m e; r.1 / r.2
  | _ => 0

end Sys2Proof.Machine
end

