-- ==== Sys2Proof/Machine/Flags.lean ====
section
/-! DEFINITION. Status codes (Table 2.19), detail kinds (Table 2.3) and object kinds (Table 2.4), and the bytes
in which a status block travels. -/

namespace Sys2Proof.Machine

/-! ### Status codes -/

def stOk : Nat := 0x0000
def stOkShort : Nat := 0x0001
def stNotReady : Nat := 0x0002
def stResultGone : Nat := 0x0003
def stOkRelocated : Nat := 0x0004
def stStateConflict : Nat := 0x0010
def stDeniedPort : Nat := 0x0011
def stBadParam : Nat := 0x0012
def stBadFrame : Nat := 0x0013
def stFragmentTimeout : Nat := 0x0014
def stNoResource : Nat := 0x0015
def stAbsentUnit : Nat := 0x0016
def stBraced : Nat := 0x0017
def stReadOnlyWorn : Nat := 0x0018
def stMediaUe : Nat := 0x0020
def stSramUe : Nat := 0x0021
def stDigestMismatch : Nat := 0x0022
def stNotErased : Nat := 0x0023
def stCountExhausted : Nat := 0x0024
def stRelocated : Nat := 0x0025
def stVersionInterlock : Nat := 0x0026
def stSignatureBad : Nat := 0x0027
def stQuantAlarm : Nat := 0x0028
def stLinkDown : Nat := 0x0029

/-- R8: codes 0x0000 to 0x000F report success. -/
def isSuccess (status : Nat) : Bool := decide (status < 0x10)

/-! ### Object kinds -/

def kSlot : Nat := 1
def kQp : Nat := 2
def kRegion : Nat := 3
def kNs : Nat := 4
def kHold : Nat := 5
def kIndex : Nat := 6
def kPlan : Nat := 7
def kCkpt : Nat := 8
def kHawser : Nat := 9
def kSector : Nat := 10
def kImage : Nat := 11

/-! ### Bytes of a status block -/

def Detail.kind : Detail → Nat
  | .none => 0
  | .field .. => 1
  | .progress .. => 2
  | .media .. => 3
  | .sram _ => 4
  | .objectState .. => 5
  | .counter .. => 6
  | .limit .. => 7
  | .accepted .. => 8
  | .integrity .. => 9
  | .short .. => 10
  | .component .. => 11
  | .link .. => 12
  | .resource .. => 13
  | .missing _ => 14

/-- The 24 bytes at offset 8 of the block. -/
def Detail.bytes : Detail → Bytes
  | .none => zeros 24
  | .field loc pid lo hi mn mx => toLE 4 loc ++ toLE 2 pid ++ toLE 1 lo ++ toLE 1 hi ++ toLE 8 mn ++ toLE 8 mx
  | .progress fr ph el => toLE 2 fr ++ toLE 1 ph ++ zeros 5 ++ toLE 8 el ++ zeros 8
  | .media ob ki qu lg ph => toLE 4 ob ++ toLE 1 ki ++ toLE 1 qu ++ zeros 2 ++ toLE 8 lg.toNat ++ toLE 8 ph.toNat
  | .sram w => toLE 1 w.unit ++ toLE 1 w.index ++ zeros 6 ++ toLE 8 w.address.toNat ++ zeros 8
  | .objectState ki ob st => toLE 2 ki ++ zeros 2 ++ toLE 4 ob ++ toLE 2 st ++ zeros 14
  | .counter id v th => toLE 2 id ++ zeros 6 ++ toLE 8 v ++ toLE 8 th
  | .limit pid lo hi st => toLE 2 pid ++ toLE 1 lo ++ toLE 1 hi ++ toLE 4 st ++ zeros 16
  | .accepted sl n tm => toLE 2 sl ++ zeros 6 ++ toLE 8 n ++ toLE 8 tm
  | .integrity ki ob off => toLE 2 ki ++ zeros 2 ++ toLE 4 ob ++ toLE 8 off ++ zeros 8
  | .short re rq ex => toLE 4 re ++ toLE 4 rq ++ toLE 8 ex ++ zeros 8
  | .component c im il => toLE 1 c ++ toLE 1 im ++ toLE 2 il ++ zeros 20
  | .link ki id si => toLE 1 ki ++ zeros 3 ++ toLE 4 id ++ toLE 8 si ++ zeros 8
  | .resource re av rq => toLE 2 re ++ zeros 6 ++ toLE 8 av ++ toLE 8 rq
  | .missing m => toLE 8 m.toNat ++ zeros 16

/-- The 32-byte status block of Table 2.2. -/
def StatusBlock.bytes (b : StatusBlock) : Bytes :=
  toLE 2 b.status ++ toLE 1 b.devState ++ toLE 1 b.berthState ++ toLE 2 b.detail.kind ++ zeros 2 ++ b.detail.bytes

/-- A status block as the module fills it now for a command of `berth`. -/
def blockNow (s : State) (berth status : Nat) (d : Detail) : StatusBlock :=
  { status := status, devState := s.dev.state.code, berthState := berthStateCode s berth, detail := d }

/-- A refusal: its status and its detail. -/
abbrev Refuse := Nat × Detail

/-- STATE_CONFLICT naming an object. -/
def conflict (kind obj st : Nat) : Refuse := (stStateConflict, .objectState kind obj st)

/-- NO_RESOURCE naming a resource. -/
def noResource (res avail req : Nat) : Refuse := (stNoResource, .resource res avail req)

/-- STATE_CONFLICT with detail NONE. -/
def conflictNone : Refuse := (stStateConflict, .none)

/-! ### Datagrams of a reply (R24, R27, R32) -/

/-- The header of fragment `i` of `n` (Table 2.1): FLAGS LAST and REPLY, VERSION 1, MAGIC and CRC. -/
def replyHeader (r : Reply) (paramLen i n : Nat) : Bytes :=
  let h := toLE 2 0x4D4E ++ toLE 1 1 ++ toLE 1 ((if i + 1 = n then 1 else 0) + 2 + (if r.urgent then 4 else 0))
    ++ toLE 2 r.opcode ++ toLE 1 r.berth ++ toLE 1 r.queue ++ toLE 4 r.tag.toNat ++ toLE 4 r.seq.toNat
    ++ toLE 4 paramLen ++ toLE 4 r.payload.length ++ toLE 2 i ++ toLE 2 n
  h ++ toLE 4 (crc32c h)

/-- The datagrams that carry a reply when U is `unit`. -/
def replyDatagrams (unit : Nat) (r : Reply) : List Bytes :=
  let params := r.block.bytes ++ r.fields
  let body := params ++ r.payload
  let n := max 1 (ceilDiv body.length unit)
  (List.range n).map (fun i => replyHeader r params.length i n ++ slice body (i * unit) unit)

end Sys2Proof.Machine
end

