-- ==== Sys2Proof/Machine/Operands.lean ====
section
/-! DEFINITION. The operand forms of a Nimox command: fields of its parameter block and payload with their
permitted ranges (R4, R5, Table 2.3), and data references (Table 2.23, R73). -/

namespace Sys2Proof.Machine

/-! ### Fields -/

/-- `some r` when the check fails. -/
def need (ok : Bool) (r : Refuse) : Option Refuse := if ok then none else some r

/-- The field of `n` bytes at `off` in the parameter block. -/
def par (f : Frame) (off n : Nat) : Nat := getLE f.params off n

/-- The field of `n` bytes at `off` in the payload. -/
def pay (f : Frame) (off n : Nat) : Nat := getLE f.payload off n

/-- BAD_PARAM naming `w` bits from bit `lo` of the body byte at `loc`. -/
def badField (loc lo w mn mx : Nat) : Refuse := (stBadParam, .field loc 0 lo (lo + w - 1) mn mx)

/-- BAD_PARAM naming a field of `n` whole bytes at body offset `loc`. -/
def badBytes (loc n mn mx : Nat) : Refuse := badField loc 0 (8 * n) mn mx

/-- BAD_PARAM naming a header field of `n` bytes at header offset `off` (Table 2.3). -/
def badHeader (off n mn mx : Nat) : Refuse := (stBadParam, .field (0xFFFFFF00 + off) 0 0 (8 * n - 1) mn mx)

/-- BAD_PARAM naming PAYLOAD_LEN of the header. -/
def badPayloadLen (mn mx : Nat) : Refuse := badHeader 20 4 mn mx

/-- BAD_FRAME naming a header field of `n` bytes. -/
def badFrameHeader (off n mn mx : Nat) : Refuse := (stBadFrame, .field (0xFFFFFF00 + off) 0 0 (8 * n - 1) mn mx)

/-- A parameter-block field of `n` bytes that must lie in `mn` .. `mx`. -/
def inRange (f : Frame) (off n mn mx : Nat) : Option Refuse :=
  need (decide (mn ≤ par f off n ∧ par f off n ≤ mx)) (badBytes off n mn mx)

/-- `w` bits from bit `lo` of the `n`-byte word at `off` that must lie in `mn` .. `mx`. -/
def bitsIn (f : Frame) (off n lo w mn mx : Nat) : Option Refuse :=
  let v := bits (par f off n) lo w
  need (decide (mn ≤ v ∧ v ≤ mx)) (badField (off + lo / 8) (lo % 8) w mn mx)

/-- An RSV field of `n` bytes (R5). -/
def rsv (f : Frame) (off n : Nat) : Option Refuse := inRange f off n 0 0

/-- RSV bits (R5). -/
def rsvBits (f : Frame) (off n lo w : Nat) : Option Refuse := bitsIn f off n lo w 0 0

/-- Where a body byte of the payload lies (LOCATION of Table 2.3). -/
def payLoc (f : Frame) (off : Nat) : Nat := f.params.length + off

/-- A payload field of `n` bytes that must lie in `mn` .. `mx`. -/
def payIn (f : Frame) (off n mn mx : Nat) : Option Refuse :=
  need (decide (mn ≤ pay f off n ∧ pay f off n ≤ mx)) (badBytes (payLoc f off) n mn mx)

/-- Bits of a payload field. -/
def payBitsIn (f : Frame) (off n lo w mn mx : Nat) : Option Refuse :=
  let v := bits (pay f off n) lo w
  need (decide (mn ≤ v ∧ v ≤ mx)) (badField (payLoc f (off + lo / 8)) (lo % 8) w mn mx)

/-- The first non-zero byte of `bs`, whose first byte lies at `base`. -/
def firstNonZero : Nat → Bytes → Option Nat
  | _, [] => none
  | base, b :: bs => if b = 0 then firstNonZero (base + 1) bs else some base

/-- Bytes of the parameter block beyond the `len` that the opcode defines are reserved (log entry 5). -/
def noTail (f : Frame) (len : Nat) : Option Refuse :=
  (firstNonZero len (f.params.drop len)).map (fun a => badBytes a 1 0 0)

/-- The payload must hold exactly `n` bytes. -/
def payloadIs (f : Frame) (n : Nat) : Option Refuse :=
  need (f.payload.length == n) (badPayloadLen n n)

/-! ### Data references -/

/-- A data reference (Table 2.23). -/
structure DRef where
  kind   : Nat
  qpn    : BitVec 24
  rkey   : BitVec 32
  offset : Nat
  length : Nat
  deriving DecidableEq, Repr

/-- The 32-byte data reference at `off` of a byte string. -/
def readRef (bs : Bytes) (off : Nat) : DRef :=
  { kind := getLE bs off 1
    qpn := BitVec.ofNat 24 (getLE bs (off + 1) 3)
    rkey := BitVec.ofNat 32 (getLE bs (off + 4) 4)
    offset := getLE bs (off + 8) 8
    length := getLE bs (off + 16) 8 }

/-- The region a kind-2 reference of the berth names. -/
def regionOf (s : State) (berth : Nat) (rkey : BitVec 32) : Option Region :=
  (getRegion s rkey).filter (fun r => r.berth == berth)

/-- The queue pair a kind-3 reference of the berth names. -/
def qpOf (s : State) (berth : Nat) (qpn : BitVec 24) : Option Qp :=
  (getQp s qpn).filter (fun q => q.berth == berth)

/-- The bounds check of R73: a reference of kind 1 inside the payload, of kind 2 inside the region. -/
def refBounds (loc size : Nat) (r : DRef) : Option Refuse :=
  if size < r.offset then some (badBytes (loc + 8) 8 0 size)
  else if size - r.offset < r.length then some (badBytes (loc + 16) 8 0 (size - r.offset))
  else none

/-- The refusals of step 11 for the data reference whose first byte lies at body offset `loc`, of one of the
permitted kinds (R73). `rsvd` is the value of its reserved bytes. -/
def refCheck (s : State) (f : Frame) (loc : Nat) (r : DRef) (rsvd : Nat) (kinds : List Nat) : Option Refuse :=
  firstSome
    [ need (kinds.contains r.kind) (badBytes loc 1 (kinds.foldl min 3) (maxNat kinds)),
      need (r.kind == 3 || r.qpn == 0) (badBytes (loc + 1) 3 0 0),
      need (r.kind != 3 || (qpOf s f.berth r.qpn).isSome) (badBytes (loc + 1) 3 0 0xFFFFFF),
      need (r.kind == 2 || r.kind == 3 || r.rkey == 0) (badBytes (loc + 4) 4 0 0),
      need (r.kind != 2 || (regionOf s f.berth r.rkey).isSome) (badBytes (loc + 4) 4 0 0xFFFFFFFF),
      (if r.kind = 1 then refBounds loc f.payload.length r
       else if r.kind = 2 then ((regionOf s f.berth r.rkey).map (fun g => refBounds loc g.length r)).getD none
       else none),
      need (rsvd == 0) (badBytes (loc + 24) 8 0 0) ]

/-- A reference in the parameter block at `off`. -/
def parRef (f : Frame) (off : Nat) : DRef := readRef f.params off

/-- Step 11 for a reference in the parameter block. -/
def parRefCheck (s : State) (f : Frame) (off : Nat) (kinds : List Nat) : Option Refuse :=
  refCheck s f off (parRef f off) (par f (off + 24) 8) kinds

/-- A reference in the payload at `off`. -/
def payRef (f : Frame) (off : Nat) : DRef := readRef f.payload off

def payRefCheck (s : State) (f : Frame) (off : Nat) (kinds : List Nat) : Option Refuse :=
  refCheck s f (payLoc f off) (payRef f off) (pay f (off + 24) 8) kinds

/-- The LENGTH of a reference at body offset `loc` must be `n`. -/
def refLength (loc : Nat) (r : DRef) (n : Nat) : Option Refuse :=
  need (r.length == n) (badBytes (loc + 16) 8 n n)

/-- The LENGTH of a reference at body offset `loc` must be at least `n`. -/
def refAtLeast (loc : Nat) (r : DRef) (n : Nat) : Option Refuse :=
  need (decide (n ≤ r.length)) (badBytes (loc + 16) 8 n (2 ^ 64 - 1))

/-- Step 12 for a kind-3 reference: its queue pair must be in RTS (R73). -/
def refRts (s : State) (f : Frame) (r : DRef) : Option Refuse :=
  if r.kind = 3 then
    match qpOf s f.berth r.qpn with
    | some q => need (q.state == .rts) (conflict kQp r.qpn.toNat 2)
    | none => none
  else none

/-- The regions and the queue pairs that a list of references names (R71). -/
def refRegions (rs : List DRef) : List (BitVec 32) :=
  (rs.filter (fun r => r.kind == 2)).map (fun r => r.rkey)

def refQps (rs : List DRef) : List (BitVec 24) :=
  (rs.filter (fun r => r.kind == 3)).map (fun r => r.qpn)

/-- The memory of a berth's SRAM share. -/
def shareMem (s : State) (b : Nat) : Mem :=
  ((s.rdma.sram.find? (fun x => x.1 == b)).map (fun x => x.2)).getD []

def setShareMem (b : Nat) (m : Mem) (s : State) : State :=
  let others := s.rdma.sram.filter (fun x => x.1 != b)
  { s with rdma := { s.rdma with sram := (if m.isEmpty then others else (b, m) :: others) } }

/-- The bytes a source reference of command `a` gives: nothing, a range of the payload, a range of a
region, or host data that has arrived. `i` numbers the command's references. -/
def refData (s : State) (a : Active) (i : Nat) (r : DRef) : Bytes :=
  if r.kind = 1 then slice a.frame.payload r.offset r.length
  else if r.kind = 2 then
    match regionOf s a.frame.berth r.rkey with
    | some g => memRead (shareMem s g.berth) (g.offset + r.offset) r.length
    | none => []
  else if r.kind = 3 then
    ((a.fetched.find? (fun x => x.1 == i)).map (fun x => x.2)).getD []
  else []

/-- The bytes a list reference gives at admission, where R73 reads it. -/
def refDataNow (s : State) (f : Frame) (r : DRef) : Bytes :=
  if r.kind = 1 then slice f.payload r.offset r.length
  else if r.kind = 2 then
    match regionOf s f.berth r.rkey with
    | some g => memRead (shareMem s g.berth) (g.offset + r.offset) r.length
    | none => []
  else if r.kind = 3 then f.hostList.take r.length
  else []

/-- The bytes of a list, as a command keeps them from its admission to its end (R73). -/
def keepBytes (bs : Bytes) : List Nat := bs.map BitVec.toNat

def keptBytes (l : List Nat) : Bytes := l.map (BitVec.ofNat 8)

/-! ### Requests the module sends over a queue pair (Table 2.20) -/

/-- How many packets a transfer of `n` bytes takes at the queue pair's MTU. -/
def packetsOf (mtu n : Nat) : Nat := max 1 (ceilDiv n mtu)

/-- An RDMA READ for reference `i` of command `id`. -/
def sendRdmaRead (qpn : BitVec 24) (id i : Nat) (r : DRef) (s : State) : State :=
  match getQp s qpn with
  | none => s
  | some q =>
    let req : QpRequest := { psn := q.sendPsn, isRead := true, cmd := id, ref := i, rkey := r.rkey, va := r.offset, len := r.length, data := [], imm := none }
    emit (.rdmaReadRequest q.port q.qpn q.sendPsn r.rkey r.offset r.length)
      (modQp qpn (fun q => { q with requests := q.requests ++ [req], sendPsn := q.sendPsn + BitVec.ofNat 24 (packetsOf q.mtu r.length),
                                    timerAt := (if q.requests.isEmpty then s.now else q.timerAt) }) s)

/-- An RDMA WRITE of `data` to host memory. -/
def sendRdmaWrite (qpn : BitVec 24) (rkey : BitVec 32) (va : Nat) (data : Bytes) (imm : Option (BitVec 32)) (s : State) : State :=
  match getQp s qpn with
  | none => s
  | some q =>
    let req : QpRequest := { psn := q.sendPsn, isRead := false, cmd := 0, ref := 0, rkey := rkey, va := va, len := data.length, data := data, imm := imm }
    emit (.rdmaWriteRequest q.port q.qpn q.sendPsn rkey va data imm)
      (modQp qpn (fun q => { q with requests := q.requests ++ [req], sendPsn := q.sendPsn + BitVec.ofNat 24 (packetsOf q.mtu data.length),
                                    timerAt := (if q.requests.isEmpty then s.now else q.timerAt) }) s)

/-- Poisoned words of a berth's share whose 32 bytes a write of `n` bytes at `off` covers become valid again (R372). -/
def clearPoison (b off n : Nat) (s : State) : State :=
  let keeps (w : SramWord) : Bool :=
    match Config.shareOf w with
    | some (x, o) => !(x == b && decide (off ≤ o ∧ o + 32 ≤ off + n))
    | none => true
  { s with mem := { s.mem with poisoned := s.mem.poisoned.filter keeps } }

/-- The first poisoned word that `n` bytes at `off` of a share touch. -/
def poisonIn (s : State) (b off n : Nat) : Option SramWord :=
  s.mem.poisoned.find? (fun w =>
    match Config.shareOf w with
    | some (x, o) => x == b && decide (off < o + 32 ∧ o < off + n)
    | none => false)

/-- The first poisoned word of which `n` bytes at `off` of a share cover a part only. -/
def poisonPart (s : State) (b off n : Nat) : Option SramWord :=
  s.mem.poisoned.find? (fun w =>
    match Config.shareOf w with
    | some (x, o) => x == b && decide (off < o + 32 ∧ o < off + n) && !decide (off ≤ o ∧ o + 32 ≤ off + n)
    | none => false)

/-- Puts `data` where a destination reference points: a region's bytes, or host memory by RDMA WRITE. -/
def putRef (berth : Nat) (r : DRef) (data : Bytes) (s : State) : State :=
  if r.kind = 2 then
    match regionOf s berth r.rkey with
    | some g => clearPoison g.berth (g.offset + r.offset) data.length
        (setShareMem g.berth (memWrite (shareMem s g.berth) (g.offset + r.offset) data) s)
    | none => s
  else if r.kind = 3 then sendRdmaWrite r.qpn r.rkey r.offset data none s
  else s

end Sys2Proof.Machine
end

