-- ==== Sys2Proof/Machine/Spec.lean ====
section
/-! DEFINITION. What an opcode's chapter says of it, in the form admission and execution use (Table 2.5, R42,
R47, R58). The families each define one `CmdSpec` per opcode. -/

namespace Sys2Proof.Machine

/-- What an accepted command holds from acceptance to completion: a range lock, objects in use, regions and
queue pairs its data references name, host data to fetch (reference number and reference), SRAM beside its
result memory, and numbers it captured at acceptance. `sources` are the references that the work reads. -/
structure Uses where
  lock     : Option RangeLock := none
  objs     : List (Nat × Nat) := []
  refs     : List DRef := []
  sources  : List DRef := []
  fetch    : List (Nat × DRef) := []
  reserved : Nat := 0
  snap     : List Nat := []
  pin      : Nat := 0

/-- The rules of one opcode. Functions that check take the state before acceptance and the command's frame;
functions that act take the accepted command. `device` is R17's list, `depth` the highest-numbered power
state in which every unit the work needs is on (R58). `wait` is the PHASE of the command's own waits, 3 when
nothing holds it back, `arrived` what happens when the host data it fetched has all arrived, `done` whether
its work can go on now, `step` one commit of work that makes several, none when none is left before its end, `after` what follows its reply. `memberParams` and `memberCheck` are for work under R334 that this module does as a member: the length
of the parameter block in a WORK message and the member's own checks. -/
structure CmdSpec where
  opcode  : Nat
  cls     : Nat
  result  : Bool := false
  ctrl    : Bool := false
  frameOk : State → Frame → Option Refuse := fun _ _ => none
  device  : State → Frame → Bool := fun s _ => s.dev.state == .ready || s.dev.state == .braced
  freeOk  : State → Frame → Bool := fun _ _ => false
  units   : State → Frame → Nat := fun _ _ => 0
  brace   : State → Frame → Bool := fun _ _ => false
  check   : State → Frame → Option Refuse := fun _ _ => none
  objects : State → Frame → Option Refuse := fun _ _ => none
  needs   : State → Frame → Option Refuse := fun _ _ => none
  size    : State → Frame → Nat := fun _ _ => 0
  uses    : State → Frame → Uses := fun _ _ => {}
  take    : State → Active → State := fun s _ => s
  wait    : State → Active → Nat := fun _ _ => 3
  depth   : State → Frame → Nat := fun _ _ => 3
  slow    : State → Active → Bool := fun _ _ => false
  start   : State → Active → State := fun s _ => s
  arrived : State → Active → State := fun s _ => s
  done    : State → Active → Bool := fun _ _ => true
  step    : State → Active → Option State := fun _ _ => none
  work    : State → Active → State × WorkOut := fun s _ => (s, { status := 0, detail := .none })
  fail    : State → Active → WorkError → State := fun s _ _ => s
  after   : State → Active → State := fun s _ => s
  memberParams : Nat := 0
  memberCheck : State → Frame → Option Refuse := fun _ _ => none

/-- A work's outcome with status OK. -/
def okOut (fields payload : Bytes) : WorkOut :=
  { status := stOk, detail := .none, fields := fields, payload := payload }

/-- A work's outcome with a refusal's status and detail. -/
def failOut (r : Refuse) : WorkOut := { status := r.1, detail := r.2 }

/-- R390: commands that would change the logbook while it is READ_ONLY. -/
def logExhausted : Refuse := noResource 0x0A00 0 1
def logOk (s : State) : Option Refuse := need (!s.logbook.readOnly) logExhausted

/-! ### A berth's shares (R296, R297) -/

def shareBits (s : State) (b lo n : Nat) : Nat := bits (getBerth s b).regs.shares.toNat lo n

/-- The SRAM share of a berth in bytes. -/
def sramShare (s : State) (b : Nat) : Nat := shareBits s b 0 16 * 2 ^ 24

def actUnits (s : State) (b : Nat) : Nat := shareBits s b 16 8
def scanUnits (s : State) (b : Nat) : Nat := shareBits s b 24 7

/-- R299: a single probe's or row's `n` bytes of table region must fit the berth's scan units. -/
def scanFits (s : State) (b n : Nat) : Option Refuse :=
  let m := scanUnits s b * 262144
  need (decide (0 < m ∧ n ≤ m)) (noResource 0x0702 m n)

def qpQuota (s : State) (b : Nat) : Nat := shareBits s b 32 13
def turnWeight (s : State) (b : Nat) : Nat := shareBits s b 48 5
def capGib (s : State) (b : Nat) : Nat := shareBits s b 64 32

/-- The SRAM a plan holds while it is BINDING or BOUND. -/
def planSram (p : Plan) : Nat := if p.state = .loaded then 0 else p.size

/-- SRAM of the berth that the module itself holds: result memory, running work, plans, indexes and vault
staging, in which a replication window lies (R47, R297, R284). -/
def sramReserved (s : State) (b : Nat) : Nat :=
  sumNat ((s.cmds.slots.filter (fun x => x.berth == b)).map (fun x => x.reserved))
    + sumNat ((s.cmds.active.filter (fun a => a.frame.berth == b)).map (fun a => a.reserved))
    + sumNat ((s.plans.filter (fun p => p.berth == b)).map planSram)
    + sumNat ((s.indexes.filter (fun x => x.berth == b)).map (fun x => x.sram))
    + sumNat ((s.vaults.filter (fun v => v.berth == b)).map (fun v => v.staging))

/-- The free SRAM share of R47. -/
def sramFree (s : State) (b : Nat) : Nat := sramShare s b - sramReserved s b

/-- The end of the highest range the berth's own regions cover. -/
def regionEnd (s : State) (b : Nat) : Nat :=
  maxNat ((s.rdma.regions.filter (fun r => r.berth == b && r.owner == .plain)).map (fun r => r.offset + r.length))

/-- Present use of the SRAM share in bytes (R297, log entry 9). -/
def sramUse (s : State) (b : Nat) : Nat := max (regionEnd s b) (sramReserved s b)

end Sys2Proof.Machine
end

