-- ==== Sys2Proof/Machine/Link.lean ====
section
/-! DEFINITION. The hawser link: frames (Table 12.2), link retry and credits (R323, R324, R332), routes (R330, R331), flows
and messages between modules (R325, R334, Table 12.3). -/

namespace Sys2Proof.Machine

/-! ### This module in its fleet (Table 12.11) -/

def moduleNo (s : State) : Nat := bits s.regs.hawserConfig.toNat 0 12
def topologyOf (s : State) : Nat := bits s.regs.hawserConfig.toNat 12 2
def portEn (s : State) : Nat := bits s.regs.hawserConfig.toNat 14 6
def laneReserve (s : State) : Nat := bits s.regs.hawserConfig.toNat 20 8
def fleetId (s : State) : Nat := bits s.regs.hawserConfig.toNat 32 32
def htopo (s : State) : Nat := bits s.dev.units.toNat 14 2

/-- The hawser port is in service. -/
def hawserInService (s : State) (p : Nat) : Bool := decide (p < 6) && unitBit s (8 + p)

/-- The port carries traffic. -/
def hawserUp (s : State) (p : Nat) : Bool :=
  let st := (hawserPort s p).state
  st == .up || st == .narrow

def HawserState.code : HawserState → Nat
  | .absent => 0 | .training => 1 | .up => 2 | .narrow => 3 | .down => 4 | .miswired => 5 | .conflict => 6 | .foreign => 7

/-- The ports to a module: those that carry traffic, or else those that retrain and make it wait (Table 12.10). -/
def portsTo (s : State) (m : Nat) : List Nat :=
  let l := (List.range 6).filter (fun p => (hawserPort s p).linked && (hawserPort s p).peerModule == m)
  let u := l.filter (hawserUp s)
  if u.isEmpty then l else u

/-! ### Frames -/

structure HFrame where
  typ     : Nat
  vl      : Nat
  seqNo   : Nat := 0
  ack     : Nat := 0
  crVl    : Nat := 0
  crCount : Nat := 0
  dest    : Nat := 0
  src     : Nat := 0
  hops    : Nat := 0
  flow    : Nat := 0
  frameNo : Nat := 0
  last    : Bool := false
  nak     : Bool := false
  shared  : Bool := false
  payload : Bytes := []
  deriving DecidableEq, Repr

/-- The 1,024 bytes of a frame. -/
def HFrame.bytes (f : HFrame) : Bytes :=
  let h := toLE 1 f.typ ++ toLE 1 f.vl ++ toLE 2 f.payload.length ++ toLE 2 f.seqNo ++ toLE 2 f.ack ++ toLE 1 f.crVl ++ toLE 1 f.crCount
    ++ toLE 2 f.dest ++ toLE 2 f.src ++ toLE 2 f.hops ++ toLE 4 f.flow ++ toLE 4 f.frameNo
    ++ toLE 1 (f.last.toNat + 2 * f.nak.toNat + 4 * f.shared.toNat) ++ zeros 3 ++ padTo 992 f.payload
  h ++ toLE 4 (crc32c h)

def readFrame (b : Bytes) : HFrame :=
  let fl := getLE b 24 1
  { typ := getLE b 0 1, vl := getLE b 1 1, seqNo := getLE b 4 2, ack := getLE b 6 2, crVl := getLE b 8 1, crCount := getLE b 9 1, dest := getLE b 10 2,
    src := getLE b 12 2, hops := getLE b 14 2, flow := getLE b 16 4, frameNo := getLE b 20 4, last := fl.testBit 0, nak := fl.testBit 1,
    shared := fl.testBit 2, payload := slice b 28 (min 992 (getLE b 2 2)) }

/-- The CRC of a received frame verifies. -/
def frameCrcOk (b : Bytes) : Bool := b.length == 1024 && getLE b 1020 4 == crc32c (b.take 1020)

/-- R323: the CRC verifies but a field breaks Table 12.2. -/
def frameBad (b : Bytes) : Bool :=
  let f := readFrame b
  decide (3 < f.typ) || decide (992 < getLE b 2 2) || !(decide (f.vl ≤ 15) || f.vl == 31)
    || decide (31 < f.crVl) || decide (8 ≤ getLE b 24 1) || getLE b 25 3 != 0

/-! ### Credits (R332) -/

def creditsOf (s : State) (p : Nat) : Credits := s.hawser.credits.getD p {}

def modCredits (p : Nat) (g : Credits → Credits) (s : State) : State :=
  { s with hawser := { s.hawser with credits := s.hawser.credits.modify p g } }

def reservedOf (c : Credits) (lane : Nat) : Nat := ((c.reserved.find? (fun x => x.1 == lane)).map (fun x => x.2)).getD 0

def setReserved (lane n : Nat) (c : Credits) : Credits :=
  { c with reserved := (lane, n) :: c.reserved.filter (fun x => x.1 != lane) }

/-- A credit for a frame of the lane: a reserved one, else a shared one while the lane holds less than half of the pool;
the Bool says shared. -/
def takeCredit (lane : Nat) (c : Credits) : Option (Bool × Credits) :=
  if 0 < reservedOf c lane then some (false, setReserved lane (reservedOf c lane - 1) c)
  else
    let held := (c.heldBy.filter (fun x => x == lane)).length
    if 0 < c.shared ∧ 2 * (held + 1) ≤ c.shared + c.heldBy.length then
      some (true, { c with shared := c.shared - 1, heldBy := c.heldBy ++ [lane] })
    else none

/-- Credits that come back in CR_VL and CR_COUNT. -/
def returnCredits (lane n : Nat) (c : Credits) : Credits :=
  if lane = 30 then { c with shared := c.shared + n, heldBy := c.heldBy.drop n }
  else setReserved lane (reservedOf c lane + n) c

/-! ### Sending on a port (R323, R324) -/

/-- An IDLE frame with the port's ACK, a NAK if asked, and credits. -/
def sendIdle (p : Nat) (nak : Bool) (crVl crCount : Nat) (s : State) : State :=
  let hp := hawserPort s p
  emit (.hawser p (HFrame.bytes { typ := 0, vl := 31, ack := (hp.rxNext - 1).toNat, crVl := crVl, crCount := crCount, nak := nak })) s

/-- Sends the frames that wait at a port while it is up, the replay buffer has room and a credit is at hand. A transit
frame that goes on returns the credit of the buffer it leaves (R333). -/
def pumpGo (p : Nat) : Nat → State → State
  | 0, s => s
  | n + 1, s =>
    let hp := hawserPort s p
    match hp.txq with
    | [] => s
    | x :: rest =>
      if !hawserUp s p || decide (2048 ≤ hp.replay.length) then s
      else
        let f := readFrame x.2
        match takeCredit f.vl (creditsOf s p) with
        | none => s
        | some (sh, c) =>
          let out := HFrame.bytes { f with seqNo := hp.txSeq.toNat, ack := (hp.rxNext - 1).toNat, shared := sh, crVl := 31, crCount := 0 }
          let s1 := modHawserPort p (fun h =>
            { h with txq := rest, replay := h.replay ++ [(h.txSeq, out)], txSeq := h.txSeq + 1, ackAt := (if h.replay.isEmpty then s.now else h.ackAt) }) s
          let s2 := emit (.hawser p out) (modCredits p (fun _ => c) s1)
          let s3 := match x.1 with
            | some (inPort, lane) => if hawserUp s2 inPort then sendIdle inPort false lane 1 s2 else s2
            | none => s2
          pumpGo p n s3

def pump (p : Nat) (s : State) : State := pumpGo p (hawserPort s p).txq.length s

/-- Queues a frame on a port, for a transit frame with the port and lane it came by; ANNOUNCE frames go ahead of every
other. -/
def sendFrom (src : Option (Nat × Nat)) (p : Nat) (f : HFrame) (s : State) : State :=
  pump p (modHawserPort p (fun h => { h with txq := if f.typ = 3 then (src, f.bytes) :: h.txq else h.txq ++ [(src, f.bytes)] }) s)

def sendOn (p : Nat) (f : HFrame) (s : State) : State := sendFrom none p f s

/-! ### Routes (R330, R331) -/

/-- The neighbours of a module as this module knows them. -/
def neighboursOf (s : State) (m : Nat) : List Nat :=
  if m = moduleNo s then ((List.range 6).filter (fun p => (hawserPort s p).linked)).map (fun p => (hawserPort s p).peerModule)
  else ((s.hawser.fleet.find? (fun x => x.module == m)).map (fun x => x.neighbours.map (fun n => n.1))).getD []

/-- The modules that links join to those of `l`, in `n` more hops. -/
def reachGo (s : State) : Nat → List Nat → List Nat
  | 0, l => l
  | n + 1, l => reachGo s n (l ++ l.flatMap (neighboursOf s)).eraseDups

/-- Every module known, this one among them, in ascending order: those that links known here join to it. -/
def fleetModules (s : State) : List Nat :=
  sortBy (fun a b => decide (a ≤ b)) (reachGo s (s.hawser.fleet.length + 1) [moduleNo s])

/-- A path from `a` to `d` that visits no module twice (the first in neighbour order), by depth `n`. -/
def pathGo (s : State) (d : Nat) : Nat → List Nat → Nat → Option (List Nat)
  | 0, _, _ => none
  | n + 1, seen, a =>
    if a = d then some [a]
    else ((neighboursOf s a).eraseDups.filter (fun x => !seen.contains x)).findSome? (fun x =>
      (pathGo s d n (a :: seen) x).map (fun l => a :: l))

/-- The modules met when going from index `i` by `k` steps up or down the ordered ring. -/
def ringWalk (l : List Nat) (i k : Nat) (up : Bool) : List Nat :=
  (List.range (k + 1)).map (fun j => l.getD (if up then (i + j) % l.length else (i + (l.length - 1) * j) % l.length) 0)

/-- A walk is a route: every hop is a link, and the closing link is used at most as the last hop. -/
def ringOk (s : State) (l w : List Nat) : Bool :=
  let hops := List.zip w (w.drop 1)
  let closing (h : Nat × Nat) : Bool := (h.1 == l.headD 0 && h.2 == l.getLastD 0 && decide (2 < l.length)) || (h.2 == l.headD 0 && h.1 == l.getLastD 0 && decide (2 < l.length))
  hops.all (fun h => (neighboursOf s h.1).contains h.2) && !(hops.dropLast.any closing)

/-- The route from this module to another, as the modules it visits. -/
def routeTo (s : State) (d : Nat) : Option (List Nat) :=
  let l := fleetModules s
  if topologyOf s = 2 then
    match l.idxOf? (moduleNo s), l.idxOf? d with
    | some i, some j =>
      let ku := (j + l.length - i) % l.length
      let kd := (i + l.length - j) % l.length
      let u := ringWalk l i ku true
      let w := ringWalk l i kd false
      let uOk := ringOk s l u
      let wOk := ringOk s l w
      if uOk ∧ (ku ≤ kd ∨ !wOk) then some u else if wOk then some w else none
    | _, _ => none
  else pathGo s d (l.length + 1) [] (moduleNo s)

/-- The ports on which frames to a module leave, and the hops to it. -/
def routePorts (s : State) (d : Nat) : List Nat :=
  match routeTo s d with
  | some (_ :: n :: _) => portsTo s n
  | _ => []

def routeHops (s : State) (d : Nat) : Nat := ((routeTo s d).map (fun l => l.length - 1)).getD 0

/-- Sends a frame toward its DEST, striped frame by frame; without a route it is discarded and counted on the port it
came by (port 0 for the module's own frames). -/
def sendRoutedFrom (src : Option (Nat × Nat)) (inPort i : Nat) (f : HFrame) (s : State) : State :=
  let ps := routePorts s f.dest
  match ps[i % ps.length]? with
  | some p => sendFrom src p f s
  | none =>
    let s1 := modHawserPort inPort (fun h => { h with noRoute := satAdd 8 h.noRoute 1 }) s
    match src with
    | some (q, lane) => if hawserUp s1 q then sendIdle q false lane 1 s1 else s1
    | none => s1

def sendRouted (inPort i : Nat) (f : HFrame) (s : State) : State := sendRoutedFrom none inPort i f s

/-! ### Control messages (Table 12.3) -/

/-- Cuts a message into the payloads of consecutive frames. -/
def chunks992 : Nat → Bytes → List Bytes
  | 0, b => [b]
  | n + 1, b => if b.length ≤ 992 then [b] else b.take 992 :: chunks992 n (b.drop 992)

def messageFrames (s : State) (dest flow : Nat) (msg : Bytes) : List HFrame :=
  let l := chunks992 msg.length msg
  l.zipIdx.map (fun x => { typ := 2, vl := 31, dest := dest, src := moduleNo s, flow := flow, frameNo := x.2, last := x.2 + 1 == l.length, payload := x.1 })

/-- Sends a control message to a module. A spanning message keeps to one port, so that its frames stay consecutive. -/
def sendMessage (dest flow : Nat) (msg : Bytes) (s : State) : State :=
  (messageFrames s dest flow msg).foldl (fun st f => sendRouted 0 0 f st) s

/-- TOPO of this module: 6 neighbour records and the version. A port that retrains keeps its record (log entry 77). -/
def topoMessage (s : State) : Bytes :=
  toLE 2 2 ++ toLE 2 (moduleNo s)
    ++ ((List.range 6).flatMap (fun p =>
        if (hawserPort s p).linked then toLE 2 (hawserPort s p).peerModule ++ toLE 1 (hawserPort s p).peerPort else toLE 2 0xFFFF ++ toLE 1 0xFF))
    ++ toLE 2 s.hawser.topoVer.toNat

/-- Sends a message to the neighbour on one port. -/
def sendNeighbour (p : Nat) (typ : Nat) (msg : Bytes) (s : State) : State :=
  sendOn p { typ := typ, vl := 31, dest := (hawserPort s p).peerModule, src := moduleNo s, last := true, payload := msg } s

/-- Floods a message of `typ` on every UP port but `skip`. -/
def floodOn (skip typ : Nat) (msg : Bytes) (s : State) : State :=
  ((List.range 6).filter (fun p => hawserUp s p && p != skip)).foldl (fun st p => sendNeighbour p typ msg st) s

/-- A port came UP or left UP: the version rises and TOPO floods (R331). -/
def floodTopo (s : State) : State :=
  let s1 := { s with hawser := { s.hawser with topoVer := s.hawser.topoVer + 1 } }
  floodOn 6 2 (topoMessage s1) s1

/-! ### Flows (R325) -/

/-- Opens a flow to a module: its DATA frames follow the FLOW_ACK. -/
def openFlow (cmd dest berth offset : Nat) (data : Bytes) (s : State) : State :=
  let fl := s.hawser.nextFlow
  let tx : TxFlow := { flow := fl, dest := dest, berth := berth, data := data, cmd := cmd }
  let s1 := { s with hawser := { s.hawser with nextFlow := fl + 1, txFlows := s.hawser.txFlows ++ [tx] } }
  sendMessage dest fl.toNat (toLE 2 3 ++ toLE 4 fl.toNat ++ toLE 1 berth ++ zeros 3 ++ toLE 8 offset ++ toLE 8 data.length) s1

/-- The DATA frames of a flow, striped over the ports of the route frame by frame. -/
def sendFlowData (t : TxFlow) (s : State) : State :=
  let l := if t.data.isEmpty then [] else chunks992 t.data.length t.data
  l.zipIdx.foldl (fun st x =>
    sendRouted 0 x.2 { typ := 1, vl := t.berth, dest := t.dest, src := moduleNo s, flow := t.flow.toNat, frameNo := x.2,
                       last := x.2 + 1 == l.length, payload := x.1 } st) s

/-! ### Work that spans modules (R334) -/

def getWork (s : State) (cmd : Nat) : Option FleetWork := s.hawser.works.find? (fun w => w.cmd == cmd)

def modWork (cmd : Nat) (g : FleetWork → FleetWork) (s : State) : State :=
  { s with hawser := { s.hawser with works := s.hawser.works.map (fun w => if w.cmd == cmd then g w else w) } }

/-- The work is over here: its exchange and its open receiving flows end; flows it sends run on. -/
def dropWork (cmd : Nat) (s : State) : State :=
  { s with hawser := { s.hawser with
      works := s.hawser.works.filter (fun w => w.cmd != cmd),
      flows := s.hawser.flows.filter (fun f => f.work != some cmd) } }

/-- WORK to one member (log entry 60: FLOW carries the berth, which Table 12.3 does not place). -/
def sendWork (dest op berth tag : Nat) (params part : Bytes) (s : State) : State :=
  sendMessage dest berth (toLE 2 5 ++ toLE 2 op ++ toLE 4 tag ++ params ++ part) s

/-- RESULT to the origin, or from it to a member whose work it ends (log entries 60 and 72). -/
def sendResult (dest berth tag : Nat) (block : StatusBlock) (counters : Bytes) (s : State) : State :=
  sendMessage dest berth (toLE 2 6 ++ toLE 4 tag ++ block.bytes ++ counters) s

/-- Receive space of work that uses `n` ports at this module (R333). -/
def receiveSpace (n : Nat) : Nat := n * 4194304

/-- Sends the present step's bytes of a work, if its sends have not gone out. -/
def workSend (cmd berth : Nat) (s : State) : State :=
  match getWork s cmd with
  | none => s
  | some w =>
    match w.steps with
    | [] => s
    | st :: _ =>
      if w.sent then s
      else
        let s1 := modWork cmd (fun w => { w with sent := true }) s
        st.sends.foldl (fun x snd => openFlow cmd snd.1 berth snd.2.1 (memRead w.buf snd.2.1 snd.2.2) x) s1

/-- Every byte of the flow has arrived. -/
def flowComplete (f : Flow) : Bool := f.frames.length == ceilDiv f.bytes 992

/-- A flow brings the bytes that `r` names to the work: it was opened for it, or before its WORK message came. -/
def flowFor (cmd berth : Nat) (r : Nat × Nat × Nat) (f : Flow) : Bool :=
  (f.work == some cmd || (f.work.isNone && f.berth == berth)) && r == (f.src, f.offset, f.bytes)

/-- A completed flow that the present step awaits, with what it fulfils: the oldest of those that bring the same bytes. -/
def flowReady (s : State) (cmd berth : Nat) (st : FleetStep) : Option (Flow × (Nat × Nat × Nat)) :=
  st.recvs.findSome? (fun r => (s.hawser.flows.find? (flowFor cmd berth r)).bind (fun f => if flowComplete f then some (f, r) else none))

/-- FP32 elements of two byte strings added pair by pair (R335). -/
def addF32 : Bytes → Bytes → Bytes
  | a0 :: a1 :: a2 :: a3 :: as, b0 :: b1 :: b2 :: b3 :: bs =>
    toLE 4 (f32Bits (fmtFp32.add (f32 (ofLE [a0, a1, a2, a3])) (f32 (ofLE [b0, b1, b2, b3])))) ++ addF32 as bs
  | as, _ => as

/-- Puts the bytes of a completed flow into the work's buffer: added to the partial sums, or in their place. -/
def flowTake (cmd : Nat) (add : Bool) (f : Flow) (r : Nat × Nat × Nat) (s : State) : State :=
  let got := memRead f.data 0 f.bytes
  let s1 := { s with hawser := { s.hawser with flows := s.hawser.flows.erase f } }
  modWork cmd (fun w =>
    let new := if add then addF32 (memRead w.buf f.offset f.bytes) got else got
    { w with buf := memWrite w.buf f.offset new,
             steps := match w.steps with
               | st :: rest => { st with recvs := st.recvs.erase r } :: rest
               | [] => [] }) s1

/-- Takes what has arrived for the present step; a step whose bytes have all arrived is over, and the next step's sends go
out. Bounded by the number of steps and of receives. -/
def workAdvance (cmd berth : Nat) : Nat → State → State
  | 0, s => s
  | n + 1, s =>
    match getWork s cmd with
    | none => s
    | some w =>
      match w.steps with
      | [] => s
      | st :: rest =>
        if st.recvs.isEmpty then workAdvance cmd berth n (workSend cmd berth (modWork cmd (fun w => { w with steps := rest, sent := false }) s))
        else
          match flowReady s cmd berth st with
          | some (f, r) => workAdvance cmd berth n (flowTake cmd st.add f r s)
          | none => s

/-- How often `workAdvance` can go on. -/
def workFuel (s : State) (cmd : Nat) : Nat :=
  ((getWork s cmd).map (fun w => w.steps.length + sumNat (w.steps.map (fun st => st.recvs.length)) + 1)).getD 0

/-- A work's exchange begins or goes on. -/
def workBegin (cmd berth : Nat) (s : State) : State := workAdvance cmd berth (workFuel s cmd) (workSend cmd berth s)

end Sys2Proof.Machine
end

