-- ==== Sys2Proof/Machine/Deliver.lean ====
section
/-! DEFINITION. Replies, notices, the reply cache, result slots, and how a command completes (R32, R33, R37,
R47, R49, R53). -/

namespace Sys2Proof.Machine

/-- The port answers: its link is up, the module is not in POWERED (R17), and no flush or shutdown after a power-fail
assertion runs (R358, R360). -/
def portUp (s : State) (p : Nat) : Bool := (hostPort s p).linkUp && s.dev.state != .powered && s.pf.flushAt.isNone

/-- The statistics that count replies by status (Table 2.16). -/
def countReply (port status : Nat) (s : State) : State :=
  modPortStats port (fun p =>
    if status = stBadFrame then { p with badFrame := satAdd 32 p.badFrame 1 }
    else if status = stFragmentTimeout then { p with fragTimeout := satAdd 32 p.fragTimeout 1 }
    else if status = stDeniedPort then { p with denied := satAdd 32 p.denied 1 }
    else p) s

/-- Sends a reply through the port on which the command's completing fragment arrived, whatever the state
of its link: with the link down the reply is lost (R32). -/
def sendReply (port : Nat) (ip : Addr) (udp : Nat) (r : Reply) (s : State) : State :=
  let s1 := countReply port r.block.status s
  if portUp s port then emit (.reply port ip udp (fragUnit s) r) s1 else s1

/-- The reply of a command: header fields echoed, the block of this instant (R32, R33). -/
def replyOf (s : State) (op : Nat) (f : Frame) (status : Nat) (d : Detail) (fields payload : Bytes) : Reply :=
  { opcode := op, berth := f.berth, queue := f.queue, tag := f.tag, seq := f.seq, urgent := false,
    block := blockNow s f.berth status d, fields := fields, payload := payload }

/-- Sequence numbers s with E − 256 ≤ s ≤ E − 1. -/
def inCache (e : BitVec 32) (x : BitVec 32) : Bool := decide (1 ≤ (e - x).toNat ∧ (e - x).toNat ≤ 256)

/-- Enters what a sequence number produced into the queue's reply cache, which keeps the last 256 (R37). -/
def cachePut (b q : Nat) (x : BitVec 32) (c : Cached) (s : State) : State :=
  let qu := getQueue s b q
  let kept := qu.cache.filter (fun y => y.1 != x && inCache qu.expected y.1)
  setQueue { qu with cache := (if inCache qu.expected x then (x, c) :: kept else kept) } s

/-- Replies to a command and, where its number was consumed, caches the reply. -/
def answer (op : Nat) (f : Frame) (consumed : Bool) (status : Nat) (d : Detail) (fields payload : Bytes) (s : State) : State :=
  let r := replyOf s op f status d fields payload
  let s1 := sendReply f.port f.srcIp f.srcUdp r s
  if consumed then cachePut f.berth f.queue f.seq (.reply r) s1 else s1

/-- Sends a notice through a port: REPLY set, QUEUE 0xFF, TAG 0, SEQUENCE the port's notice count, which
includes this notice (R53). A port whose link is down sends none. -/
def sendNotice (port : Nat) (ip : Addr) (udp op berth : Nat) (urgent : Bool) (block : StatusBlock) (fields payload : Bytes) (s : State) : State :=
  if portUp s port then
    let n := (hostPort s port).noticeCount + 1
    let r : Reply := { opcode := op, berth := berth, queue := 0xFF, tag := 0, seq := n, urgent := urgent, block := block, fields := fields, payload := payload }
    emit (.notice port ip udp r) (modPort port (fun p => { p with noticeCount := n }) s)
  else s

/-! ### Result slots -/

/-- Slots that count against the limit: the berth's 4,096, or the pilot's 64 in DRY_DOCK (R47, R430). -/
def slotsOf (s : State) (b : Nat) : List Slot :=
  if s.dev.state = .dryDock then s.cmds.slots else s.cmds.slots.filter (fun x => x.berth == b)

def slotLimit (s : State) : Nat := if s.dev.state = .dryDock then 64 else 4096

/-- The lowest index that is FREE among `used` (fuel: one more than the number used). -/
def lowestFree (used : List Nat) : Nat → Nat → Nat
  | 0, i => i
  | n + 1, i => if used.contains i then lowestFree used n (i + 1) else i

def freeSlotIndex (s : State) (b : Nat) : Nat :=
  let used := (slotsOf s b).map (fun x => x.index)
  lowestFree used used.length 0

def dropSlot (b : Nat) (tag : BitVec 32) (s : State) : State :=
  let kept := s.cmds.slots.filter (fun x => !(x.berth == b && x.tag == tag))
  { s with cmds := { s.cmds with slots := kept } }

def modSlot (b : Nat) (tag : BitVec 32) (g : Slot → Slot) (s : State) : State :=
  { s with cmds := { s.cmds with
      slots := s.cmds.slots.map (fun x => if x.berth == b && x.tag == tag then g x else x) } }

/-- RESULT_READY (0x0180) to the source of the most recent command accepted on the queue (R53). -/
def resultReady (b q : Nat) (tag : BitVec 32) (block : StatusBlock) (total : Nat) (s : State) : State :=
  let qu := getQueue s b q
  if qu.notify then
    match qu.dest with
    | some (port, ip, udp) =>
      sendNotice port ip udp 0x0180 b false block (toLE 4 tag.toNat ++ toLE 1 q ++ zeros 3 ++ toLE 8 total) [] s
    | none => s
  else s

/-- Stores the outcome of a result-producing command: PENDING to READY with the unused reservation
returned and a notice, DISCARD to FREE (R47, R49, R53). -/
def storeResult (a : Active) (o : WorkOut) (s : State) : State :=
  match getSlot s a.frame.berth a.frame.tag with
  | none => s
  | some sl =>
    match sl.state with
    | .pending =>
      let block := blockNow s a.frame.berth o.status o.detail
      let outcome := block.bytes ++ o.payload
      let s1 := modSlot a.frame.berth a.frame.tag (fun x => { x with state := .ready, outcome := outcome, reserved := outcome.length }) s
      resultReady a.frame.berth a.frame.queue a.frame.tag block outcome.length s1
    | .ready => s
    | .discard => dropSlot a.frame.berth a.frame.tag s

/-- The time in which the command's work waited for an engine's grant, or was held back by a ceiling of its berth: how long
the spec does not fix (free values, log entry 87). -/
def countWaits (a : Active) (s : State) : State :=
  let free (k : Nat) : Nat := (Config.freeWord s.fresh k).toNat
  useFresh (modBerth a.frame.berth (fun x => { x with use := { x.use with
    grantWait := satAdd 64 x.use.grantWait (free 0)
    mediaLimited := satAdd 32 x.use.mediaLimited (free 1)
    linkLimited := satAdd 32 x.use.linkLimited (free 2)
    sramLimited := satAdd 32 x.use.sramLimited (free 3)
    hostLimited := satAdd 32 x.use.hostLimited (free 4)
    hawserLimited := satAdd 32 x.use.hawserLimited (free 5) } }) s)

/-- The end of a command's work restarts the idle timers of the units it used (R59). -/
def unitsReleased (a : Active) (s : State) : State :=
  if a.phase = 3 then
    let s1 := { s with power := { s.power with
        lastP0 := (if a.depth = 0 then s.now else s.power.lastP0)
        lastNand := (if a.depth ≤ 1 then s.now else s.power.lastNand)
        lastSram := (if a.depth ≤ 2 then s.now else s.power.lastSram) } }
    if a.depth < 3 then countWaits a s1 else s1
  else s

/-- A MEDIA_UE completion counts in UE_COUNT and sets EVENTS [482] (Table 3.15). -/
def countUe (status : Nat) (s : State) : State :=
  if status = stMediaUe then
    { s with lb := { s.lb with ueCount := satAdd 32 s.lb.ueCount 1 }, eng := { s.eng with mediaEvents := s.eng.mediaEvents ||| 4 } }
  else s

/-- Step 3 of Table 17.5: when no accepted command remains, OPEN vault captures are cancelled, their space freed at the
next mount, and HOLD_S begins to run. -/
def drainIdle (s : State) : State :=
  match s.dev.drain with
  | some d =>
    if d.stage = .running ∧ s.cmds.active.isEmpty then
      let cancel (c : Ckpt) : Ckpt := if c.state = .openC then { c with state := .retired, kept := false, pinned := false, deferred := true } else c
      let intake (r : Region) : Bool := match r.owner with
        | .intake _ => true
        | _ => false
      { s with
        dev := { s.dev with drain := some { d with stage := .holding, since := s.now } }
        vaults := s.vaults.map (fun v => { v with ckpts := v.ckpts.map cancel })
        rdma := { s.rdma with regions := s.rdma.regions.filter (fun r => !intake r) } }
    else s
  | none => s

/-- Completes an accepted command: frees what it holds, then replies or stores its outcome. A member's work under R334
sends its RESULT to the origin. -/
def complete (a : Active) (o : WorkOut) (s : State) : State :=
  let s1 := countUe o.status (unitsReleased a (dropWork a.id (dropActive a.id s)))
  drainIdle (match a.origin with
    | some (src, tag) => sendResult src a.frame.berth tag (blockNow s1 a.frame.berth o.status o.detail) o.payload s1
    | none =>
      if a.result then storeResult a o s1
      else answer a.opcode a.frame a.sequenced o.status o.detail o.fields o.payload s1)

/-! ### Errors that stop work -/

/-- Status and detail of a physical error (R77, R371, R339). -/
def workErrorOut (s : State) : WorkError → WorkOut
  | .media k o q l p => { status := stMediaUe, detail := .media o k q l p }
  | .sram w => { status := stSramUe, detail := .sram w }
  | .link k n => { status := stLinkDown, detail := .link k n (ptpNow s) }

/-- The first queue pair the command uses that has left RTS: an RDMA transfer of the command failed
(R70, R73). -/
def failedQp (s : State) (a : Active) : Option (BitVec 24 × Nat) :=
  a.qps.findSome? (fun n => match getQp s n with
    | some q => if q.state = .error then some (n, q.errorSince) else none
    | none => some (n, 0))

/-! ### HOST breakwater buckets (R303, R305) -/

def hostMax (s : State) (b : Nat) : Nat := bits (getBerth s b).regs.breakwater.toNat 55 7
def burstUs (s : State) (b : Nat) : Nat := bits (getBerth s b).regs.breakwater.toNat 80 16

/-- Full level of a HOST bucket, in hundredths of a byte: BURST_US of MAX percent of 50 bytes per ns. -/
def hostBurst (s : State) (b : Nat) : Int := (burstUs s b * 1000 * hostMax s b * 50 : Nat)

/-- The bucket's level now: it fills at MAX percent of capacity up to the burst depth. -/
def hostLevel (s : State) (b port : Nat) : Int :=
  match (getBerth s b).buckets.find? (fun x => x.1 == port) with
  | none => hostBurst s b
  | some (_, lv, at0) => min (hostBurst s b) (lv + ((s.now - at0) * hostMax s b * 50 : Nat))

/-- Subtracts `n` bytes from the berth's bucket on the port. -/
def hostCharge (b port n : Nat) (s : State) : State :=
  let lv := hostLevel s b port - (n * 100 : Nat)
  modBerth b (fun x => { x with buckets := (port, lv, s.now) :: x.buckets.filter (fun y => y.1 != port) }) s

end Sys2Proof.Machine
end

