-- ==== Sys2Proof/Machine/Rdma.lean ====
section
/-! DEFINITION. Addresses of the host ports (R66) and the commands that make and end queue pairs and memory
regions (R69 to R71, Tables 2.21 and 2.22). -/

namespace Sys2Proof.Machine

/-! ### Addresses (R3, R66, Table 2.17) -/

/-- Byte `i` of an address, in wire order. -/
def addrByte (a : Addr) (i : Nat) : Nat := bits a.toNat (8 * i) 8

/-- The link-local address formed from a MAC by modified EUI-64. -/
def linkLocal (mac : BitVec 48) : Addr :=
  let m (i : Nat) : Nat := bits mac.toNat (8 * i) 8
  BitVec.ofNat 128 (ofLE ([0xFE, 0x80] ++ zeros 6 ++
    [BitVec.ofNat 8 (m 0 ^^^ 2), BitVec.ofNat 8 (m 1), BitVec.ofNat 8 (m 2), 0xFF, 0xFE,
     BitVec.ofNat 8 (m 3), BitVec.ofNat 8 (m 4), BitVec.ofNat 8 (m 5)]))

/-- IPv4-mapped form of an IPv4 address whose first byte lies in the lowest bits. -/
def mapped (ip : Nat) : Addr := BitVec.ofNat 128 (2 ^ 80 * 0xFFFF + 2 ^ 96 * (ip % 2 ^ 32))

def isMapped (a : Addr) : Bool := bits a.toNat 0 96 == 2 ^ 80 * 0xFFFF

/-- fe80::/10. -/
def isLinkLocal (a : Addr) : Bool := addrByte a 0 == 0xFE && bits (addrByte a 1) 6 2 == 2

def portAddrBits (s : State) (n lo w : Nat) : Nat := bits ((s.regs.portAddr.getD n 0).toNat) lo w

def portMac (s : State) (n : Nat) : BitVec 48 := s.fixed.macs.getD n 0

def ipv4On (s : State) (n : Nat) : Bool := portAddrBits s n 32 6 != 0
def ipv6On (s : State) (n : Nat) : Bool := portAddrBits s n 40 8 != 0

def portIpv4 (s : State) (n : Nat) : Addr := mapped (portAddrBits s n 0 32)
def portIpv6 (s : State) (n : Nat) : Addr := BitVec.ofNat 128 (portAddrBits s n 128 128)

/-- The addresses on which En answers (R66). -/
def portAnswers (s : State) (n : Nat) (a : Addr) : Bool :=
  a == linkLocal (portMac s n) || (ipv4On s n && a == portIpv4 s n) || (ipv6On s n && a == portIpv6 s n)

/-- LOCAL_GID: the port address in the family of REMOTE_GID (Table 2.21). -/
def localGid (s : State) (n : Nat) (remote : Addr) : Addr :=
  if isMapped remote then portIpv4 s n
  else if isLinkLocal remote then linkLocal (portMac s n)
  else if ipv6On s n then portIpv6 s n
  else linkLocal (portMac s n)

/-! ### Queue pairs -/

def portClassOf (s : State) (n : Nat) : Nat := (s.regs.portClass.getD n 0).toNat

/-- Host ports whose class is OPERATE or ADMIN. -/
def operatePorts (s : State) : List Nat := (List.range 8).filter (fun n => decide (1 ≤ portClassOf s n))

def qpsOf (s : State) (b : Nat) : List Qp := s.rdma.qps.filter (fun q => q.berth == b)

def QpState.code : QpState → Nat
  | .rts => 1 | .error => 2

/-- The reserved gateway and command-free part of QP_CREATE's checks, in the order of Table 2.21. -/
def qpCreateCheck (s : State) (f : Frame) : Option Refuse :=
  let ok := operatePorts s
  let remote : Addr := BitVec.ofNat 128 (par f 16 16)
  firstSome
    [ need (ok.contains (par f 0 1)) (badBytes 0 1 (ok.headD 0) (maxNat ok)),
      inRange f 1 1 0 2, rsvBits f 2 1 6 2, inRange f 3 1 1 255, rsvBits f 4 4 24 8, rsvBits f 8 4 24 8,
      inRange f 12 1 0 7, inRange f 13 1 0 31, rsv f 14 2,
      need (!isMapped remote || ipv4On s (par f 0 1)) (badBytes 16 16 0 0),
      noTail f 32 ]

/-- A queue-pair number that is not in use; which one is the module's choice. -/
def freshQpn (s : State) : Nat :=
  let used := s.rdma.qps.map (fun q => q.qpn.toNat)
  lowestFree used used.length (2 + Config.pick s.fresh % 0x100000)

def newQp (s : State) (f : Frame) : Qp :=
  let port := par f 0 1
  let remote : Addr := BitVec.ofNat 128 (par f 16 16)
  { qpn := BitVec.ofNat 24 (freshQpn s), berth := f.berth, port := port, mtu := 1024 * 2 ^ par f 1 1, dscp := par f 2 1,
    hopLimit := par f 3 1, remoteQpn := BitVec.ofNat 24 (par f 4 3), remoteGid := remote, localGid := localGid s port remote,
    sendPsn := Config.psn s.fresh, recvPsn := BitVec.ofNat 24 (par f 8 3), state := .rts, retryCnt := par f 12 1,
    retries := 0, ackTimeout := par f 13 1, rateMbps := (hostPort s port).gbps * 1000 }

/-- QP_CREATE: a queue pair in RTS on its port (R70). -/
def cmdQpCreate : CmdSpec :=
  { opcode := 0x0110, cls := 1
    units := fun _ f => if par f 0 1 ≤ 7 then 2 ^ (32 + par f 0 1) else 0
    check := qpCreateCheck
    needs := fun s f => firstSome
      [ need (decide ((qpsOf s f.berth).length < qpQuota s f.berth)) (noResource 6 0 1),
        need (decide (s.rdma.qps.length < 4096)) (noResource 6 0 1) ]
    work := fun s a =>
      let q := newQp s a.frame
      (useFresh { s with rdma := { s.rdma with qps := s.rdma.qps ++ [q] } },
        okOut (toLE 4 q.qpn.toNat ++ toLE 4 q.sendPsn.toNat ++ toLE 16 q.localGid.toNat) []) }

/-- A queue pair in use: an accepted command uses it. -/
def qpInUse (s : State) (qpn : BitVec 24) : Bool := s.cmds.active.any (fun a => a.qps.contains qpn)

/-- QP_DESTROY (R70). -/
def cmdQpDestroy : CmdSpec :=
  { opcode := 0x0111, cls := 1
    check := fun _ f => firstSome [ rsv f 4 4, noTail f 8 ]
    objects := fun s f =>
      match (if par f 0 4 < 2 ^ 24 then qpOf s f.berth (BitVec.ofNat 24 (par f 0 4)) else none) with
      | none => some (conflict kQp (par f 0 4) 0)
      | some q => need (!qpInUse s q.qpn) (conflict kQp q.qpn.toNat q.state.code)
    work := fun s a =>
      let qpn := BitVec.ofNat 24 (par a.frame 0 4)
      ({ s with rdma := { s.rdma with qps := s.rdma.qps.filter (fun q => q.qpn != qpn) } }, okOut [] []) }

/-- A queue pair moves to ERROR (R70): its outstanding requests are abandoned. -/
def qpError (qpn : BitVec 24) (s : State) : State :=
  modQp qpn (fun q => if q.state = .error then q else { q with state := .error, requests := [], errorSince := ptpNow s }) s

/-! ### Memory regions -/

/-- RKEY: berth, region index, generation (Table 2.22). -/
def rkeyOf (berth index gen : Nat) : BitVec 32 :=
  BitVec.ofNat 32 (berth % 16 * 2 ^ 28 + index % 256 * 2 ^ 20 + gen % 2 ^ 20)

def regionsOf (s : State) (b : Nat) : List Region := s.rdma.regions.filter (fun r => r.berth == b)

/-- A region index of the berth that is free; which one is the module's choice. -/
def freshRegionIndex (s : State) (b : Nat) : Nat :=
  let used := (regionsOf s b).map (fun r => r.index)
  lowestFree used used.length 0

/-- A generation that this index has not had, so an old RKEY never matches again (R71). -/
def freshGen (s : State) (b index : Nat) : Nat :=
  let used := (s.rdma.gens.filter (fun g => g.1 == b && g.2.1 == index)).map (fun g => g.2.2.toNat)
  (((List.range (used.length + 1)).map (fun i => (Config.pick s.fresh + i) % 2 ^ 20)).find? (fun g => !used.contains g)).getD 0

/-- Registers a region and answers its RKEY. -/
def addRegion (b off len : Nat) (w r : Bool) (owner : RegionOwner) (s : State) : State × BitVec 32 :=
  let i := freshRegionIndex s b
  let g := freshGen s b i
  let rk := rkeyOf b i g
  let reg : Region := { berth := b, index := i, rkey := rk, offset := off, length := len, canWrite := w, canRead := r, owner := owner }
  (useFresh { s with rdma := { s.rdma with regions := s.rdma.regions ++ [reg], gens := (b, i, BitVec.ofNat 20 g) :: s.rdma.gens } }, rk)

def dropRegion (rkey : BitVec 32) (s : State) : State :=
  { s with rdma := { s.rdma with regions := s.rdma.regions.filter (fun r => r.rkey != rkey) } }

/-- REGION_REGISTER (R71). -/
def cmdRegionRegister : CmdSpec :=
  { opcode := 0x0112, cls := 1
    check := fun s f =>
      let sh := sramShare s f.berth
      let off := par f 0 8
      let len := par f 8 8
      firstSome
        [ need (decide (off % 4096 = 0 ∧ off + 4096 ≤ sh)) (badBytes 0 8 0 (sh - 4096)),
          need (decide (len % 4096 = 0 ∧ 4096 ≤ len ∧ off + len ≤ sh)) (badBytes 8 8 4096 (sh - off)),
          rsvBits f 16 1 2 6, rsv f 17 7, noTail f 24 ]
    needs := fun s f => need (decide ((regionsOf s f.berth).length < 256)) (noResource 7 0 1)
    work := fun s a =>
      let f := a.frame
      let r := addRegion f.berth (par f 0 8) (par f 8 8) (bits (par f 16 1) 0 1 == 1) (bits (par f 16 1) 1 1 == 1) .plain s
      (r.1, okOut (toLE 4 r.2.toNat ++ zeros 4) []) }

/-- A region in use: an accepted command names it, or the vault owns it (R71). -/
def regionInUse (s : State) (r : Region) : Bool :=
  r.owner != .plain || s.cmds.active.any (fun a => a.regions.contains r.rkey)

/-- REGION_DEREGISTER (R71). -/
def cmdRegionDeregister : CmdSpec :=
  { opcode := 0x0113, cls := 1
    check := fun _ f => firstSome [ rsv f 4 4, noTail f 8 ]
    objects := fun s f =>
      match regionOf s f.berth (BitVec.ofNat 32 (par f 0 4)) with
      | none => some (conflict kRegion (par f 0 4) 0)
      | some r => need (!regionInUse s r) (conflict kRegion r.rkey.toNat 2)
    work := fun s a => (dropRegion (BitVec.ofNat 32 (par a.frame 0 4)) s, okOut [] []) }

end Sys2Proof.Machine
end

