-- ==== Sys2Proof/Machine/Media.lean ====
section
/-! DEFINITION. Flash geometry, capacity and allocation (R74, R75, R80, R87, R105), the protected write
buffer (R83, R357), placement tokens (Table 3.9) and the notices of a berth (Table 3.14). -/

namespace Sys2Proof.Machine

/-! ### Geometry (R74, R75) -/

/-- Data bytes of a stripe: 31 pages of 16,384 bytes, or 30 in a narrow superblock (R75, R78). -/
def stripeBytes (narrow : Bool) : Nat := if narrow then 491520 else 507904

/-- Stripes of a superblock. -/
def stripesOf (pslc : Bool) : Nat := if pslc then 3072 else 9216

/-- Data bytes of a pSLC superblock of one quay. -/
def pslcSbBytes : Nat := 1560281088

/-- Die programs that fill a superblock: one for each of 512 word lines or pages on each of 32 dies. -/
def progsFull (narrow : Bool) : Nat := if narrow then 512 * 31 else 512 * 32

/-- The die of data page `j` in stripe row `n` of superblock `b`: ascending dies, skipping the XOR die (R75). -/
def dataDie (b n j : Nat) : Nat :=
  let x := (n + b) % 32
  if j < x then j else j + 1

/-- PHYSICAL of Table 3.2. -/
def physical (quay die plane block page : Nat) (pslc : Bool) : BitVec 64 :=
  BitVec.ofNat 64 (quay % 32 + die % 4 * 2 ^ 5 + die / 4 % 8 * 2 ^ 7 + plane % 8 * 2 ^ 10 + block % 2 ^ 11 * 2 ^ 13
    + page % 2 ^ 11 * 2 ^ 24 + (if pslc then 2 ^ 35 else 0))

/-! ### Superblocks -/

def sbOf (m : QuayMedia) (n : Nat) : Superblock :=
  (m.sbs.find? (fun x => x.no == n)).getD { no := n, pslc := false, use := .erased }

def setSb (q : Nat) (sb : Superblock) (s : State) : State :=
  modQuayMedia q (fun m => { m with sbs := sb :: m.sbs.filter (fun x => x.no != sb.no) }) s

/-- Superblocks that hold something or wait for an erase. -/
def sbTaken (m : QuayMedia) : List Nat := (m.sbs.filter (fun x => x.use != .erased)).map (fun x => x.no)

/-- Superblocks of the vault's capture space, the same number on every quay (R253). -/
def vaultSbs (s : State) : Nat := sumNat (s.vaults.map (fun v => v.pslc / 37446746112))

/-- ERASED_SB: erased superblocks of both pools, the brace reserve excluded (Table 3.16). -/
def erasedSb (s : State) (q : Nat) : Nat :=
  1365 - (sbTaken (getQuayMedia s q)).length - (getQuayMedia s q).braceFree - vaultSbs s

/-- An erased superblock of the quay; which one is the module's choice. -/
def freshSb (s : State) (q : Nat) : Nat :=
  let taken := sbTaken (getQuayMedia s q)
  let start := Config.pick s.fresh % 1365
  (((List.range 1365).map (fun i => (start + i) % 1365)).find? (fun n => !taken.contains n)).getD 0

/-! ### Capacity (R80, R87) -/

/-- Data bytes of a good block after XOR: 24 MiB × 31 ÷ 32. -/
def blockData : Nat := 24379392

def dieBad (s : State) (q d : Nat) : Nat :=
  sumNat ((s.fixed.factoryBad.filter (fun x => x.1 == q && x.2.1 == d)).map (fun x => x.2.2))
    + ((getQuayMedia s q).retired.filter (fun x => x.1 == d)).length

/-- Good blocks of the quay's dies in service. -/
def goodBlocks (s : State) (q : Nat) : Nat :=
  sumNat (((List.range 32).filter (fun d => !(getQuayMedia s q).retiredDies.contains d)).map (fun d => 8190 - dieBad s q d))

def goodBytes (s : State) (q : Nat) : Nat := goodBlocks s q * blockData

def goodTotal (s : State) : Nat := sumNat ((List.range 24).map (goodBytes s))

def systemReserve : Nat := 3584 * 2 ^ 30

def vaultAlloc (v : Vault) : Nat := v.tlc + 3 * v.pslc

/-- What namespaces, vector indexes and vaults allocate: spread over all quays. -/
def spreadAlloc (s : State) (own : Nat → Bool) : Nat :=
  sumNat ((s.media.nss.filter (fun n => own n.berth)).map (fun n => n.blocks * 4096))
    + sumNat ((s.indexes.filter (fun x => own x.berth)).map (fun x => x.allocGib * 2 ^ 30))
    + sumNat ((s.vaults.filter (fun v => own v.berth)).map vaultAlloc)

def holdAlloc (s : State) (own : Hold → Bool) : Nat :=
  sumNat ((s.media.holds.filter own).map (fun h => h.alloc))

/-- The sum of allocations. -/
def allocTotal (s : State) : Nat := spreadAlloc s (fun _ => true) + holdAlloc s (fun _ => true)

/-- A berth's allocation. -/
def allocOf (s : State) (b : Nat) : Nat := spreadAlloc s (fun x => x == b) + holdAlloc s (fun h => h.berth == b)

/-- Spare in bytes (R80). -/
def spareBytes (s : State) : Int := (goodTotal s : Int) - systemReserve - allocTotal s

def mediaCtl (s : State) (lo w : Nat) : Nat := bits s.regs.mediaControl.toNat lo w

/-- SPARE_FLOOR in bytes. -/
def spareFloor (s : State) : Nat := mediaCtl s 0 16 * 2 ^ 30

/-- What a creation can still allocate under R80. -/
def allocAvail (s : State) : Nat :=
  (min ((120 * 2 ^ 40 : Int) - allocTotal s) (spareBytes s - spareFloor s - 2 ^ 40)).toNat

/-- The checks of R80 and R298 for a creation that allocates `n` bytes in berth `b`. -/
def allocCheck (s : State) (b n : Nat) : Option Refuse :=
  firstSome
    [ need (decide (n ≤ allocAvail s)) (noResource 0x0201 (allocAvail s) n),
      (if capGib s b = 0 then none
       else need (decide (allocOf s b + n ≤ capGib s b * 2 ^ 30)) (noResource 0x0704 (capGib s b * 2 ^ 30 - allocOf s b) n)) ]

/-- The quay's free capacity (R87). -/
def quayFree (s : State) (q : Nat) : Nat :=
  goodBytes s q - systemReserve / 24 - holdAlloc s (fun h => h.quay == q) - spreadAlloc s (fun _ => true) / 24

/-- R105 and R202: below SPARE_FLOOR every mutable namespace and index is READ_ONLY_WORN; at SPARE_FLOOR plus
1 TiB they return. -/
def wornUpdate (s : State) : State :=
  if !s.media.worn && decide (spareBytes s < spareFloor s) then
    { s with
      media := { s.media with worn := true, nss := s.media.nss.map (fun n => if n.state = .online then { n with state := .worn } else n) }
      indexes := s.indexes.map (fun x => if x.state = .online then { x with state := .worn } else x)
      eng := { s.eng with mediaEvents := s.eng.mediaEvents ||| 1 } }
  else if s.media.worn && decide ((spareFloor s : Int) + 2 ^ 40 ≤ spareBytes s) then
    { s with
      media := { s.media with worn := false, nss := s.media.nss.map (fun n => if n.state = .worn then { n with state := .online } else n) }
      indexes := s.indexes.map (fun x => if x.state = .worn then { x with state := .online } else x) }
  else s

/-! ### The protected write buffer (R83, R357) -/

/-- The quay of a namespace block: chunk c of 512 KiB lies on quay (c + NSID) mod 24 (R82). -/
def nsQuay (nsid lba : Nat) : Nat := (lba / 128 + nsid) % 24

def entryBytes (e : BufEntry) : Nat := (e.data.map (fun d => d.length)).getD 0

def bufTotal (s : State) : Nat := sumNat (s.eng.wbuf.map entryBytes)

def bufOn (s : State) (q : Nat) : Nat :=
  sumNat ((s.eng.wbuf.filter (fun e => nsQuay e.nsid e.lba == q)).map entryBytes)

/-- How many of `n` blocks from `lba` lie on quay `q`. -/
def blocksOn (nsid lba n q : Nat) : Nat := ((List.range n).filter (fun i => nsQuay nsid (lba + i) == q)).length

/-- The buffer has room for `n` blocks from `lba`: 48 MiB for each quay and 1 GiB in all. -/
def bufRoom (s : State) (nsid lba n : Nat) : Bool :=
  decide (bufTotal s + n * 4096 ≤ 2 ^ 30) &&
    (List.range 24).all (fun q => decide (bufOn s q + blocksOn nsid lba n q * 4096 ≤ 48 * 2 ^ 20))

/-- Buffer entries for `n` blocks of data from `lba`. -/
def dataEntries (nsid cmd : Nat) : Nat → Nat → Bytes → List BufEntry
  | 0, _, _ => []
  | n + 1, lba, d => { nsid := nsid, lba := lba, data := some (d.take 4096), cmd := cmd } :: dataEntries nsid cmd n (lba + 1) (d.drop 4096)

/-- Buffer entries that discard `n` blocks from `lba`. -/
def discardEntries (nsid cmd lba n : Nat) : List BufEntry :=
  (List.range n).map (fun i => { nsid := nsid, lba := lba + i, data := none, cmd := cmd })

def bufPush (es : List BufEntry) (s : State) : State := { s with eng := { s.eng with wbuf := s.eng.wbuf ++ es } }

/-- Puts one buffer entry on media: its block holds the data or reads as zeros, and is no longer lost. -/
def programEntry (e : BufEntry) (s : State) : State :=
  modNs e.nsid (fun n =>
    { n with
      data := (match e.data with
        | some d => memWrite (memClear n.data (e.lba * 4096) 4096) (e.lba * 4096) d
        | none => memClear n.data (e.lba * 4096) 4096)
      mapped := (match e.data with
        | some _ => if n.mapped.contains e.lba then n.mapped else e.lba :: n.mapped
        | none => n.mapped.filter (fun x => x != e.lba))
      lost := n.lost.filter (fun x => x.1 != e.lba) }) s

/-- Programs entries in the order in which they were written. -/
def programAll : List BufEntry → State → State
  | [], s => s
  | e :: es, s => programAll es (programEntry e s)

/-- Programs the whole buffer (R352, R358, R435). -/
def flushBuffer (s : State) : State :=
  let s1 := programAll s.eng.wbuf s
  { s1 with eng := { s1.eng with wbuf := [] } }

/-- The newest buffer entry of a block. -/
def bufLast (s : State) (nsid lba : Nat) : Option BufEntry :=
  s.eng.wbuf.reverse.find? (fun e => e.nsid == nsid && e.lba == lba)

/-- The present data of a block: from the buffer, else from media (R54, R84). -/
def blockData? (s : State) (n : Namespace) (lba : Nat) : Bytes :=
  match bufLast s n.nsid lba with
  | some e => (e.data.map (padTo 4096)).getD (zeros 4096)
  | none => memRead n.data (lba * 4096) 4096

/-- PHYSICAL of a block that a read cannot return: lost on media and not rewritten in the buffer (R77, R371). -/
def blockLost (s : State) (n : Namespace) (lba : Nat) : Option (BitVec 64) :=
  match bufLast s n.nsid lba with
  | some _ => none
  | none => (n.lost.find? (fun x => x.1 == lba)).map (fun x => x.2)

/-- Blocks whose last write was not a discard (R86). -/
def mappedNow (s : State) (n : Namespace) : Nat :=
  let step (l : List Nat) (e : BufEntry) : List Nat :=
    if e.nsid = n.nsid then
      (if e.data.isSome then (if l.contains e.lba then l else e.lba :: l) else l.filter (fun x => x != e.lba))
    else l
  (s.eng.wbuf.foldl step n.mapped).length

/-! ### Placement tokens (Table 3.9) -/

/-- Bits [47:0] of a run's token. -/
def tokenLow (q : Nat) (r : Run) : Nat :=
  q % 32 + r.sb % 2 ^ 11 * 2 ^ 5 + r.stripe % 2 ^ 14 * 2 ^ 16 + (if r.narrow then 2 ^ 30 else 0) + r.gen.toNat * 2 ^ 32

/-- The placement token of a run: CHECK is a keyed code over HOLD_ID and bits [47:0]. -/
def tokenOf (h : Hold) (r : Run) : BitVec 64 :=
  BitVec.ofNat 64 (tokenLow h.quay r + (Config.tokenCheck h.id (tokenLow h.quay r)).toNat * 2 ^ 48)

/-- CHECK verifies for HOLD_ID. -/
def tokenVerifies (hold : Nat) (token : Nat) : Bool :=
  bits token 48 16 == (Config.tokenCheck hold (bits token 0 48)).toNat

/-- The run of the hold that a byte lies in. -/
def runAt (h : Hold) (off : Nat) : Option Run :=
  h.runs.find? (fun r => decide (r.offset ≤ off ∧ off < r.offset + r.length))

/-- The run for which a token is current (R92). -/
def runOfToken (h : Hold) (token : Nat) : Option Run := h.runs.find? (fun r => (tokenOf h r).toNat == token)

/-- The superblock that holds a run, as the quay keeps it. -/
def runSb (s : State) (h : Hold) (r : Run) : Superblock := sbOf (getQuayMedia s h.quay) r.sb

/-- PHYSICAL of a hold byte in run `r`, and its die (R74, R75). -/
def holdPage (h : Hold) (r : Run) (off : Nat) : Nat × BitVec 64 :=
  let rel := off - r.offset
  let sb := stripeBytes r.narrow
  let st := r.stripe + rel / sb
  let d := dataDie r.sb (st / 6) (rel % sb / 16384)
  (d, physical h.quay d (st % 6) r.sb (st / 6) false)

/-- The quay's link is LOST until the next reset (R145). -/
def quayLost (s : State) (q : Nat) : Bool := (getQuay s q).link == .lost

/-- A hold byte is lost: its quay is lost (R145), its codeword is lost (R77), or two dies that held its stripe
have retired (R78). -/
def holdByteLost (s : State) (h : Hold) (off : Nat) : Option (BitVec 64) :=
  if quayLost s h.quay then some (BitVec.ofNat 64 h.quay) else
  match h.lost.find? (fun x => x.1 == off / 4096 * 4096) with
  | some x => some x.2
  | none =>
    match runAt h off with
    | none => none
    | some r =>
      let dead := (runSb s h r).deadDies
      let p := holdPage h r off
      if !r.narrow && decide (2 ≤ dead.length) && dead.contains p.1 then some p.2 else none

/-- The first lost byte of [off, off + len), looked for codeword by codeword. -/
def holdFirstLost (s : State) (h : Hold) (off len : Nat) : Option (Nat × BitVec 64) :=
  let first := off / 4096
  let last := (off + len - 1) / 4096
  (List.range (last + 1 - first)).findSome? (fun i =>
    (holdByteLost s h ((first + i) * 4096)).map (fun p => (max off ((first + i) * 4096), p)))

/-- Reads bytes of a hold, or the MEDIA_UE of the first lost one. -/
def holdBytes (s : State) (h : Hold) (off len : Nat) : Refuse ⊕ Bytes :=
  if len = 0 then .inr [] else
  match holdFirstLost s h off len with
  | some (o, p) => .inl (stMediaUe, .media h.id 1 h.quay (BitVec.ofNat 64 o) p)
  | none => .inr (memRead h.data off len)

/-! ### Notices to a berth's NOTICE_DEST (Table 3.14, R96) -/

def noticeBits (s : State) (b lo w : Nat) : Nat := bits (getBerth s b).regs.noticeDest.toNat lo w

def noticeOn (s : State) (b : Nat) : Bool := noticeBits s b 3 1 == 1

/-- Sends a notice of a berth with status OK and detail NONE, when its NOTICE_DEST is enabled. -/
def berthNotice (b op : Nat) (fields payload : Bytes) (s : State) : State :=
  if noticeOn s b then
    sendNotice (noticeBits s b 0 3) (BitVec.ofNat 128 (noticeBits s b 32 128)) (noticeBits s b 8 16) op b false
      (blockNow s b stOk .none) fields payload s
  else s

end Sys2Proof.Machine
end

