-- ==== Sys2Proof/Machine/Namespaces.lean ====
section
/-! DEFINITION. Namespace commands 0x0200 to 0x0206 (R82 to R86) with their range locks (R54 to R57). -/

namespace Sys2Proof.Machine

def NsState.code : NsState → Nat
  | .online => 1 | .worn => 2 | .offline => 3

/-- The namespace of the header's berth that a command names at offset 0. -/
def nsNamed (s : State) (f : Frame) : Option Namespace :=
  (getNs s (par f 0 4)).filter (fun n => n.berth == f.berth)

/-- Step 12 for a command that names a namespace: NONE, and OFFLINE where `online` asks for more (Table 3.6). -/
def nsState (s : State) (f : Frame) (online : Bool) : Option Refuse :=
  match nsNamed s f with
  | none => some (conflict kNs (par f 0 4) 0)
  | some n => need (!online || n.state != .offline) (conflict kNs n.nsid n.state.code)

/-- READ_ONLY_WORN for writes and discards (Table 3.6). -/
def nsWritable (s : State) (f : Frame) : Option Refuse :=
  (nsNamed s f).bind (fun n => need (n.state != .worn) (stReadOnlyWorn, .objectState kNs n.nsid 2))

/-! ### NS_CREATE, NS_DELETE, NS_INFO, NS_FLUSH -/

def nsCapacity (s : State) : Nat := sumNat (s.media.nss.map (fun n => n.blocks * 4096))

def cmdNsCreate : CmdSpec :=
  { opcode := 0x0200, cls := 2
    check := fun _ f => firstSome [ inRange f 0 8 1 6442450944, inRange f 8 1 0 1, rsv f 9 7, noTail f 16 ]
    needs := fun s f =>
      let n := par f 0 8 * 4096
      firstSome
        [ need (decide (s.media.nss.length < 256)) (noResource 0x0202 0 1),
          need (decide (nsCapacity s + n ≤ 24 * 2 ^ 40)) (noResource 0x0205 (24 * 2 ^ 40 - nsCapacity s) n),
          allocCheck s f.berth n ]
    depth := fun _ _ => 1
    work := fun s a =>
      let id := newId s s.media.lastNsid
      let n : Namespace := { nsid := id, berth := a.frame.berth, blocks := par a.frame 0 8, forward := par a.frame 8 1 == 1 }
      (useFresh { s with media := { s.media with nss := s.media.nss ++ [n], lastNsid := id } }, okOut (toLE 4 id) []) }

/-- An accepted command uses the object. -/
def objInUse (s : State) (kind id : Nat) : Bool := s.cmds.active.any (fun a => a.objs.contains (kind, id))

def cmdNsDelete : CmdSpec :=
  { opcode := 0x0201, cls := 2
    check := fun _ f => firstSome [ rsv f 4 4, noTail f 8 ]
    objects := fun s f => firstSome
      [ nsState s f false,
        (nsNamed s f).bind (fun n => need (!objInUse s kNs n.nsid) (conflict kNs n.nsid n.state.code)) ]
    depth := fun _ _ => 1
    work := fun s a =>
      let id := par a.frame 0 4
      (wornUpdate { s with
          media := { s.media with nss := s.media.nss.filter (fun n => n.nsid != id) }
          eng := { s.eng with wbuf := s.eng.wbuf.filter (fun e => e.nsid != id) } }, okOut [] []) }

def cmdNsInfo : CmdSpec :=
  { opcode := 0x0202, cls := 0
    check := fun _ f => firstSome [ rsv f 4 4, noTail f 8 ]
    objects := fun s f => nsState s f false
    uses := fun s f => { objs := ((nsNamed s f).map (fun n => (kNs, n.nsid))).toList }
    work := fun s a =>
      match nsNamed s a.frame with
      | none => (s, failOut (conflict kNs (par a.frame 0 4) 0))
      | some n => (s, okOut (toLE 8 n.blocks ++ toLE 8 (mappedNow s n) ++ toLE 2 n.state.code
          ++ toLE 1 (if n.forward then 1 else 0) ++ toLE 1 n.berth ++ zeros 4) []) }

/-- Writes and discards of the namespace accepted before command `id` that are not on media yet. -/
def nsPending (s : State) (nsid id : Nat) : Bool :=
  s.eng.wbuf.any (fun e => e.nsid == nsid && decide (e.cmd < id)) ||
    s.cmds.active.any (fun a => decide (a.id < id) && !a.applied &&
      (a.lock.map (fun l => l.nsid == nsid && l.writes)).getD false)

def cmdNsFlush : CmdSpec :=
  { opcode := 0x0206, cls := 1
    check := fun _ f => firstSome [ rsv f 4 4, noTail f 8 ]
    objects := fun s f => nsState s f true
    uses := fun s f => { objs := ((nsNamed s f).map (fun n => (kNs, n.nsid))).toList }
    depth := fun _ _ => 1
    slow := fun s a => nsPending s (par a.frame 0 4) a.id
    done := fun s a => !nsPending s (par a.frame 0 4) a.id }

/-! ### Range locks (R54 to R56) -/

/-- Two commands conflict when their ranges overlap and one of them writes or discards (R54). -/
def locksConflict (x y : RangeLock) : Bool :=
  x.nsid == y.nsid && decide (x.lba < y.lba + y.blocks ∧ y.lba < x.lba + x.blocks) && (x.writes || y.writes)

/-- What command `a` must wait for from an earlier command `b` under the namespace's OVERLAP_MODE: its
completion (LOCK), or its data (a write) or its capture (a read) (FORWARD). -/
def waitsFor (forward : Bool) (a b : Active) : Bool :=
  match a.lock, b.lock with
  | some x, some y =>
    decide (b.id < a.id) && locksConflict x y && (if forward then !b.applied else true)
  | _, _ => false

/-- PHASE 1 while an earlier-accepted command holds the range. -/
def lockWait (s : State) (a : Active) : Nat :=
  let fwd := (((a.lock.bind (fun l => getNs s l.nsid))).map (fun n => n.forward)).getD false
  if s.cmds.active.any (fun b => waitsFor fwd a b) then 1 else 3

def lockOf (f : Frame) (writes : Bool) : RangeLock :=
  { nsid := par f 0 4, lba := par f 8 8, blocks := par f 16 4, writes := writes }

/-- The fields that NS_READ, NS_WRITE and NS_DISCARD share (Table 3.5): BLOCKS within its own range, then LBA + BLOCKS within the
namespace, which names LBA. -/
def nsRangeCheck (s : State) (f : Frame) (fua : Bool) (maxBlocks : Nat) : Option Refuse :=
  firstSome
    [ (if fua then rsvBits f 4 1 1 7 else rsv f 4 1), rsv f 5 3, inRange f 16 4 1 maxBlocks,
      (match nsNamed s f with
       | none => none
       | some n => need (decide (par f 8 8 + par f 16 4 ≤ n.blocks)) (badBytes 8 8 0 (n.blocks - par f 16 4))),
      rsv f 20 4 ]

def nsUses (f : Frame) (writes : Bool) (fetch : Bool) : Uses :=
  { lock := some (lockOf f writes), objs := [(kNs, par f 0 4)], refs := [parRef f 24], sources := if fetch then [parRef f 24] else [],
    fetch := if fetch && (parRef f 24).kind == 3 then [(0, parRef f 24)] else [] }

/-! ### NS_READ -/

/-- The blocks from `lba`, or the MEDIA_UE of the first that is lost (R77). -/
def readBlocks (s : State) (n : Namespace) : Nat → Nat → Refuse ⊕ Bytes
  | _, 0 => .inr []
  | lba, k + 1 =>
    match blockLost s n lba with
    | some p => .inl (stMediaUe, .media n.nsid 0 (nsQuay n.nsid lba) (BitVec.ofNat 64 lba) p)
    | none =>
      match readBlocks s n (lba + 1) k with
      | .inl r => .inl r
      | .inr d => .inr (blockData? s n lba ++ d)

/-- The data of the read as it starts: later commands never change it (R54). -/
def captureRead (s : State) (a : Active) : WorkOut :=
  match nsNamed s a.frame with
  | none => failOut (conflict kNs (par a.frame 0 4) 0)
  | some n =>
    match readBlocks s n (par a.frame 8 8) (par a.frame 16 4) with
    | .inl r => failOut r
    | .inr d => okOut [] d

/-- Delivers captured data to a reference: in the reply, into a region, or to host memory. -/
def deliver (s : State) (a : Active) (r : DRef) : State × WorkOut :=
  match a.out with
  | none => (s, { status := stOk, detail := .none })
  | some o =>
    if r.kind = 0 then (s, o)
    else if isSuccess o.status then (putRef a.frame.berth r o.payload s, { o with payload := [] })
    else (s, o)

def cmdNsRead : CmdSpec :=
  { opcode := 0x0203, cls := 1
    check := fun s f => firstSome
      [ nsRangeCheck s f false (if (parRef f 24).kind = 0 then 256 else 65536),
        parRefCheck s f 24 [0, 2, 3],
        (if (parRef f 24).kind = 0 then none else refLength 24 (parRef f 24) (par f 16 4 * 4096)), noTail f 56 ]
    objects := fun s f => firstSome [ nsState s f true, refRts s f (parRef f 24) ]
    uses := fun _ f => nsUses f false false
    wait := lockWait
    depth := fun _ _ => 1
    slow := fun _ _ => true
    start := fun s a => let o := captureRead s a; modActive a.id (fun a => { a with out := some o, applied := true }) s
    work := fun s a => deliver s a (parRef a.frame 24) }

/-! ### NS_WRITE and NS_DISCARD -/

/-- FUA holds: asked for, in BRACED, or with HOLDUP_LOW set (R83, R361). -/
def fuaNow (s : State) (a : Active) : Bool :=
  (a.opcode == 0x0204 && bits (par a.frame 4 1) 0 1 == 1) || s.dev.state == .braced || s.pf.holdupLow

/-- Entries of the command that are not on media yet. -/
def cmdBuffered (s : State) (id : Nat) : Bool := s.eng.wbuf.any (fun e => e.cmd == id)

/-- The room of R79 on every quay holds what waits for media there and `n` more blocks from the command's
LBA; a discard brings no data. -/
def bracedRoom (s : State) (f : Frame) (n : Nat) : Bool :=
  (List.range 24).all (fun q =>
    decide (bufOn s q + blocksOn (par f 0 4) (par f 8 8) n q * 4096
      ≤ (erasedSb s q + (getQuayMedia s q).braceFree) * pslcSbBytes))

/-- Puts a write's data or a discard into the buffer. -/
def applyWrite (s : State) (a : Active) : State :=
  let f := a.frame
  let es := if a.opcode = 0x0204 then dataEntries (par f 0 4) a.id (par f 16 4) (par f 8 8) (refData s a 0 (parRef f 24))
    else discardEntries (par f 0 4) a.id (par f 8 8) (par f 16 4)
  modActive a.id (fun a => { a with applied := true }) (bufPush es s)

/-- A write enters the buffer when all its data is there and there is room; otherwise it waits in PHASE 3. -/
def tryApply (s : State) (a : Active) : State :=
  let f := a.frame
  let n := if a.opcode = 0x0204 then par f 16 4 else 0
  if a.applied || !bufRoom s (par f 0 4) (par f 8 8) n then s else applyWrite s a

/-- Waiting writes enter the buffer in acceptance order as space frees. -/
def applyWaiting (s : State) : State :=
  s.cmds.active.foldl (fun s a =>
    if a.phase = 3 && !a.applied && a.awaiting.isEmpty && (a.opcode == 0x0204 || a.opcode == 0x0205) then tryApply s a else s) s

/-- The write is in the buffer, and on media where it must be. -/
def writeDone (s : State) (a : Active) : Bool := a.applied && (!fuaNow s a || !cmdBuffered s a.id)

def writeOut (s : State) (a : Active) : State × WorkOut :=
  (s, okOut (toLE 1 (if cmdBuffered s a.id then 0 else 1)) [])

def cmdNsWrite : CmdSpec :=
  { opcode := 0x0204, cls := 1
    brace := fun s f => !bracedRoom s f (par f 16 4)
    check := fun s f => firstSome
      [ nsRangeCheck s f true 65536, parRefCheck s f 24 [1, 2, 3],
        refLength 24 (parRef f 24) (par f 16 4 * 4096), noTail f 56 ]
    objects := fun s f => firstSome [ nsState s f true, nsWritable s f, refRts s f (parRef f 24) ]
    uses := fun _ f => nsUses f true true
    wait := lockWait
    depth := fun _ _ => 1
    start := fun s a => if (parRef a.frame 24).kind = 3 then s else tryApply s a
    arrived := tryApply
    slow := fun s a => !writeDone s a
    done := writeDone
    work := writeOut }

def cmdNsDiscard : CmdSpec :=
  { opcode := 0x0205, cls := 1
    brace := fun s f => !bracedRoom s f 0
    check := fun s f => firstSome [ nsRangeCheck s f false 65536, parRefCheck s f 24 [0], noTail f 56 ]
    objects := fun s f => firstSome [ nsState s f true, nsWritable s f ]
    uses := fun _ f => nsUses f true false
    wait := lockWait
    depth := fun _ _ => 1
    start := tryApply
    slow := fun s a => !writeDone s a
    done := writeDone
    work := writeOut }

end Sys2Proof.Machine
end

