-- ==== Sys2Proof/Machine/Holds.lean ====
section
/-! DEFINITION. Hold commands 0x0210 to 0x0218: creation, writing, sealing, reading through tokens, deletion,
the run map, and the forwarding table (R87 to R97). -/

namespace Sys2Proof.Machine

/-- OPEN 1, SEALED 2 (Table 3.10). -/
def holdCode (h : Hold) : Nat := if h.isSealed then 2 else 1

def holdNamed (s : State) (f : Frame) : Option Hold :=
  (getHold s (par f 0 4)).filter (fun h => h.berth == f.berth)

/-- Step 12: the hold exists and is in one of the permitted states. -/
def holdState (s : State) (f : Frame) (codes : List Nat) : Option Refuse :=
  match holdNamed s f with
  | none => some (conflict kHold (par f 0 4) 0)
  | some h => need (codes.contains (holdCode h)) (conflict kHold h.id (holdCode h))

def holdUses (f : Frame) : Uses := { objs := [(kHold, par f 0 4)] }

/-! ### Placement -/

/-- The quay's new superblocks are narrow once a die has retired (R78). -/
def quayNarrow (s : State) (q : Nat) : Bool := !(getQuayMedia s q).retiredDies.isEmpty

/-- Stripes a hold of `size` bytes takes. -/
def holdStripes (s : State) (q size : Nat) : Nat := ceilDiv size (stripeBytes (quayNarrow s q))

/-- Where the last, partial run of a hold goes: an open superblock of the quay that already holds last runs and
has room, or a new one; the module chooses. -/
def sharedSb (s : State) (q n : Nat) : Option Superblock :=
  if Config.choose s.fresh then
    (getQuayMedia s q).sbs.find? (fun x => x.use == .open && !x.pslc && x.used != 0 && decide (x.used + n ≤ 9216) && x.narrow == quayNarrow s q)
  else none

/-- Gives a hold a run of `n` stripes from hold byte `off` on quay `q`. -/
def placeRun (q off n len : Nat) (whole : Bool) (s : State) : Run × State :=
  let narrow := quayNarrow s q
  let sb := match (if whole then none else sharedSb s q n) with
    | some x => x
    | none => { sbOf (getQuayMedia s q) (freshSb s q) with pslc := false, use := .open, narrow := narrow, progs := 0, used := 0, deadDies := [], hadDeleted := false, refreshDue := false, reads := 0 }
  let r : Run := { offset := off, length := len, sb := sb.no, stripe := sb.used, narrow := narrow, gen := sb.gen }
  (r, useFresh (setSb q { sb with used := sb.used + n, use := (if sb.used + n = 9216 then .full else .open) } s))

/-- Whole superblocks for as long as the data fills them, then one last run (R90); `k` bounds the runs. -/
def placeRuns (q size : Nat) : Nat → Nat → Nat → State → List Run × State
  | 0, _, _, s => ([], s)
  | k + 1, off, left, s =>
    if left = 0 then ([], s)
    else
      let n := min left 9216
      let len := min (size - off) (n * stripeBytes (quayNarrow s q))
      let r := placeRun q off n len (n == 9216) s
      let rest := placeRuns q size k (off + len) (left - n) r.2
      (r.1 :: rest.1, rest.2)

/-! ### HOLD_CREATE, HOLD_WRITE, HOLD_SEAL -/

def cmdHoldCreate : CmdSpec :=
  { opcode := 0x0210, cls := 1
    brace := fun _ _ => true
    check := fun _ f => firstSome [ inRange f 0 8 1 5497558138880, inRange f 8 1 0 23, rsv f 9 7, noTail f 16 ]
    needs := fun s f =>
      let q := par f 8 1
      let n := holdStripes s q (par f 0 8) * stripeBytes (quayNarrow s q)
      firstSome
        [ need (decide (s.media.holds.length < 1048576)) (noResource 0x0203 0 1),
          need (decide (n ≤ quayFree s q)) (noResource 0x0200 (quayFree s q) n),
          allocCheck s f.berth n ]
    depth := fun _ _ => 1
    work := fun s a =>
      let q := par a.frame 8 1
      let size := par a.frame 0 8
      let n := holdStripes s q size
      let id := newId s s.media.lastHold
      let p := placeRuns q size (n / 9216 + 1) 0 n (useFresh s)
      let h : Hold := { id := id, berth := a.frame.berth, quay := q, size := size, alloc := n * stripeBytes (quayNarrow s q), runs := p.1 }
      ({ p.2 with media := { p.2.media with holds := p.2.media.holds ++ [h], lastHold := id } }, okOut (toLE 4 id) []) }

/-- A HOLD_WRITE of the hold that has not completed. -/
def holdWriting (s : State) (id : Nat) : Bool :=
  s.cmds.active.any (fun a => a.opcode == 0x0211 && par a.frame 0 4 == id)

/-- Fields of HOLD_WRITE that depend on the hold (Table 3.7, R88). -/
def holdWriteRange (s : State) (f : Frame) : Option Refuse :=
  match (holdNamed s f).filter (fun h => !h.isSealed) with
  | none => inRange f 24 8 1 4294967296
  | some h =>
    let off := par f 16 8
    let len := par f 24 8
    firstSome
      [ inRange f 16 8 h.written h.written,
        need (decide (1 ≤ len ∧ len ≤ 4294967296 ∧ off + len ≤ h.size ∧ (len % 4096 = 0 ∨ off + len = h.size)))
          (badBytes 24 8 1 (min 4294967296 (h.size - off))) ]

def cmdHoldWrite : CmdSpec :=
  { opcode := 0x0211, cls := 1
    brace := fun _ _ => true
    check := fun s f => firstSome
      [ rsv f 4 4, rsv f 8 8, holdWriteRange s f, parRefCheck s f 32 [1, 2, 3],
        refLength 32 (parRef f 32) (par f 24 8), noTail f 64 ]
    objects := fun s f => firstSome
      [ holdState s f [1], need (!holdWriting s (par f 0 4)) (conflict kHold (par f 0 4) 1), refRts s f (parRef f 32) ]
    uses := fun _ f => { holdUses f with refs := [parRef f 32], sources := [parRef f 32], fetch := if (parRef f 32).kind == 3 then [(0, parRef f 32)] else [] }
    depth := fun _ _ => 1
    slow := fun _ _ => true
    work := fun s a =>
      let f := a.frame
      let w := par f 16 8 + par f 24 8
      let q := ((getHold s (par f 0 4)).map (fun h => h.quay)).getD 0
      if quayLost s q then
        (s, failOut (stMediaUe, .media (par f 0 4) 1 q (BitVec.ofNat 64 (par f 16 8)) (BitVec.ofNat 64 q)))
      else
        let s1 := modHold (par f 0 4) (fun h => { h with data := memWrite h.data (par f 16 8) (refData s a 0 (parRef f 32)), written := w }) s
        ({ s1 with media := { s1.media with volume := s1.media.volume + par f 24 8 } }, okOut (toLE 8 w) []) }

/-- Run entries of Table 3.8 in ascending OFFSET. -/
def runEntries (h : Hold) : Bytes :=
  h.runs.flatMap (fun r => toLE 8 r.offset ++ toLE 8 r.length ++ toLE 8 (tokenOf h r).toNat)

def mapBody (h : Hold) : Bytes := toLE 4 h.id ++ toLE 4 h.runs.length ++ toLE 8 h.size ++ runEntries h

def mapSize (s : State) (f : Frame) : Nat := 16 + 24 * (((holdNamed s f).map (fun h => h.runs.length)).getD 0)

def holdSealing (s : State) (id : Nat) : Bool :=
  s.cmds.active.any (fun a => a.opcode == 0x0212 && par a.frame 0 4 == id)

def cmdHoldSeal : CmdSpec :=
  { opcode := 0x0212, cls := 1, result := true
    brace := fun _ _ => true
    check := fun _ f => firstSome [ rsv f 4 4, noTail f 8 ]
    objects := fun s f => firstSome
      [ holdState s f [1],
        (holdNamed s f).bind (fun h =>
          need (h.written == h.size && !holdWriting s h.id && !holdSealing s h.id) (conflict kHold h.id 1)) ]
    size := mapSize
    uses := fun _ f => holdUses f
    depth := fun _ _ => 1
    slow := fun _ _ => true
    work := fun s a =>
      match holdNamed s a.frame with
      | none => (s, failOut (conflict kHold (par a.frame 0 4) 0))
      | some h => (modHold h.id (fun h => { h with isSealed := true }) s, okOut [] (mapBody h)) }

/-! ### HOLD_READ -/

/-- The fields of HOLD_READ that depend on the hold: OFFSET + LENGTH within SIZE and within one run, CHECK of the
token, and OFFSET inside the run of a current token (R92, Table 3.7). -/
def holdReadRange (s : State) (f : Frame) : Option Refuse :=
  let maxLen := if (parRef f 32).kind = 0 then 1048576 else 268435456
  match (holdNamed s f).filter (fun h => h.isSealed) with
  | none => inRange f 24 8 1 maxLen
  | some h =>
    let off := par f 16 8
    let len := par f 24 8
    firstSome
      [ need (tokenVerifies h.id (par f 8 8)) (badBytes 8 8 0 (2 ^ 64 - 1)),
        need (decide (off < h.size)) (badBytes 16 8 0 (h.size - 1)),
        (runOfToken h (par f 8 8)).bind (fun r =>
          need (decide (r.offset ≤ off ∧ off < r.offset + r.length)) (badBytes 16 8 r.offset (r.offset + r.length - 1))),
        inRange f 24 8 1 maxLen,
        need (decide (1 ≤ len ∧ len ≤ maxLen ∧ off + len ≤ h.size ∧
            off + len ≤ ((runAt h off).map (fun r => r.offset + r.length)).getD h.size))
          (badBytes 24 8 1 (min maxLen (((runAt h off).map (fun r => r.offset + r.length)).getD h.size - off))) ]

/-- The forwarding entry for (HOLD_ID, TOKEN). -/
def forwardFor (s : State) (hold token : Nat) : Option Forward :=
  s.media.fwds.find? (fun x => x.hold == hold && x.oldToken.toNat == token)

/-- R92: through a current token OK; through a stale one OK_RELOCATED with a forwarding entry, RELOCATED without
one and no data. -/
def captureHold (s : State) (a : Active) : WorkOut :=
  let f := a.frame
  match holdNamed s f with
  | none => failOut (conflict kHold (par f 0 4) 0)
  | some h =>
    let off := par f 16 8
    let now : Detail := .media h.id 1 h.quay (BitVec.ofNat 64 off) (((runAt h off).map (tokenOf h)).getD 0)
    let cur := (runOfToken h (par f 8 8)).isSome
    if !cur && (forwardFor s h.id (par f 8 8)).isNone then { status := stRelocated, detail := now }
    else
      match holdBytes s h off (par f 24 8) with
      | .inl r => failOut r
      | .inr d => if cur then okOut [] d else { status := stOkRelocated, detail := now, payload := d }

def cmdHoldRead : CmdSpec :=
  { opcode := 0x0213, cls := 1
    check := fun s f => firstSome
      [ rsv f 4 4, holdReadRange s f, parRefCheck s f 32 [0, 2, 3],
        (if (parRef f 32).kind = 0 then none else refLength 32 (parRef f 32) (par f 24 8)), noTail f 64 ]
    objects := fun s f => firstSome [ holdState s f [2], refRts s f (parRef f 32) ]
    uses := fun _ f => { holdUses f with refs := [parRef f 32] }
    depth := fun _ _ => 1
    slow := fun _ _ => true
    start := fun s a => let o := captureHold s a; modActive a.id (fun a => { a with out := some o }) s
    work := fun s a => deliver s a (parRef a.frame 32) }

/-! ### HOLD_DELETE, HOLD_INFO, HOLD_MAP -/

/-- A bound cargo plan or a vector index uses the hold (R93, R178, R203). -/
def holdBound (s : State) (id : Nat) : Bool :=
  s.plans.any (fun p => p.state != .loaded && p.bindings.any (fun b => b.1 == id)) ||
    s.indexes.any (fun x => x.hold == id)

/-- The superblocks of a deleted hold's runs are left to dredging (R94, R98). -/
def markDeleted (q : Nat) : List Run → State → State
  | [], s => s
  | r :: rs, s => markDeleted q rs (setSb q { sbOf (getQuayMedia s q) r.sb with hadDeleted := true } s)

def cmdHoldDelete : CmdSpec :=
  { opcode := 0x0214, cls := 1
    check := fun _ f => firstSome [ rsv f 4 4, noTail f 8 ]
    objects := fun s f => firstSome
      [ holdState s f [1, 2],
        (holdNamed s f).bind (fun h =>
          need (!objInUse s kHold h.id && !holdBound s h.id) (conflict kHold h.id (holdCode h))) ]
    depth := fun _ _ => 1
    work := fun s a =>
      match holdNamed s a.frame with
      | none => (s, failOut (conflict kHold (par a.frame 0 4) 0))
      | some h =>
        let s1 := markDeleted h.quay h.runs s
        (wornUpdate { s1 with media := { s1.media with
            holds := s1.media.holds.filter (fun x => x.id != h.id)
            fwds := s1.media.fwds.filter (fun x => x.hold != h.id) } }, okOut [] []) }

def cmdHoldInfo : CmdSpec :=
  { opcode := 0x0215, cls := 0
    check := fun _ f => firstSome [ rsv f 4 4, noTail f 8 ]
    objects := fun s f => holdState s f [1, 2]
    uses := fun _ f => holdUses f
    work := fun s a =>
      match holdNamed s a.frame with
      | none => (s, failOut (conflict kHold (par a.frame 0 4) 0))
      | some h => (s, okOut (toLE 8 h.size ++ toLE 8 h.written ++ toLE 2 (holdCode h) ++ toLE 1 h.quay ++ toLE 1 h.berth
          ++ toLE 4 h.runs.length) []) }

def cmdHoldMap : CmdSpec :=
  { opcode := 0x0216, cls := 1, result := true
    check := fun _ f => firstSome [ rsv f 4 4, noTail f 8 ]
    objects := fun s f => holdState s f [2]
    size := mapSize
    uses := fun _ f => holdUses f
    slow := fun _ _ => true
    work := fun s a =>
      match holdNamed s a.frame with
      | none => (s, failOut (conflict kHold (par a.frame 0 4) 0))
      | some h => (s, okOut [] (mapBody h)) }

/-! ### Forwarding -/

/-- 24 h in ns. -/
def dayNs : Nat := 86400000000000

/-- EXPIRES: the PTP time at which the entry has lived 24 h if the module stays in READY or BRACED (R95). -/
def fwdExpires (s : State) (x : Forward) : Nat := ptpNow s + (dayNs - (serviceNs s - x.born))

/-- The 48-byte body of Table 3.11. -/
def fwdBody (s : State) (x : Forward) : Bytes :=
  toLE 4 x.hold ++ zeros 4 ++ toLE 8 x.oldToken.toNat ++ toLE 8 x.newToken.toNat ++ toLE 8 x.offset ++ toLE 8 x.length
    ++ toLE 8 (fwdExpires s x)

/-- RELOC_NOTICE (0x0280) to the berth's NOTICE_DEST. -/
def relocNotice (berth : Nat) (x : Forward) (s : State) : State := berthNotice berth 0x0280 (fwdBody s x) [] s

def dropFwd (hold : Nat) (token : BitVec 64) (s : State) : State :=
  { s with media := { s.media with fwds := s.media.fwds.filter (fun x => !(x.hold == hold && x.oldToken == token)) } }

def cmdRelocAck : CmdSpec :=
  { opcode := 0x0217, cls := 1
    check := fun _ f => firstSome [ rsv f 4 4, noTail f 16 ]
    objects := fun s f => holdState s f [2]
    work := fun s a => (dropFwd (par a.frame 0 4) (BitVec.ofNat 64 (par a.frame 8 8)) s, okOut [] []) }

/-- Forwarding entries of a berth's holds. -/
def fwdsOf (s : State) (b : Nat) : List Forward :=
  s.media.fwds.filter (fun x => ((getHold s x.hold).map (fun h => h.berth == b)).getD false)

def cmdRelocList : CmdSpec :=
  { opcode := 0x0218, cls := 1, result := true
    check := fun _ f => noTail f 0
    size := fun s f => 8 + 48 * (fwdsOf s f.berth).length
    slow := fun _ _ => true
    uses := fun s f => { pin := (fwdsOf s f.berth).length }
    work := fun s a =>
      let l := (fwdsOf s a.frame.berth).take a.pin
      (s, okOut [] (toLE 4 l.length ++ zeros 4 ++ l.flatMap (fwdBody s))) }

end Sys2Proof.Machine
end

