-- ==== Sys2Proof/Machine/Nand.lean ====
section
/-! DEFINITION. What happens on the flash media by itself: page reads, programs and erases ending, retirement,
dredging, wear levelling, the pSLC target, map checkpoints, relocation and the forwarding table, and the quay
links (R76 to R79, R94 to R105, R143, R145). Each row's effect is gated by the rule that lets it happen. -/

namespace Sys2Proof.Machine

/-! ### Retirement (R78) -/

/-- A die retires: what it held is read degraded, and namespace, hold and spare figures follow. -/
def retireDie (q d : Nat) (s : State) : State :=
  if (getQuayMedia s q).retiredDies.contains d then s else
  let mark (x : Superblock) : Superblock := if x.use = .erased then x else { x with deadDies := d :: x.deadDies }
  let s1 := modQuayMedia q (fun m => { m with retiredDies := d :: m.retiredDies, sbs := m.sbs.map mark }) s
  wornUpdate { s1 with
    lb := { s1.lb with diesRetired := satAdd 16 s1.lb.diesRetired 1 }
    eng := { s1.eng with mediaEvents := s1.eng.mediaEvents ||| 2 } }

/-- A block retires; its die retires when more than 10 % of its blocks are grown bad. -/
def retireBlock (q d p b : Nat) (s : State) : State :=
  if (getQuayMedia s q).retired.contains (d, p, b) then s else
  let s1 := modQuayMedia q (fun m => { m with retired := (d, p, b) :: m.retired }) s
  let s2 := { s1 with lb := { s1.lb with
    badGrown := satAdd 32 s1.lb.badGrown 1
    quayBadGrown := s1.lb.quayBadGrown.modify q (fun n => satAdd 32 n 1) } }
  let grown := ((getQuayMedia s2 q).retired.filter (fun x => x.1 == d)).length
  wornUpdate (if 819 < grown then retireDie q d s2 else s2)

/-- A die answered: its run of unanswered commands ends. -/
def dieAnswered (q d : Nat) (s : State) : State :=
  modQuayMedia q (fun m => { m with dieTimeouts := m.dieTimeouts.filter (fun x => x.1 != d) }) s

/-- DIE_COMMAND_TIMEOUT: the third consecutive unanswered command retires the die. -/
def execDieCommandTimeout (t quay die : Nat) (s0 : State) : Host.Outcome State Fault Refusal :=
  let s := setNow t s0
  if !alive s then .next s else
  let n := (((getQuayMedia s quay).dieTimeouts.find? (fun x => x.1 == die)).map (fun x => x.2)).getD 0 + 1
  let s1 := modQuayMedia quay (fun m => { m with dieTimeouts := (die, n) :: m.dieTimeouts.filter (fun x => x.1 != die) }) s
  .next (if 3 ≤ n then retireDie quay die (dieAnswered quay die s1) else s1)

/-! ### Reads (R77, R143) -/

/-- Page reads and page reads with a retry of the last day, by minute. -/
def logRead (q : Nat) (retried : Bool) (s : State) : State :=
  let m := s.now / 60000000000
  let k := if retried then 1 else 0
  modQuay q (fun x =>
    match x.retryLog with
    | (m', r, t) :: l => if m' = m then { x with retryLog := (m, r + 1, t + k) :: l }
        else { x with retryLog := (m, 1, k) :: ((m', r, t) :: l).filter (fun y => decide (m < y.1 + 1440)) }
    | [] => { x with retryLog := [(m, 1, k)] }) s

/-- The data bytes of lost codewords are lost until rewritten, discarded or deleted (R77). -/
def loseCodewords (r : NandRead) (s : State) : State :=
  let ph := physical r.quay r.die r.plane r.block r.page r.pslc
  match r.target with
  | .none => s
  | .hold id off => modHold id (fun h => { h with lost := h.lost ++ r.lost.map (fun c => ((off / 4096 + c) * 4096, ph)) }) s
  | .ns nsid lba => modNs nsid (fun n => { n with lost := n.lost ++ r.lost.map (fun c => (lba + c, ph)) }) s

/-- NAND_READ_COMPLETE: retries, soft reads, corrected bits, rebuilds and losses are counted; a rebuilt page
retires its block; R94's refresh triggers are tested. -/
def execNandReadComplete (t : Nat) (r : NandRead) (s0 : State) : Host.Outcome State Fault Refusal :=
  if !alive s0 then .next (setNow t s0) else
  let s := logRead r.quay (decide (0 < r.retries)) (dieAnswered r.quay r.die (setNow t s0))
  let s1 := { s with lb := { s.lb with correctedBits := satAdd 64 s.lb.correctedBits r.corrected } }
  let s2 := if r.soft then modQuay r.quay (fun q => { q with softReads := satAdd 16 q.softReads 1 }) s1 else s1
  let sb := sbOf (getQuayMedia s2 r.quay) r.block
  let due := !r.failed.isEmpty || decide (4 < r.retries + (if r.soft then 3 else 0))
      || decide (mediaCtl s2 64 16 * 100000 ≤ sb.reads + 1)
  let s3 := if sb.use = .erased then s2 else setSb r.quay { sb with reads := sb.reads + 1, refreshDue := sb.refreshDue || due } s2
  let s4 := if r.failed.any (fun c => !r.lost.contains c) then
      { s3 with lb := { s3.lb with xorRebuilds := satAdd 32 s3.lb.xorRebuilds 1 } } else s3
  let s5 := loseCodewords r s4
  .next (if r.failed.isEmpty then s5 else retireBlock r.quay r.die r.plane r.block s5)

/-! ### Programs and erases -/

/-- The oldest `k` entries of the quay's write buffer go to media, in order. -/
def programOldest (q : Nat) : Nat → List BufEntry → State → List BufEntry × State
  | _, [], s => ([], s)
  | 0, es, s => (es, s)
  | k + 1, e :: es, s =>
    if nsQuay e.nsid e.lba = q then programOldest q k es (programEntry e s)
    else let r := programOldest q (k + 1) es s; (e :: r.1, r.2)

/-- A superblock takes a die program; a pSLC superblock that namespace writes fill counts for R79. -/
def countProgram (p : NandProgram) (s : State) : State :=
  let m := getQuayMedia s p.quay
  let sb := sbOf m p.block
  let wasErased := sb.use == .erased
  let full := decide (progsFull sb.narrow ≤ sb.progs + 1)
  let sb1 := { sb with pslc := (if wasErased then p.pslc else sb.pslc), progs := sb.progs + 1, use := (if full then .full else if wasErased then .open else sb.use) }
  let useBrace := wasErased && erasedSb s p.quay == 0
  modQuayMedia p.quay (fun m => { m with
    braceFree := (if useBrace then m.braceFree - 1 else m.braceFree)
    fillsNow := (if full && sb1.pslc then m.fillsNow + 1 else m.fillsNow) }) (setSb p.quay sb1 s)

/-- NAND_PROGRAM_COMPLETE: data of the write buffer reaches media and writes that waited for space enter the
buffer; a failure retires the block, and its data stays in the buffer. -/
def execNandProgramComplete (t : Nat) (p : NandProgram) (s0 : State) : Host.Outcome State Fault Refusal :=
  if !alive s0 then .next (setNow t s0) else
  let s := dieAnswered p.quay p.die (setNow t s0)
  if p.ok then
    let s1 := countProgram p s
    let r := programOldest p.quay p.entries s1.eng.wbuf s1
    let s2 := { r.2 with
      eng := { r.2.eng with wbuf := r.1 }
      media := { r.2.media with volume := r.2.media.volume + (if p.pslc then 98304 else 294912) } }
    .next (applyWaiting s2)
  else .next (retireBlock p.quay p.die p.plane p.block s)

/-- NAND_ERASE_COMPLETE: a superblock of the latest checkpoint's pending-free list is erased and its generation
rises; blocks that fail retire (R78, R98, R99). No erase happens in BRACED. -/
def execNandEraseComplete (t quay sb : Nat) (failed : List (Nat × Nat)) (s0 : State) : Host.Outcome State Fault Refusal :=
  let s := setNow t s0
  if !alive s then .next s else
  let x := sbOf (getQuayMedia s quay) sb
  if x.use = .inCheckpoint ∧ s.dev.state ≠ .braced then
    let s1 := setSb quay { x with use := .erased, gen := x.gen + 1, erases := x.erases + 1, wear := x.wear + (if x.pslc then 1 else 10),
                                  reads := 0, progs := 0, used := 0, deadDies := [], hadDeleted := false, refreshDue := false } s
    let s2 := modQuayMedia quay (fun m => { m with braceFree := min 4 (m.braceFree + 1) }) s1
    .next (failed.foldl (fun s f => retireBlock quay f.1 f.2 sb s) s2)
  else .next s

/-! ### Dredging (R98, R99, R101) -/

/-- Live hold runs in a superblock: hold id and run. -/
def runsOn (s : State) (q sb : Nat) : List (Nat × Run) :=
  (s.media.holds.filter (fun h => h.quay == q)).flatMap (fun h => (h.runs.filter (fun r => r.sb == sb)).map (fun r => (h.id, r)))

/-- The mode of R101 from the quay's erased superblocks. -/
def dredgeMode (s : State) (q : Nat) : Nat :=
  let e := erasedSb s q
  if s.dev.state = .braced then 3
  else if e < mediaCtl s 24 8 then 2
  else if e < mediaCtl s 16 8 then 1
  else if mediaCtl s 16 8 + 8 ≤ e then 0
  else (if (getQuay s q).dredge = 3 then 0 else (getQuay s q).dredge)

/-- A QUIET window of the tide covers the quay now (R315). -/
def quietOn (s : State) (q : Nat) : Bool :=
  s.tide.openWin.any (fun i =>
    match s.tide.active.entries[i]? with
    | some e => e.quiet && (e.quays == 0 || e.quays.toNat.testBit q)
    | none => false)

/-- Superblocks that dredging can free without moving a hold run. -/
def dredgeable (s : State) (q : Nat) : List Superblock :=
  (getQuayMedia s q).sbs.filter (fun x => (x.use == .full || (x.use == .open && x.hadDeleted)) && (runsOn s q x.no).isEmpty)

/-- DREDGING: the quay settles its mode and, in background or urgent mode, copies the valid units of one
superblock, journals their records and journals it pending-free (steps 1 to 3 of R98). None starts in BRACED or
DRAINING; a QUIET slot defers background dredging; urgent dredging brings the module to P1 (R59). -/
def execDredging (t quay : Nat) (s0 : State) : Host.Outcome State Fault Refusal :=
  let s := setNow t s0
  if !alive s then .next s else
  let m := dredgeMode s quay
  let s1 := modQuay quay (fun q => { q with dredge := m }) s
  let s2 := if m = 2 ∧ 1 < s1.power.current then { s1 with power := { s1.power with current := 1, lastNand := s1.now } } else s1
  if s.dev.state ≠ .ready ∨ (m ≠ 1 ∧ m ≠ 2) ∨ (m = 1 ∧ quietOn s quay) ∨ 1 < s2.power.current ∨ quayLost s quay then .next s2
  else
    let c := dredgeable s2 quay
    match (c.drop (pickBelow s2 c.length)).head? with
    | none => .next s2
    | some v =>
      let s3 := setSb quay { v with use := .pendingFree } (useFresh s2)
      .next { s3 with media := { s3.media with journal := s3.media.journal + 1 } }

/-! ### Relocation (R94 to R97) -/

/-- Codewords of a run that are lost, kept as lost when the run moves (R77). -/
def lostInRun (s : State) (h : Hold) (r : Run) : List (Nat × BitVec 64) :=
  (List.range (ceilDiv r.length 4096)).filterMap (fun i =>
    let o := r.offset / 4096 * 4096 + i * 4096
    (holdByteLost s h o).map (fun p => (o, p)))

/-- The superblock a run leaves becomes pending-free when no live run is left in it. -/
def leaveSb (q sb : Nat) (s : State) : State :=
  if (runsOn s q sb).isEmpty then setSb q { sbOf (getQuayMedia s q) sb with use := .pendingFree } s else s

/-- Moves run number `i` of a hold to a new place: the relocation record, the forwarding entry and the notice,
in that order (R94). -/
def relocateRun (h : Hold) (i : Nat) (r : Run) (s : State) : State :=
  let n := ceilDiv r.length (stripeBytes (quayNarrow s h.quay))
  let p := placeRun h.quay r.offset n r.length (n == 9216) s
  let lost := if 2 ≤ (runSb s h r).deadDies.length then lostInRun s h r else h.lost
  let s1 := modHold h.id (fun x => { x with runs := x.runs.set i p.1, lost := lost }) p.2
  let x : Forward := { hold := h.id, oldToken := tokenOf h r, newToken := tokenOf h p.1, offset := r.offset, length := r.length,
                       born := serviceNs s, lastSent := s.now }
  let s2 := leaveSb h.quay r.sb { s1 with media := { s1.media with fwds := s1.media.fwds ++ [x], journal := s1.media.journal + 1 } }
  relocNotice h.berth x s2

/-- The largest and smallest erase counts of a quay's superblocks. -/
def eraseMax (m : QuayMedia) : Nat := maxNat (m.sbs.map (fun x => x.erases))
def eraseMin (m : QuayMedia) : Nat :=
  if m.sbs.length < 1365 then 0 else (m.sbs.map (fun x => x.erases)).foldl min (eraseMax m)

/-- The cause for which R94 permits a relocation holds for the run's superblock. -/
def causeHolds (s : State) (h : Hold) (r : Run) : RelocCause → Bool
  | .wearLevelling => decide (mediaCtl s 32 12 < eraseMax (getQuayMedia s h.quay) - eraseMin (getQuayMedia s h.quay))
  | .deletedHolds => (runSb s h r).hadDeleted
  | .refresh => (runSb s h r).refreshDue
  | .degraded => !(runSb s h r).deadDies.isEmpty

/-- RELOCATION: only in READY (no copy starts in BRACED or DRAINING), for a cause of R94. A full forwarding table
defers it, except for a refresh, which retires the oldest entry early (R97). -/
def execRelocation (t hold run : Nat) (cause : RelocCause) (s0 : State) : Host.Outcome State Fault Refusal :=
  let s := setNow t s0
  if !alive s then .next s else
  match getHold s hold with
  | none => .next s
  | some h =>
    match h.runs[run]? with
    | none => .next s
    | some r =>
      if s.dev.state ≠ .ready ∨ !h.isSealed ∨ !causeHolds s h r cause ∨ quayLost s h.quay then .next s
      else if 262144 ≤ s.media.fwds.length then
        (if cause = .refresh then
          .next (relocateRun h run r { s with
            media := { s.media with fwds := s.media.fwds.drop 1 }
            lb := { s.lb with fwdEarly := satAdd 32 s.lb.fwdEarly 1 }
            eng := { s.eng with mediaEvents := s.eng.mediaEvents ||| 8 } })
         else .next s)
      else .next (relocateRun h run r s)

/-- NOTICE_REPEAT: RELOC_NOTICE again, every NOTICE_REPEAT seconds until the entry retires (R96). -/
def execNoticeRepeat (t hold : Nat) (token : BitVec 64) (s0 : State) : Host.Outcome State Fault Refusal :=
  let s := setNow t s0
  if !alive s then .next s else
  match forwardFor s hold token.toNat, getHold s hold with
  | some x, some h =>
    if x.lastSent + mediaCtl s 48 16 * 1000000000 ≤ s.now then
      let x1 := { x with lastSent := s.now }
      .next (relocNotice h.berth x1 { s with media := { s.media with
        fwds := s.media.fwds.map (fun y => if y.hold == hold && y.oldToken == token then x1 else y) } })
    else .next s
  | _, _ => .next s

/-- FORWARDING_EXPIRY: 24 h of READY and BRACED time retire the entry (R95). -/
def execForwardingExpiry (t hold : Nat) (token : BitVec 64) (s0 : State) : Host.Outcome State Fault Refusal :=
  let s := setNow t s0
  if !alive s then .next s else
  match forwardFor s hold token.toNat with
  | none => .next s
  | some x =>
    if x.born + dayNs ≤ serviceNs s then
      let s1 := dropFwd hold token s
      .next { s1 with lb := { s1.lb with fwdExpired := satAdd 32 s1.lb.fwdExpired 1 } }
    else .next s

/-! ### Wear levelling, the pSLC target and map checkpoints -/

/-- The least-erased superblock that holds data. -/
def leastErased (m : QuayMedia) : Option Superblock :=
  (m.sbs.filter (fun x => (x.use == .open || x.use == .full))).foldl
    (fun b x => match b with
      | none => some x
      | some y => if x.erases < y.erases then some x else some y) none

/-- The most-erased free superblock. -/
def mostErased (m : QuayMedia) : Option Superblock :=
  (m.sbs.filter (fun x => x.use == .erased)).foldl
    (fun b x => match b with
      | none => some x
      | some y => if y.erases < x.erases then some x else some y) none

/-- Relocates every live run of a list (wear levelling moves them one by one). -/
def relocateAll : List (Nat × Run) → State → State
  | [], s => s
  | (id, r) :: l, s =>
    match getHold s id with
    | none => relocateAll l s
    | some h =>
      let i := h.runs.findIdx (fun x => x.sb == r.sb && x.stripe == r.stripe)
      relocateAll l (if s.media.fwds.length < 262144 then relocateRun h i r s else s)

/-- WEAR_LEVELLING: when erase counts differ by more than WL_DELTA, the data of the least-erased superblock moves
into the most-erased free one; hold runs move under R94 (R102). -/
def execWearLevelling (t quay : Nat) (s0 : State) : Host.Outcome State Fault Refusal :=
  let s := setNow t s0
  if !alive s then .next s else
  let m := getQuayMedia s quay
  if s.dev.state ≠ .ready ∨ quietOn s quay ∨ 1 < s.power.current ∨ eraseMax m - eraseMin m ≤ mediaCtl s 32 12 then .next s
  else
    match leastErased m, mostErased m with
    | some v, some d =>
      let runs := runsOn s quay v.no
      if runs.isEmpty then
        .next (setSb quay { v with use := .pendingFree }
          (setSb quay { d with use := v.use, pslc := v.pslc, progs := v.progs, used := v.used, narrow := v.narrow } s))
      else .next (relocateAll runs s)
    | _, _ => .next s

/-- PSLC_POOL_TARGET: once a minute the target becomes 32 plus the busiest minute of the last 60, at most 256
(R79). -/
def execPslcPoolTarget (t quay : Nat) (s0 : State) : Host.Outcome State Fault Refusal :=
  let s := setNow t s0
  if !alive s then .next s else
  if (getQuayMedia s quay).targetAt + 60000000000 ≤ s.now then
    .next (modQuayMedia quay (fun m =>
      let fills := (m.fillsNow :: m.fills).take 60
      { m with fills := fills, fillsNow := 0, targetAt := s.now, target := min 256 (32 + maxNat fills) }) s)
  else .next s

/-- A map checkpoint: it covers the journal, takes the pending-free list, and carries the LB counters and PTP time
(R99, R103, R309, R385). -/
def mapCheckpoint (s : State) : State :=
  let take (x : Superblock) : Superblock := if x.use = .pendingFree then { x with use := .inCheckpoint } else x
  { s with
    lbSaved := if s.logbook.readOnly then s.lbSaved else s.lb
    media := { s.media with
      ckpt := { atLocal := s.now, ptp := ptpNow s, journalNo := s.media.journal }
      volume := 0
      quays := s.media.quays.map (fun m => { m with sbs := m.sbs.map take }) } }

/-- MAP_CHECKPOINT: every CKPT_INTERVAL, or when CKPT_VOLUME has been programmed (R103). -/
def execMapCheckpoint (t : Nat) (s0 : State) : Host.Outcome State Fault Refusal :=
  let s := setNow t s0
  if !alive s then .next s else
  let up := s.dev.state == .ready || s.dev.state == .braced || s.dev.state == .draining
  if up && (decide (s.media.ckpt.atLocal + mediaCtl s 80 8 * 1000000000 ≤ s.now) || decide (mediaCtl s 88 8 * 2 ^ 30 ≤ s.media.volume)) then
    .next (mapCheckpoint s)
  else .next s

/-! ### Quay links (R145) -/

/-- QUAY_LINK_LOSS: the link loses lock or exceeds 16 replays in 1 ms; `resent` flits were resent. -/
def execQuayLinkLoss (t quay resent : Nat) (s0 : State) : Host.Outcome State Fault Refusal :=
  let s := setNow t s0
  if !alive s then .next s else
  .next (modQuay quay (fun q => { q with
    replays := satAdd 32 q.replays resent
    link := (if q.link = .up then .training 1 s.now else q.link) }) s)

/-- The namespace has a chunk on the quay (R82). -/
def nsOnQuay (n : Namespace) (q : Nat) : Bool :=
  (List.range (min 24 (ceilDiv n.blocks 128))).any (fun c => (c + n.nsid) % 24 == q)

/-- The quay is LOST until the next reset: namespaces with a chunk on it go OFFLINE. -/
def loseQuay (q : Nat) (s : State) : State :=
  let s1 := modQuay q (fun x => { x with link := .lost }) s
  { s1 with media := { s1.media with nss := s1.media.nss.map (fun n => if nsOnQuay n q then { n with state := .offline } else n) } }

/-- QUAY_LINK_TRAIN_TIMEOUT: an attempt ends after 1 ms; the third failure loses the quay. -/
def execQuayLinkTrainTimeout (t quay : Nat) (s0 : State) : Host.Outcome State Fault Refusal :=
  let s := setNow t s0
  if !alive s then .next s else
  match (getQuay s quay).link with
  | .training n since =>
    if since + 1000000 ≤ s.now then
      (if n < 3 then .next (modQuay quay (fun q => { q with link := .training (n + 1) s.now }) s)
       else .next (loseQuay quay s))
    else .next s
  | _ => .next s

/-- QUAY_LINK_LOCK: the attempt succeeds and waiting traffic resumes without loss. -/
def execQuayLinkLock (t quay : Nat) (s0 : State) : Host.Outcome State Fault Refusal :=
  let s := setNow t s0
  if !alive s then .next s else
  match (getQuay s quay).link with
  | .training _ _ => .next (modQuay quay (fun q => { q with link := .up }) s)
  | _ => .next s

end Sys2Proof.Machine
end

