-- ==== Sys2Proof/Machine/Thermal.lean ====
section
/-! DEFINITION. Heat and input power: the temperature filters (R147, R448), thermal steps and trips (Table 18.12, R449), power
steps (R447), and the rows that drive them. Temperatures are in 1/16 °C. -/

namespace Sys2Proof.Machine

def modThermal (g : Thermal → Thermal) (s : State) : State := { s with thermal := g s.thermal }

/-! ### Sensors -/

/-- The 40 sensors of Table 1.1. -/
def sensorExists : Sensor → Bool
  | .quay q => decide (q < 24)
  | .compute d i => decide (d < 2 ∧ i < 4)
  | .ioDie i => decide (i < 2)
  | .regulator i => decide (i < 4)
  | .inlet => true
  | .outlet => true

def sensorState (s : State) (x : Sensor) : SensorState := (s.thermal.sensors.find? (fun y => y.sensor == x)).getD { sensor := x }

def modSensor (x : Sensor) (g : SensorState → SensorState) (s : State) : State :=
  modThermal (fun t => { t with sensors := g (sensorState s x) :: t.sensors.filter (fun y => y.sensor != x) }) s

/-- The median of the valid samples present; of two or four the higher of the two in the middle. -/
def medianOf (l : List Int) : Option Int := (sortBy (fun a b => decide (a ≤ b)) l)[l.length / 2]?

/-- The filtered temperature. A faulty inlet sensor is taken as 40 °C. -/
def filtered (s : State) (x : Sensor) : Option Int :=
  let y := sensorState s x
  if x = .inlet ∧ y.fault then some 640 else medianOf y.samples

/-- The thresholds of a sensor's steps (Table 18.12). -/
def stepsOf : Sensor → List Int
  | .quay _ => [1280, 1360, 1440, 1600]
  | .compute _ _ => [1520, 1632]
  | .regulator _ => [1760]
  | .inlet => [800]
  | .ioDie _ => []
  | .outlet => []

/-- The trip threshold and its OPEN_CAUSE. -/
def tripOf : Sensor → Option (Int × Nat)
  | .quay _ => some (1760, 1)
  | .compute _ _ => some (1840, 2)
  | .ioDie _ => some (1760, 3)
  | .regulator _ => some (2000, 4)
  | .inlet => none
  | .outlet => none

/-! ### Steps in force -/

/-- A sensor's step as its row gives it when it is faulty. -/
def sensorStep (s : State) (x : Sensor) : Nat :=
  let y := sensorState s x
  if !y.fault then y.step
  else match x with
    | .quay _ => 3
    | .compute d _ => if (List.range 4).all (fun i => (sensorState s (.compute d i)).fault) then 2 else 1
    | .regulator _ => 1
    | _ => 0

def inletHot (s : State) : Nat := sensorStep s .inlet

/-- Both sensors of the I/O die are faulty: power step 3. -/
def powerStep (s : State) : Nat := if (List.range 2).all (fun i => (sensorState s (.ioDie i)).fault) then 3 else s.thermal.powerStep

/-- The throttle level of a quay: the most restrictive of its own, the power step's, the inlet's and THROTTLE_MIN. -/
def quayLevel (s : State) (q : Nat) : Nat :=
  maxNat [sensorStep s (.quay q), powerStep s - 1, inletHot s, bits s.regs.quayControl.toNat 5 3]

/-- The step of a compute die's crane arrays. -/
def craneStep (s : State) (d : Nat) : Nat := maxNat (inletHot s :: (List.range 4).map (fun i => sensorStep s (.compute d i)))

/-- The crane arrays of a die stop at the next boundary. -/
def craneStopped (s : State) (d : Nat) : Bool := craneStep s d == 2 || powerStep s == 3

/-- L of R447: POWER_LIMIT, and at most 1,500 W under a regulator's limit. -/
def powerLimit (s : State) : Nat :=
  let l := bits s.regs.thermalControl.toNat 0 12
  if (List.range 4).any (fun i => decide (0 < sensorStep s (.regulator i))) then min l 1500 else l

/-- Any step is active. -/
def anyStep (s : State) : Bool :=
  decide (0 < powerStep s) || s.thermal.sensors.any (fun y => decide (0 < sensorStep s y.sensor))

/-- THROTTLE_MS counts while any step is active. -/
def trackSteps (s : State) : State :=
  match anyStep s, s.thermal.stepFrom with
  | true, none => modThermal (fun t => { t with stepFrom := some s.now }) s
  | false, some x => modThermal (fun t => { t with stepFrom := none, throttleMs := satAdd 32 t.throttleMs ((s.now - x) / 1000000) }) s
  | _, _ => s

def throttleMs (s : State) : Nat :=
  clampTo 32 (s.thermal.throttleMs + ((s.thermal.stepFrom.map (fun x => (s.now - x) / 1000000)).getD 0))

def thermalEvent (b : BitVec 4) (s : State) : State := modThermal (fun t => { t with events := t.events ||| b }) s

/-! ### Samples -/

/-- LB figures of a quay die: extremes, and minutes above 70 °C and 85 °C. -/
def quayHeat (q : Nat) (v : Int) (s : State) : State :=
  let y := sensorState s (.quay q)
  let a := y.above70 + (if 1120 < v then 1 else 0)
  let b := y.above85 + (if 1360 < v then 1 else 0)
  let s1 := modSensor (.quay q) (fun y => { y with above70 := a % 60000, above85 := b % 60000 }) s
  { s1 with lb := { s1.lb with
      quayTempMax := s1.lb.quayTempMax.modify q (fun m => max m v), quayTempMin := s1.lb.quayTempMin.modify q (fun m => min m v),
      minAbove70 := s1.lb.minAbove70.modify q (fun m => satAdd 32 m (a / 60000)), minAbove85 := s1.lb.minAbove85.modify q (fun m => satAdd 32 m (b / 60000)) } }

/-- A filtered temperature enters the steps it reaches, and starts or breaks the second of each step it could leave. -/
def applyTemp (x : Sensor) (v : Int) (s : State) : State :=
  let th := stepsOf x
  let y := sensorState s x
  let n := max y.step (th.filter (fun a => decide (a ≤ v))).length
  let cool := (List.range th.length).map (fun i => if v ≤ th.getD i 0 - 48 then some (((y.cool.getD i none)).getD s.now) else none)
  let s1 := modSensor x (fun y => { y with step := n, cool := cool }) s
  let s2 := if y.step < n then thermalEvent 1 s1 else s1
  let s3 := if x = .inlet ∧ 640 ≤ v then thermalEvent 8 s2 else s2
  match x with
  | .quay q => quayHeat q v s3
  | _ => s3

/-- A valid sample; the hundredth in a row clears a fault. -/
def validTemp (x : Sensor) (v : Int) (s : State) : State :=
  let s1 := modSensor x (fun y =>
    let run := if y.fault then y.run + 1 else 0
    let ok := !y.fault || decide (100 ≤ run)
    { y with samples := (v :: y.samples).take 5, lastAt := s.now, fault := !ok, run := if ok then 0 else run }) s
  match medianOf (sensorState s1 x).samples with
  | some m => applyTemp x m s1
  | none => s1

/-- The rails are on. -/
def powered (s : State) : Bool := s.dev.state != .powered

/-- TEMPERATURE_SAMPLE: a sample outside −40 °C to +150 °C is discarded. -/
def execTemperatureSample (t : Nat) (x : Sensor) (v : Int) (s0 : State) : Host.Outcome State Fault Refusal :=
  let s := setNow t s0
  if !powered s || !sensorExists x then .next s
  else if v < -640 ∨ 2400 < v then .next (trackSteps (modSensor x (fun y => { y with run := 0 }) s))
  else .next (trackSteps (validTemp x v s))

/-- TEMP_SENSOR_TIMEOUT: 10 ms without a valid sample. -/
def execTempSensorTimeout (t : Nat) (x : Sensor) (s0 : State) : Host.Outcome State Fault Refusal :=
  let s := setNow t s0
  let y := sensorState s x
  if powered s ∧ sensorExists x ∧ !y.fault ∧ max y.lastAt s.dev.trialAt + 10000000 ≤ s.now then
    let s1 := modSensor x (fun y => { y with fault := true, run := 0 }) s
    .next (trackSteps (thermalEvent 4 (modThermal (fun t => { t with faults := satAdd 16 t.faults 1 }) s1)))
  else .next s

/-- THERMAL_STEP_EXIT: the temperature has stayed 3 °C below the step's threshold for 1 s. -/
def execThermalStepExit (t : Nat) (x : Sensor) (s0 : State) : Host.Outcome State Fault Refusal :=
  let s := setNow t s0
  let y := sensorState s x
  match (if y.step = 0 then none else y.cool.getD (y.step - 1) none) with
  | some c =>
    if c + 1000000000 ≤ s.now then .next (trackSteps (modSensor x (fun y => { y with step := y.step - 1 }) s)) else .next s
  | none => .next s

/-- The input switch opens (R439): the first cause is recorded, and an opening while the switch is open or a flush runs changes
nothing. -/
def openSwitch (cause : Nat) (s : State) : State :=
  if s.side.switchClosed ∧ s.pf.flushAt = none then { s with side := { s.side with switchClosed := false, openCause := cause } } else s

/-- THERMAL_TRIP: the comparators find a filtered temperature at its trip point; TRIPPED and the cause are latched and the
switch opens (R449). During a flush the trip latches and the flush completes. -/
def execThermalTrip (t : Nat) (x : Sensor) (s0 : State) : Host.Outcome State Fault Refusal :=
  let s := setNow t s0
  match tripOf x, filtered s x with
  | some (th, cause), some v =>
    if powered s ∧ th ≤ v ∧ s.side.tripped = 0 then
      let s1 := openSwitch cause s
      .next { s1 with side := { s1.side with tripped := cause, tripNote := s1.side.tripNote + 1, switchClosed := false } }
    else .next s
  | _, _ => .next s

/-! ### Input power (R447) -/

/-- The 1 ms average in W exceeds or lies below a bound, compared exactly. -/
def powerAvg (s : State) : Nat := if s.thermal.samples.isEmpty then 0 else sumNat s.thermal.samples / s.thermal.samples.length

def avgAbove (s : State) (w : Nat) : Bool := decide (w * s.thermal.samples.length < sumNat s.thermal.samples)
def avgBelow (s : State) (w : Nat) : Bool := decide (sumNat s.thermal.samples < w * s.thermal.samples.length)

/-- POWER_SAMPLE: every 100 µs. A sample outside 0–3,000 W is discarded. -/
def execPowerSample (t : Nat) (watts : Int) (s0 : State) : Host.Outcome State Fault Refusal :=
  let s := setNow t s0
  if !powered s then .next s
  else if watts < 0 ∨ 3000 < watts then .next (modThermal (fun x => { x with validFrom := none }) s)
  else
    let s1 := modThermal (fun x => { x with
      samples := (watts.toNat :: x.samples).take 10, lastPower := s.now,
      validFrom := (if x.powerFault then some (x.validFrom.getD s.now) else none) }) s
    let done := (s1.thermal.validFrom.map (fun v => decide (v + 10000000 ≤ s1.now))).getD false
    let s2 := if s1.thermal.powerFault ∧ done then modThermal (fun x => { x with powerFault := false, validFrom := none }) s1 else s1
    let l := powerLimit s2
    let up := avgAbove s2 (l - 40) && decide (s2.thermal.powerStep < 3 ∧ (s2.thermal.powerStep = 0 ∨ s2.thermal.stepAt + 1000000 ≤ s2.now))
    let s3 := if up then thermalEvent 1 (modThermal (fun x => { x with powerStep := x.powerStep + 1, stepAt := s2.now }) s2) else s2
    let s4 := modThermal (fun x => { x with lowFrom := if avgBelow s3 (l - 150) then some (x.lowFrom.getD s3.now) else none }) s3
    .next (trackSteps s4)

/-- POWER_SAMPLE_TIMEOUT: no valid sample for 1 ms: power step 3. -/
def execPowerSampleTimeout (t : Nat) (s0 : State) : Host.Outcome State Fault Refusal :=
  let s := setNow t s0
  if powered s ∧ max s.thermal.lastPower s.dev.trialAt + 1000000 ≤ s.now then
    let s1 := if s.thermal.powerStep < 3 then thermalEvent 1 s else s
    .next (trackSteps (modThermal (fun x => { x with powerStep := 3, stepAt := s.now, powerFault := true, validFrom := none, samples := [] }) s1))
  else .next s

/-- POWER_STEP_EXIT: the average has stayed below L − 150 W for 10 ms; the next step takes 10 ms more. -/
def execPowerStepExit (t : Nat) (s0 : State) : Host.Outcome State Fault Refusal :=
  let s := setNow t s0
  match s.thermal.lowFrom with
  | some x =>
    if x + 10000000 ≤ s.now ∧ 0 < s.thermal.powerStep ∧ !s.thermal.powerFault then
      .next (trackSteps (modThermal (fun y => { y with powerStep := y.powerStep - 1, lowFrom := some s.now, stepAt := s.now }) s))
    else .next s
  | none => .next s

end Sys2Proof.Machine
end

