-- ==== Sys2Proof/Machine/Tide.lean ====
section
/-! DEFINITION. The tide table: TIDE_LOAD and TIDE_READ, the windows of its entries, the switch of tables, and the
granting of engines at part boundaries (R311 to R316). -/

namespace Sys2Proof.Machine

/-! ### Tables -/

/-- The 32-byte entry at payload offset `off` (Table 11.7). -/
def readEntry (bs : Bytes) (off : Nat) : TideEntry :=
  let fl := getLE bs (off + 9) 1
  { start := getLE bs off 4, length := getLE bs (off + 4) 4, owner := getLE bs (off + 8) 1, backfill := fl.testBit 0, vaultSlot := fl.testBit 1,
    quiet := fl.testBit 2, cranes := BitVec.ofNat 8 (getLE bs (off + 10) 1), quays := BitVec.ofNat 24 (getLE bs (off + 12) 3),
    guardNs := getLE bs (off + 16) 4 }

def entryBytesOf (e : TideEntry) : Bytes :=
  toLE 4 e.start ++ toLE 4 e.length ++ toLE 1 e.owner
    ++ toLE 1 ((if e.backfill then 1 else 0) + (if e.vaultSlot then 2 else 0) + (if e.quiet then 4 else 0))
    ++ toLE 1 e.cranes.toNat ++ zeros 1 ++ toLE 4 e.quays.toNat ++ toLE 4 e.guardNs ++ zeros 12

def entriesOf (f : Frame) : List TideEntry := (List.range (par f 8 2)).map (fun i => readEntry f.payload (32 * i))

/-- Length of an entry's window: guard and slot. -/
def winLen (e : TideEntry) : Nat := e.guardNs + e.length

/-- Where the window starts within the cycle. -/
def winStart (cycle : Nat) (e : TideEntry) : Nat := (e.start + cycle - e.guardNs % cycle) % cycle

/-- Two windows share an instant of the cycle. -/
def windowsMeet (cycle : Nat) (x y : TideEntry) : Bool :=
  let a := winStart cycle x
  let b := winStart cycle y
  decide ((b + cycle - a) % cycle < winLen x ∨ (a + cycle - b) % cycle < winLen y)

def shareEngine (x y : TideEntry) : Bool := x.cranes &&& y.cranes != 0 || x.quays &&& y.quays != 0

/-- An array or a quay that the entry names is not in service (R312). -/
def entryAbsent (s : State) (e : TideEntry) : Bool :=
  (List.range 8).any (fun n => e.cranes.toNat.testBit n && !unitBit s n) ||
    (List.range 24).any (fun q => e.quays.toNat.testBit q && quayLost s q)

/-- The field checks of one entry, the `i`-th (Table 11.7). -/
def entryFields (f : Frame) (cycle i : Nat) : Option Refuse :=
  let o := 32 * i
  firstSome
    [ payIn f o 4 (if i = 0 then 0 else pay f (o - 32) 4) (cycle - 1), payIn f (o + 4) 4 1000 (cycle - pay f o 4),
      payIn f (o + 8) 1 0 15, payBitsIn f (o + 9) 1 3 5 0 0, payIn f (o + 11) 1 0 0, payBitsIn f (o + 12) 4 24 8 0 0,
      payIn f (o + 16) 4 0 (min 1000000 (cycle - pay f (o + 4) 4)), payIn f (o + 20) 12 0 0 ]

/-- R312: an entry that meets an earlier one on a common engine, or names an absent engine, is named. -/
def entryConflict (s : State) (f : Frame) (cycle i : Nat) : Option Refuse :=
  let l := entriesOf f
  match l[i]? with
  | none => none
  | some e =>
    need (!entryAbsent s e && !(l.take i).any (fun x => shareEngine x e && windowsMeet cycle x e))
      (badField (payLoc f (32 * i)) 0 256 0 0)

def tideLoadCheck (s : State) (f : Frame) : Option Refuse :=
  let c := par f 0 4
  firstSome
    [ need (decide (100000 ≤ c ∧ c ≤ 1000000000 ∧ 1000000000 % c = 0)) (badBytes 0 4 100000 1000000000),
      inRange f 4 4 0 (c - 1), inRange f 8 2 0 64, rsv f 10 6, noTail f 24, payloadIs f (32 * par f 8 2),
      firstSome ((List.range (par f 8 2)).map (entryFields f c)),
      firstSome ((List.range (par f 8 2)).map (entryConflict s f c)) ]

/-- The first cycle start of the table at or after `at0` (R311, R316). -/
def cycleStart (cycle phase at0 : Nat) : Nat :=
  if at0 ≤ phase then phase else phase + ceilDiv (at0 - phase) cycle * cycle

def cmdTideLoad : CmdSpec :=
  { opcode := 0x0710, cls := 2
    check := tideLoadCheck
    needs := fun s _ => logOk s
    work := fun s a =>
      let f := a.frame
      let sw := cycleStart (par f 0 4) (par f 4 4) (max (par f 16 8) (ptpNow s + 1000000))
      let t : TideTable := { cycle := par f 0 4, phase := par f 4 4, entries := entriesOf f, switchAt := sw }
      ({ s with tide := { s.tide with pending := some t } }, okOut (toLE 8 sw) []) }

def cmdTideRead : CmdSpec :=
  { opcode := 0x0711, cls := 0
    check := fun _ f => firstSome [ inRange f 0 1 0 1, rsv f 1 7, noTail f 8 ]
    objects := fun s f => need (par f 0 1 == 0 || s.tide.pending.isSome) conflictNone
    work := fun s a =>
      match (if par a.frame 0 1 = 0 then some s.tide.active else s.tide.pending) with
      | none => (s, failOut conflictNone)
      | some t => (s, okOut (toLE 4 t.cycle ++ toLE 4 t.phase ++ toLE 2 t.entries.length ++ zeros 6 ++ toLE 8 t.switchAt)
          (t.entries.flatMap entryBytesOf)) }

/-! ### Windows -/

/-- The position of a PTP time in the table's cycle. -/
def cyclePos (t : TideTable) (ptp : Nat) : Nat := (ptp + t.cycle - t.phase % t.cycle) % t.cycle

/-- The instant lies in the window of the entry. -/
def inWindow (t : TideTable) (e : TideEntry) (ptp : Nat) : Bool :=
  decide ((cyclePos t ptp + t.cycle - winStart t.cycle e) % t.cycle < winLen e)

/-- The instant lies in the guard of the entry's window. -/
def inGuard (t : TideTable) (e : TideEntry) (ptp : Nat) : Bool :=
  decide ((cyclePos t ptp + t.cycle - winStart t.cycle e) % t.cycle < e.guardNs)

/-- The windows that hold the instant. -/
def openWindows (t : TideTable) (ptp : Nat) : List Nat :=
  (List.range t.entries.length).filter (fun i => ((t.entries[i]?).map (fun e => inWindow t e ptp)).getD false)

/-- Engines that the entry names and that run another berth's part now. -/
def foreignGrants (s : State) (entry : Nat) : List (Nat × Engine) :=
  match s.tide.active.entries[entry]? with
  | none => []
  | some x => (s.eng.grants.filter (fun g => (match g.1 with
      | .crane n => x.cranes.toNat.testBit n
      | .quayArray q => x.quays.toNat.testBit q
      | .scoring q => x.quays.toNat.testBit q) && g.2.1 != x.owner)).map (fun g => (entry, g.1))

/-- TIDE_WINDOW_START: the entry's window begins; its engines are withdrawn toward the owner (R313, R315). -/
def execTideWindowStart (t entry : Nat) (s0 : State) : Host.Outcome State Fault Refusal :=
  let s := setNow t s0
  if !alive s then .next s else
  if (openWindows s.tide.active (ptpNow s)).contains entry && !s.tide.openWin.contains entry then
    .next { s with tide := { s.tide with
      openWin := entry :: s.tide.openWin, counted := s.tide.counted.filter (fun i => i != entry)
      atStart := foreignGrants s entry ++ s.tide.atStart.filter (fun x => x.1 != entry) } }
  else .next s

/-- TIDE_WINDOW_END: the window is over and its engines return to open water. -/
def execTideWindowEnd (t entry : Nat) (s0 : State) : Host.Outcome State Fault Refusal :=
  let s := setNow t s0
  if !alive s then .next s else
  if s.tide.openWin.contains entry && !(openWindows s.tide.active (ptpNow s)).contains entry then
    .next { s with tide := { s.tide with openWin := s.tide.openWin.filter (fun i => i != entry) } }
  else .next s

/-- TIDE_TABLE_SWITCH: the pending table becomes active; slots of the old one end (R316). -/
def execTideTableSwitch (t : Nat) (s0 : State) : Host.Outcome State Fault Refusal :=
  let s := setNow t s0
  if !alive s then .next s else
  match s.tide.pending with
  | none => .next s
  | some p =>
    if p.switchAt ≤ ptpNow s then
      .next { s with tide := { s.tide with active := p, pending := none, since := p.switchAt, openWin := openWindows p (ptpNow s), counted := [], atStart := [] } }
    else .next s

/-! ### Grants (R313, R314) -/

/-- Which kinds of engine the work of an opcode uses. -/
def usesEngine (s : State) (a : Active) : Engine → Bool
  | .crane _ => a.opcode == 0x0305 || a.opcode == 0x0310 || ((a.opcode == 0x0403 || a.opcode == 0x0405) && unitBit s 23)
  | .quayArray _ => a.opcode == 0x0305 || a.opcode == 0x0310 || (a.opcode == 0x0405 && !unitBit s 23)
  | .scoring _ => a.opcode == 0x0405

/-- The berth has ready work for the engine: a started command that uses it, in a berth that is not SUSPENDED. -/
def readyFor (s : State) (e : Engine) (b : Nat) : Bool :=
  (getBerth s b).state == .moored && s.cmds.active.any (fun a => a.frame.berth == b && a.phase == 3 && usesEngine s a e)

def entryNames (e : Engine) (x : TideEntry) : Bool :=
  match e with
  | .crane n => x.cranes.toNat.testBit n
  | .quayArray q => x.quays.toNat.testBit q
  | .scoring q => x.quays.toNat.testBit q

/-- The open entry whose slot the engine is in: it names the engine and its OWNER is MOORED. -/
def slotOf (s : State) (e : Engine) : Option (Nat × TideEntry) :=
  s.tide.openWin.findSome? (fun i =>
    match s.tide.active.entries[i]? with
    | some x => if entryNames e x ∧ (getBerth s x.owner).state = .moored then some (i, x) else none
    | none => none)

/-- The present grant of an engine: berth, and parts of its turn already run. -/
def grantOf (s : State) (e : Engine) : Option (Nat × Nat) :=
  (s.eng.grants.find? (fun g => g.1 == e)).map (fun g => g.2)

/-- The next berth in ascending order after `b`, wrapping, that has ready work. -/
def nextBerth (s : State) (e : Engine) (b : Nat) : Option Nat :=
  ((List.range 16).map (fun i => (b + 1 + i) % 16)).find? (readyFor s e)

/-- Open water: the present berth keeps its turn for WEIGHT consecutive parts, then the next berth follows. -/
def openWater (s : State) (e : Engine) : Option (Nat × Nat) :=
  match grantOf s e with
  | some (b, n) => if n < turnWeight s b ∧ readyFor s e b then some (b, n + 1) else (nextBerth s e b).map (fun c => (c, 1))
  | none => (nextBerth s e 15).map (fun c => (c, 1))

/-- Who runs the engine's next part (R313). -/
def nextGrant (s : State) (e : Engine) : Option (Nat × Nat) :=
  match slotOf s e with
  | none => openWater s e
  | some (_, x) =>
    if readyFor s e x.owner then some (x.owner, 1)
    else if x.backfill && !inGuard s.tide.active x (ptpNow s) then openWater s e
    else none

/-- A slot at whose start another berth's part was still running counts once, with the owner's delay (R313). -/
def countLate (e : Engine) (s : State) : State :=
  match slotOf s e, grantOf s e with
  | some (i, x), some (b, _) =>
    if b ≠ x.owner ∧ s.tide.atStart.contains (i, e) ∧ !inGuard s.tide.active x (ptpNow s) ∧ !s.tide.counted.contains i then
      let late := (cyclePos s.tide.active (ptpNow s) + s.tide.active.cycle - x.start) % s.tide.active.cycle
      modBerth x.owner (fun y => { y with use := { y.use with lateMax := clampTo 32 (max y.use.lateMax (ceilDiv late 1000)) } })
        { s with tide := { s.tide with late := satAdd 32 s.tide.late 1, counted := i :: s.tide.counted } }
    else s
  | _, _ => s

/-- A crane array that passes to another berth's operation counts a switch (Table 6.6). -/
def countSwitch (e : Engine) (b : Nat) (s : State) (old : Option (Nat × Nat)) : State :=
  match e, old with
  | .crane n, some (c, _) =>
    if c = b then s else { s with eng := { s.eng with cranes := s.eng.cranes.modify n (fun x => { x with switches := satAdd 32 x.switches 1 }) } }
  | _, _ => s

/-- A step has stopped the engine: its work waits (Tables 18.10 and 18.12). -/
def engineStopped (s : State) : Engine → Bool
  | .crane n => craneStopped s (n / 4)
  | _ => false

/-- ENGINE_PART_BOUNDARY: the engine holds nothing and is granted to the next work. -/
def execEnginePartBoundary (t : Nat) (e : Engine) (s0 : State) : Host.Outcome State Fault Refusal :=
  if !alive s0 then .next (setNow t s0) else
  let s1 := countLate e (setNow t s0)
  let s := { s1 with tide := { s1.tide with atStart := s1.tide.atStart.filter (fun x => x.2 != e) } }
  let others := s.eng.grants.filter (fun g => g.1 != e)
  match (if engineStopped s e then none else nextGrant s e) with
  | some (b, n) => .next (countSwitch e b { s with eng := { s.eng with grants := (e, b, n) :: others } } (grantOf s e))
  | none => .next { s with eng := { s.eng with grants := others } }

end Sys2Proof.Machine
end

