-- ==== Sys2Proof/Machine/Clock.lean ====
section
/-! DEFINITION. Network time: the PTP messages, the best master clock, the servo and its states, and the pulse
output (R306 to R310, R444). -/

namespace Sys2Proof.Machine

def ptpBits (s : State) (lo w : Nat) : Nat := bits s.regs.ptpConfig.toNat lo w

def modClock (g : Clock → Clock) (s : State) : State := { s with clock := g s.clock }

/-- A discarded message or measurement counts in REJECTS (R308). -/
def reject (s : State) : State := modClock (fun c => { c with rejects := satAdd 32 c.rejects 1 }) s

/-- DOMAIN, versionPTP and PORTS accept the message. -/
def ptpAccepts (s : State) (m : PtpMsg) : Bool :=
  m.domain == ptpBits s 0 8 && m.version == 2 && (ptpBits s 8 8).testBit m.port

/-- The message comes from the selected master. -/
def fromMaster (s : State) (m : PtpMsg) : Bool :=
  (s.clock.selected.map (fun x => x.master == m.master && x.port == m.port)).getD false

/-- The clock runs from the start of management firmware (R427). -/
def clockRuns (s : State) : Bool := s.boot.mgmtUp && s.dev.state != .powered

/-! ### The best master clock -/

/-- The better of two masters: lower rank, then the lower port. -/
def betterMaster (x y : Master) : Master :=
  if y.priority < x.priority ∨ (y.priority = x.priority ∧ y.port < x.port) then y else x

/-- Masters heard within three Announce intervals. -/
def heard (now : Nat) (l : List Master) : List Master := l.filter (fun m => decide (now ≤ m.last + 3 * m.interval))

def bestMaster : List Master → Option Master
  | [] => none
  | m :: l => match bestMaster l with
    | none => some m
    | some x => some (betterMaster m x)

/-- Entry to HOLDOVER: the frequency correction is held at its mean over the last 60 s, and the error bound starts from the
largest filtered offset of the last 64 s (R309, Table 11.13; log entry 20). -/
def enterHoldover (s : State) : State :=
  let c := s.clock
  let f := (c.freqLog.filter (fun x => decide (s.now ≤ x.1 + 60000000000))).map (fun x => x.2)
  let mean : Int := if f.isEmpty then c.freqPpb else f.foldl (fun a x => a + x) 0 / (f.length : Int)
  { s with clock := { c with
    state := .holdover, holdAt := s.now, good := 0, freqPpb := mean, holdovers := satAdd 16 c.holdovers 1
    holdBase := maxNat ((c.recent.filter (fun x => decide (s.now ≤ x.1 + 64000000000))).map (fun x => x.2.natAbs)) } }

/-- Selects the best of the masters heard. A new master restarts the servo; with none, the clock goes to HOLDOVER
after a lock and to UNSYNC otherwise (R308, R309). -/
def selectMaster (s : State) : State :=
  let c := s.clock
  let best := bestMaster (heard s.now c.masters)
  let same := match c.selected, best with
    | some x, some y => x.master == y.master && x.port == y.port
    | none, none => true
    | _, _ => false
  if same then { s with clock := { c with selected := best } }
  else
    match best with
    | some m => { s with clock := { c with selected := some m, good := 0, bad := 0, lastSync := none, syncs := [], delayReqs := [],
                                           state := (if c.state = .holdover then .holdover else .acquiring) } }
    | none =>
      if c.lockedOnce then
        (if c.state = .holdover then { s with clock := { c with selected := none } }
         else enterHoldover { s with clock := { c with selected := none } })
      else { s with clock := { c with selected := none, state := .unsync } }

/-- PTP_ANNOUNCE: enters the best master clock algorithm. -/
def execPtpAnnounce (t : Nat) (m : PtpMsg) (s0 : State) : Host.Outcome State Fault Refusal :=
  let s := setNow t s0
  if !alive s then .next s else
  if !clockRuns s then .next s
  else if !ptpAccepts s m then .next (reject s)
  else
    let x : Master := { port := m.port, master := m.master, priority := m.priority, interval := m.interval, last := s.now }
    let others := s.clock.masters.filter (fun y => !(y.master == m.master && y.port == m.port))
    .next (selectMaster (modClock (fun c => { c with masters := x :: others, selected := c.selected.map (fun y => if y.master = m.master ∧ y.port = m.port then x else y) }) s))

/-- MASTER_LOSS: three Announce intervals without an Announce from the selected master. -/
def execMasterLoss (t : Nat) (s0 : State) : Host.Outcome State Fault Refusal :=
  let s := setNow t s0
  if !alive s then .next s else
  match s.clock.selected with
  | none => .next s
  | some m =>
    if m.last + 3 * m.interval < s.now then
      .next (selectMaster (modClock (fun c => { c with masters := heard s.now c.masters }) s))
    else .next s

/-! ### Measurements -/

/-- SYNC: a one-step Sync gives origin and arrival; a two-step Sync waits for its Follow_Up. -/
def execSync (t : Nat) (m : PtpMsg) (s0 : State) : Host.Outcome State Fault Refusal :=
  let s := setNow t s0
  if !alive s then .next s else
  if !clockRuns s then .next s
  else if !ptpAccepts s m || !fromMaster s m then .next (reject s)
  else if m.twoStep then
    .next (modClock (fun c => { c with syncs := (m.seqId, m.arrival) :: c.syncs.filter (fun x => decide (s.now ≤ x.2 + 100000000)) }) s)
  else .next (modClock (fun c => { c with lastSync := some (m.origin, m.arrival) }) s)

/-- FOLLOW_UP: completes the Sync of its sequenceId received within the last 100 ms (R308). -/
def execFollowUp (t : Nat) (m : PtpMsg) (s0 : State) : Host.Outcome State Fault Refusal :=
  let s := setNow t s0
  if !alive s then .next s else
  if !clockRuns s then .next s
  else if !ptpAccepts s m || !fromMaster s m then .next (reject s)
  else
    match s.clock.syncs.find? (fun x => x.1 == m.seqId && decide (s.now ≤ x.2 + 100000000)) with
    | none => .next (reject s)
    | some x => .next (modClock (fun c => { c with lastSync := some (m.origin, x.2), syncs := c.syncs.filter (fun y => y.1 != m.seqId) }) s)

/-- DELAY_REQ_SEND: a timestamped Delay_Req to the selected master. -/
def execDelayReqSend (t : Nat) (s0 : State) : Host.Outcome State Fault Refusal :=
  let s := setNow t s0
  if !alive s then .next s else
  match s.clock.selected with
  | none => .next s
  | some m =>
    if !clockRuns s then .next s
    else
      let n := s.clock.delaySeq + 1
      let live := s.clock.delayReqs.filter (fun x => decide (s.now ≤ x.2 + 1000000000))
      .next (emit (.delayReq m.port n) (modClock (fun c => { c with delaySeq := n, delayReqs := (n, s.now) :: live }) s))

/-- The module steps its time by `d` (R309, R310): the tide slot in progress ends and the tide goes on from the
position that the new time gives. The times from which the vaults measure their intervals move with it, so that an interval
advances by local time across the step. -/
def timeStep (d : Int) (s : State) : State :=
  let s1 := modClock (fun c => { c with offset := c.offset - d, servo := 0, steps := satAdd 16 c.steps 1 }) s
  let l := s1.motionLog.map (fun e => if s1.storm.openEvent ∧ e.no = s1.lastEvent then { e with flags := e.flags ||| 8 } else e)
  let moved (p : Nat) : Nat := ((p : Int) - d).toNat
  { s1 with
    motionLog := l, tide := { s1.tide with openWin := openWindows s1.tide.active (ptpNow s1), counted := [], atStart := [] }
    vaults := s1.vaults.map (fun v => { v with consAt := moved v.consAt, lastBegin := v.lastBegin.map (fun x => (x.1, moved x.2)) }) }

/-- Slewing: at most 100 ppm of the time since the last correction (R309). -/
def slew (d : Int) (s : State) : State :=
  let most : Int := ((s.now - s.clock.slewAt) / 10000 : Nat)
  let by' := max (-most) (min d most)
  modClock (fun c => { c with offset := c.offset - by', servo := c.servo - by', slewAt := s.now }) s

/-- The clock becomes LOCKED: a step at the first lock after power-on and at an offset above 1 ms, else it slews. -/
def lockClock (est : Int) (s : State) : State :=
  let first := !s.clock.lockedOnce
  let s1 := modClock (fun c => { c with state := .locked, lockedOnce := true, bad := 0 }) s
  if first ∨ 1000000 < est.natAbs then timeStep est s1 else slew est s1

/-- An accepted measurement `m` of the offset drives the servo. Before lock the servo tracks the master, and 16
consecutive measurements within 200 ns of its estimate lock it; after lock the filtered offset is corrected by
slewing (log entry 20). -/
def servoStep (m : Int) (s : State) : State :=
  let c := s.clock
  let filt := Config.servoFilter (m :: c.recent.map (fun x => x.2))
  let dev := if c.state = .locked then filt else m - c.servo
  let good := if dev.natAbs ≤ 200 then c.good + 1 else 0
  let recent := (s.now, filt) :: c.recent.filter (fun x => decide (s.now ≤ x.1 + 64000000000))
  let freq := clampInt 32 (Config.servoFreq (recent.map (fun x => x.2)))
  let s1 := modClock (fun c => { c with
    offsetNs := clampInt 32 filt, servo := m, good := good, bad := 0, lastGood := s.now, recent := recent, freqPpb := freq
    freqLog := (s.now, freq) :: c.freqLog.filter (fun x => decide (s.now ≤ x.1 + 60000000000)) }) s
  if c.state = .locked then slew filt s1
  else if 16 ≤ good then lockClock m s1
  else modClock (fun c => { c with state := .acquiring }) s1

/-- DELAY_RESP: with the last Sync and the Delay_Req it answers it yields a mean path delay and an offset; both are
judged by R308. -/
def execDelayResp (t : Nat) (m : PtpMsg) (s0 : State) : Host.Outcome State Fault Refusal :=
  let s := setNow t s0
  if !alive s then .next s else
  if !clockRuns s then .next s
  else if !ptpAccepts s m || !fromMaster s m then .next (reject s)
  else
    match s.clock.delayReqs.find? (fun x => x.1 == m.seqId && decide (s.now ≤ x.2 + 1000000000)), s.clock.lastSync with
    | some (_, t3), some (t1, t2) =>
      let fwd : Int := (t2 : Int) + s.clock.offset - t1
      let back : Int := (m.origin : Int) - ((t3 : Int) + s.clock.offset)
      let path := (fwd + back) / 2
      let off := (fwd - back) / 2
      let s1 := modClock (fun c => { c with delayReqs := c.delayReqs.filter (fun x => x.1 != m.seqId) }) s
      if path < 0 ∨ 100000 < path then .next (reject s1)
      else if s.clock.state = .locked ∧ ptpBits s 48 8 * 100 < (off - s.clock.servo).natAbs then
        let n := s.clock.bad + 1
        .next (reject (modClock (fun c => { c with bad := n, state := (if 8 ≤ n then .acquiring else c.state), good := (if 8 ≤ n then 0 else c.good) }) s1))
      else .next (servoStep off (modClock (fun c => { c with pathNs := path.toNat }) s1))
    | _, _ => .next (reject s)

/-- SYNC_TIMEOUT: LOCKED without an accepted measurement for SYNC_TIMEOUT ms: HOLDOVER (R309). -/
def execSyncTimeout (t : Nat) (s0 : State) : Host.Outcome State Fault Refusal :=
  let s := setNow t s0
  if !alive s then .next s else
  if s.clock.state = .locked ∧ s.clock.lastGood + ptpBits s 32 16 * 1000000 ≤ s.now then
    .next (enterHoldover s)
  else .next s

/-- ERR_BOUND_NS of TIME_STATUS (Table 11.13). In ACQUIRING the manual states no value: it is free (log entry 20). -/
def errBound (s : State) : Nat :=
  match s.clock.state with
  | .unsync => 0xFFFFFFFF
  | .holdover => clampTo 32 (s.clock.holdBase + 50 * ((s.now - s.clock.holdAt) / 1000000000))
  | .acquiring => (Config.freeWord s.fresh s.now).toNat
  | .locked => clampTo 32 (maxNat ((s.clock.recent.filter (fun x => decide (s.now ≤ x.1 + 64000000000))).map (fun x => x.2.natAbs)))

def TimeState.code : TimeState → Nat
  | .unsync => 0 | .acquiring => 1 | .locked => 2 | .holdover => 3

/-- Pulse width in ms for the time state (R444). -/
def ppsWidth (s : State) : Nat :=
  if s.dev.state = .dryDock then 300
  else match s.clock.state with
    | .locked => 100
    | .holdover => 200
    | _ => 300

/-- PPS_PULSE: at each whole second of PTP time, from the start of management firmware and in DRY_DOCK; both outputs
are low in POWERED and during a flush. -/
def execPpsPulse (t : Nat) (s0 : State) : Host.Outcome State Fault Refusal :=
  let s := setNow t s0
  let sec := ptpNow s / 1000000000
  if (clockRuns s ∨ s.dev.state = .dryDock) ∧ s.pf.flushAt = none ∧ s.clock.lastPps < sec then
    .next (emit (.pps (ppsWidth s)) (modClock (fun c => { c with lastPps := sec }) s))
  else .next s

end Sys2Proof.Machine
end

