-- ==== Sys2Proof/Machine/Arith.lean ====
section
/-! DEFINITION. Narrow arithmetic: two-pass activation scales (R112 to R115), expansion (R116), accumulation and output
(R117), outliers (R118), the arithmetic report (R120), the shadow check (R121, R122) and QUANT_ALARM (R124, R125). -/

namespace Sys2Proof.Machine

/-! ### One matrix product -/

/-- A matrix product Y = X·W as the arithmetic sees it. `x` holds the rows of the present tensor as stored, `codes` the
N codes of each main row of W in ascending channel order, `outs` the outlier channels and `outW` their BF16 rows.
`range` holds the rows whose elements set the scale when they are more than `x` (R113, R182). `shift` is 0 when nothing is checked; `runs` counts earlier runs of the operation; `use` names it to the free values. -/
structure MatOp where
  n      : Nat
  x      : List (List Num)
  range  : List (List Num) := []
  fmtA   : Nat
  fmtW   : Nat
  sw     : Num
  codes  : List (List Nat)
  outs   : List Nat := []
  outW   : List (List Num) := []
  clip   : Nat := 256
  shift  : Nat := 0
  runs   : Nat := 0
  use    : Nat := 0
  deriving DecidableEq, Repr

/-- The counters of one operation (Table 4.3). `shadow` is 0xFFFF_FFFF when no pair was checked. -/
structure OpCounts where
  elements : Nat := 0
  outputs  : Nat := 0
  mainBase : Nat := 0
  satAct   : Nat := 0
  uflAct   : Nat := 0
  nanIn    : Nat := 0
  infIn    : Nat := 0
  satOut   : Nat := 0
  uflOut   : Nat := 0
  nanOut   : Nat := 0
  reserved : Nat := 0
  zeroRange : Nat := 0
  shadow   : Nat := 0xFFFFFFFF
  deriving DecidableEq, Repr

/-- W in an integer code, or X quantised by the module. -/
def MatOp.quantised (o : MatOp) : Bool := isIntWeight o.fmtW || isUintCode o.fmtA

/-- The elements of a row in non-outlier channels. -/
def mainElems (outs : List Nat) (row : List Num) : List Num :=
  (row.zipIdx.filter (fun x => !outs.contains x.2)).map (fun x => x.1)

def outElems (outs : List Nat) (row : List Num) : List Num := outs.map (fun c => row.getD c Num.zero)

/-! ### The two passes (R112) -/

/-- Least and greatest finite value, when there is one. -/
def finiteRange (xs : List Num) : Option (Num × Num) :=
  (xs.filter Num.isFin).foldl (fun acc a =>
    match acc with
    | none => some (a, a)
    | some (lo, hi) => some (lo.min a, hi.maxOf a)) none

/-- The scale, the zero point and the greatest code of a quantised tensor. -/
structure Quant where
  sa   : Num
  za   : Int
  top  : Int
  zero : Bool
  deriving DecidableEq, Repr

/-- The second pass's scale and zero point for `b`-bit codes; the range arithmetic runs in FP64. A scale that
underflows to zero leaves −lo ÷ s_a without a value when lo is zero: a free value (log entry 40). -/
def quantOf (use b clip : Nat) (xs : List Num) : Quant :=
  let r := (finiteRange xs).getD (Num.zero, Num.zero)
  let c : Num := .fin false clip (-8)
  let lo := Num.zero.min (fmtFp64.mul c r.1)
  let hi := Num.zero.maxOf (fmtFp64.mul c r.2)
  let top : Int := (2 ^ b : Nat) - 1
  if !(lo.lt hi) then { sa := Num.ofNat 1, za := 0, top := top, zero := true }
  else
    let sa := fmtFp32.round (fmtFp64.div (fmtFp64.add hi lo.neg) (Num.ofInt top))
    let q := fmtFp64.div lo.neg sa
    let za : Int := match q with
      | .nan => ((Config.freeWord use 0).toNat : Int) % (top + 1)
      | .inf _ => top
      | _ => max 0 (min top q.toInt)
    { sa := sa, za := za, top := top, zero := false }

/-- The code of a non-outlier element, and whether it saturated. -/
def quantCode (use : Nat) (q : Quant) (a : Num) : Int × Bool :=
  match a with
  | .nan => (q.za, false)
  | .inf neg => if neg then (0, true) else (q.top, true)
  | .fin .. =>
    match fmtFp32.div a q.sa with
    | .nan => (((Config.freeWord use 1).toNat : Int) % (q.top + 1), false)
    | .inf neg => if neg then (0, true) else (q.top, true)
    | d =>
      let t := d.toInt + q.za
      (max 0 (min q.top t), decide (t < 0 ∨ q.top < t))

/-! ### Expansion (R116) -/

/-- Rounded to BF16; a finite value beyond the largest finite BF16 saturates. -/
def satBf16 (v : Num) : Num × Bool :=
  match fmtBf16.round v with
  | .inf neg => (fmtBf16.max neg, true)
  | r => (r, false)

/-- The expanded activation of a code. -/
def expandCode (f : Num) (q : Quant) (code : Int) : Num × Bool :=
  if code = q.za then (Num.zero, false) else satBf16 (fmtFp32.mul f (Num.ofInt (code - q.za)))

/-- The expanded activation of a floating element; NaN and infinities enter the products directly (R117). -/
def expandFloat (sw a : Num) : Num × Bool :=
  match a with
  | .fin .. => satBf16 (fmtFp32.mul sw a)
  | _ => (fmtBf16.round (fmtFp32.mul sw a), false)

/-- One expanded element with what it adds to SAT_ACT and UFL_ACT. -/
structure Expanded where
  x   : Num
  sat : Nat
  ufl : Nat
  deriving DecidableEq, Repr

def boolNat (b : Bool) : Nat := if b then 1 else 0

/-- A finite non-zero activation that expanded to zero under a non-zero weight scale. -/
def underflowed (sw a x : Num) : Bool := !sw.isZero && a.isFin && !a.isZero && x.isZero

def expandElem (o : MatOp) (q : Quant) (f a : Num) : Expanded :=
  if isUintCode o.fmtA then
    let c := quantCode o.use q a
    let e := expandCode f q c.1
    { x := e.1, sat := boolNat c.2 + boolNat e.2, ufl := boolNat (underflowed o.sw a e.1) }
  else
    let e := expandFloat o.sw a
    { x := e.1, sat := boolNat e.2, ufl := boolNat (underflowed o.sw a e.1) }

/-! ### Sums -/

/-- A product in FP32, exact for every pair of the formats that stays in range. -/
def prod32 (x w : Num) : Num := fmtFp32.mul x w

/-- Column `n` of main weights, decoded. -/
def weightColumn (o : MatOp) (n : Nat) : List Num := o.codes.map (fun r => decodeWeight o.fmtW (r.getD n 0))

def outlierColumn (o : MatOp) (n : Nat) : List Num := o.outW.map (fun r => r.getD n Num.zero)

/-- BF16 originals of the outlier channels (R118). -/
def outlierX (o : MatOp) (row : List Num) : List Num := (outElems o.outs row).map fmtBf16.round

/-- The FP32 sum of one output from expanded activations. -/
def outputSum (o : MatOp) (xs : List Num) (row : List Num) (no n : Nat) : Num :=
  sumF32 o.use no (List.zipWith prod32 xs (weightColumn o n) ++ List.zipWith prod32 (outlierX o row) (outlierColumn o n))

/-- The reference of R121. -/
def shadowRef (o : MatOp) (row : List Num) (no n : Nat) : Num :=
  let w := (weightColumn o n).map (fun v => fmtFp32.mul o.sw v)
  let xs := (mainElems o.outs row).map fmtBf16.round
  sumF32 o.use no (List.zipWith prod32 xs w ++ List.zipWith prod32 (outlierX o row) (outlierColumn o n))

/-- The result of a product before its output conversion, its checked pairs (Y, y_ref) and its counters so far. -/
structure MatOut where
  sums   : List (List Num)
  pairs  : List (Num × Num)
  counts : OpCounts
  deriving DecidableEq, Repr

/-- SHADOW_PPM over the checked pairs (Y, y_ref) that are both finite (R122). -/
def shadowPpm (use : Nat) (pairs : List (Num × Num)) : Nat :=
  let ok := pairs.filter (fun p => p.1.isFin && p.2.isFin)
  if ok.isEmpty then 0xFFFFFFFF else
  let sq (v : Num) : Num := fmtFp64.mul v v
  let num := sumIn fmtFp64 use 1 (ok.map (fun p => sq (fmtFp64.add p.1 p.2.neg)))
  let den := sumIn fmtFp64 use 2 (ok.map (fun p => sq p.2))
  if den.isZero then (if num.isZero then 0 else 0xFFFFFFFE)
  else min 0xFFFFFFFE (fmtFp64.mul (Num.ofNat 1000000) (fmtFp64.sqrt (fmtFp64.div num den))).floorNat

/-- Runs a matrix product. -/
def MatOp.run (o : MatOp) : MatOut :=
  let mains := o.x.map (mainElems o.outs)
  let q := quantOf o.use (codeBits o.fmtA) o.clip (if o.range.isEmpty then mains else o.range.map (mainElems o.outs)).flatten
  let f := fmtFp32.mul q.sa o.sw
  let ex := mains.map (fun r => r.map (expandElem o q f))
  let sums := (List.zip ex o.x).zipIdx.map (fun r =>
    (List.range o.n).map (fun n => outputSum o (r.1.1.map (fun e => e.x)) r.1.2 (3 + 2 * (r.2 * o.n + n)) n))
  let all := o.x.flatten
  let flat := ex.flatten
  let checked := if o.shift = 0 then [] else (List.range o.n).filter (fun n => (n + o.runs) % 2 ^ o.shift == 0)
  let pairs := (List.zip sums o.x).zipIdx.flatMap (fun r =>
    checked.map (fun n => (r.1.1.getD n Num.zero, shadowRef o r.1.2 (4 + 2 * (r.2 * o.n + n)) n)))
  { sums := sums, pairs := pairs
    counts :=
      { elements := all.length, outputs := o.x.length * o.n, mainBase := flat.length
        satAct := sumNat (flat.map (fun e => e.sat)), uflAct := sumNat (flat.map (fun e => e.ufl))
        nanIn := (all.filter Num.isNan).length, infIn := (all.filter Num.isInf).length
        reserved := (o.codes.flatten.filter (reservedCode o.fmtW)).length
        zeroRange := boolNat (isUintCode o.fmtA && q.zero) } }

/-- The counters of a whole operation, its shadow error included. -/
def MatOut.closed (r : MatOut) (use : Nat) : OpCounts := { r.counts with shadow := shadowPpm use r.pairs }

/-! ### Output conversion (R117) -/

structure OutElem where
  v   : Num
  sat : Nat := 0
  ufl : Nat := 0
  nan : Nat := 0
  deriving DecidableEq, Repr

/-- A sum converted to a floating output format. -/
def convertOut (fmt : Nat) (v : Num) : OutElem :=
  let f := fmtOf fmt
  match f.round v with
  | .nan => { v := .nan, nan := 1 }
  | .inf neg => { v := f.max neg, sat := 1 }
  | r => { v := r, ufl := boolNat (r.isZero && !v.isZero) }

def convertRows (fmt : Nat) (rows : List (List Num)) : List (List Num) × OpCounts :=
  let e := rows.map (fun r => r.map (convertOut fmt))
  let all := e.flatten
  (e.map (fun r => r.map (fun x => x.v)),
    { satOut := sumNat (all.map (fun x => x.sat)), uflOut := sumNat (all.map (fun x => x.ufl)), nanOut := sumNat (all.map (fun x => x.nan)) })

/-- Adds the output events of a conversion to an operation's counters. -/
def OpCounts.withOut (c d : OpCounts) : OpCounts :=
  { c with satOut := c.satOut + d.satOut, uflOut := c.uflOut + d.uflOut, nanOut := c.nanOut + d.nanOut }

/-- The parts of one operation that ran on several quays, each on rows of its own, count together (R136, R182). -/
def OpCounts.plus (c d : OpCounts) : OpCounts :=
  { elements := c.elements + d.elements, outputs := c.outputs + d.outputs, mainBase := c.mainBase + d.mainBase
    satAct := c.satAct + d.satAct, uflAct := c.uflAct + d.uflAct, nanIn := c.nanIn + d.nanIn, infIn := c.infIn + d.infIn
    satOut := c.satOut + d.satOut, uflOut := c.uflOut + d.uflOut, nanOut := c.nanOut + d.nanOut, reserved := c.reserved + d.reserved
    zeroRange := max c.zeroRange d.zeroRange, shadow := c.shadow }

/-! ### The arithmetic report and the trips -/

structure Report where
  ops        : Nat := 0
  alarmOps   : Nat := 0
  elements   : Nat := 0
  outputs    : Nat := 0
  satAct     : Nat := 0
  uflAct     : Nat := 0
  nanIn      : Nat := 0
  infIn      : Nat := 0
  satOut     : Nat := 0
  uflOut     : Nat := 0
  nanOut     : Nat := 0
  reserved   : Nat := 0
  zeroRange  : Nat := 0
  shadow     : Nat := 0xFFFFFFFF
  alarmFirst : Nat := 0
  alarmValue : Nat := 0
  alarmLimit : Nat := 0
  deriving DecidableEq, Repr

/-- The 64 bytes of Table 4.3. -/
def Report.bytes (r : Report) : Bytes :=
  toLE 4 (clampTo 32 r.ops) ++ toLE 4 (clampTo 32 r.alarmOps) ++ toLE 8 (clampTo 64 r.elements) ++ toLE 8 (clampTo 64 r.outputs)
    ++ toLE 4 (clampTo 32 r.satAct) ++ toLE 4 (clampTo 32 r.uflAct) ++ toLE 4 (clampTo 32 r.nanIn) ++ toLE 4 (clampTo 32 r.infIn)
    ++ toLE 4 (clampTo 32 r.satOut) ++ toLE 4 (clampTo 32 r.uflOut) ++ toLE 4 (clampTo 32 r.nanOut)
    ++ toLE 2 (clampTo 16 r.reserved) ++ toLE 2 (clampTo 16 r.zeroRange) ++ toLE 4 r.shadow ++ toLE 2 r.alarmFirst ++ zeros 2

/-- The worse of two shadow errors, where 0xFFFF_FFFF means none checked. -/
def worseShadow (a b : Nat) : Nat := if a = 0xFFFFFFFF then b else if b = 0xFFFFFFFF then a else max a b

/-- A counter's ppm threshold, the width of its field, and its trip test: (id, count, PPM, base). -/
def ppmTrip (id count ppm base : Nat) : Option (Nat × Nat × Nat) :=
  if ppm = 0xFFFF then none
  else if ppm * base < count * 1000000 then some (id, count, ppm * base / 1000000) else none

/-- The first threshold that an operation trips: counter ID, value and threshold, in ascending ID (R124, R125).
`th` is QUANT_THRESH of the berth (Table 4.7). -/
def firstTrip (th : BitVec 128) (c : OpCounts) : Option (Nat × Nat × Nat) :=
  let f (lo : Nat) : Nat := bits th.toNat lo 16
  let sh := bits th.toNat 96 32
  firstSome
    [ ppmTrip 1 c.satAct (f 0) c.mainBase, ppmTrip 2 c.uflAct (f 16) c.mainBase, ppmTrip 3 c.nanIn (f 32) c.elements,
      ppmTrip 5 c.satOut (f 48) c.outputs, ppmTrip 6 c.uflOut (f 64) c.outputs, ppmTrip 7 c.nanOut (f 80) c.outputs,
      (if c.shadow ≠ 0xFFFFFFFF ∧ sh < c.shadow ∧ sh ≠ 0xFFFFFFFF then some (8, c.shadow, sh) else none),
      (if 0 < c.reserved then some (9, c.reserved, 0) else none) ]

/-- Adds an operation to a report. The counters take every operation of the command (R120); only quantised operations are
tested and counted as operations (R124). -/
def Report.add (th : BitVec 128) (quantised : Bool) (r : Report) (c : OpCounts) : Report :=
  let trip := if quantised then firstTrip th c else none
  let q := boolNat quantised
  { r with
    ops := r.ops + q, alarmOps := r.alarmOps + boolNat trip.isSome, elements := r.elements + c.elements, outputs := r.outputs + c.outputs
    satAct := r.satAct + c.satAct, uflAct := r.uflAct + c.uflAct, nanIn := r.nanIn + c.nanIn, infIn := r.infIn + c.infIn
    satOut := r.satOut + c.satOut, uflOut := r.uflOut + c.uflOut, nanOut := r.nanOut + c.nanOut
    reserved := r.reserved + c.reserved, zeroRange := r.zeroRange + c.zeroRange
    shadow := if quantised then worseShadow r.shadow c.shadow else r.shadow
    alarmFirst := (if r.alarmFirst = 0 then (trip.map (fun x => x.1)).getD 0 else r.alarmFirst)
    alarmValue := (if r.alarmFirst = 0 then (trip.map (fun x => x.2.1)).getD 0 else r.alarmValue)
    alarmLimit := (if r.alarmFirst = 0 then (trip.map (fun x => x.2.2)).getD 0 else r.alarmLimit) }

/-- The berth's ARITH_TOTALS take a command's report (Table 4.8). -/
def addTotals (b : Nat) (r : Report) (s : State) : State :=
  modBerthStats b (fun x =>
    { x with arithOps := satAdd 64 x.arithOps r.ops, alarmOps := satAdd 32 x.alarmOps r.alarmOps, shadowMax := worseShadow x.shadowMax r.shadow,
             satAct := satAdd 32 x.satAct r.satAct, uflAct := satAdd 32 x.uflAct r.uflAct, nanIn := satAdd 32 x.nanIn r.nanIn,
             nanOut := satAdd 32 x.nanOut r.nanOut }) s

/-- The work status that a report gives a command which would otherwise complete with `o` (R125). -/
def alarmOut (s : State) (b : Nat) (r : Report) (o : WorkOut) : WorkOut :=
  if (getBerth s b).regs.arithControl.toNat.testBit 0 ∧ r.alarmFirst ≠ 0 then
    { o with status := stQuantAlarm, detail := .counter r.alarmFirst r.alarmValue r.alarmLimit }
  else o

/-- The berth's CLIP and SHADOW_SHIFT, and a descriptor's overrides (R126, Table 6.5). -/
def clipOf (s : State) (b override : Nat) : Nat :=
  if override = 0 then bits (getBerth s b).regs.arithControl.toNat 5 9 else override

def shiftOf (s : State) (b override : Nat) : Nat :=
  if override = 0 then bits (getBerth s b).regs.arithControl.toNat 1 4 else if override = 0xFF then 0 else override

end Sys2Proof.Machine
end

