-- ==== Sys2Proof/Machine/Fleet.lean ====
section
/-! DEFINITION. Work that spans modules, as its commands see it (R334): what a WORK message names beside the command, how the
origin waits for its members, the reduction tree, and the bound of the exchange. -/

namespace Sys2Proof.Machine

/-- The head of a member's part of the payload: the module its bytes go to, and the modules it hears from (log entry 61:
Table 12.3 does not say how a member learns them). `place` is the member's place among those its parent hears from. -/
def peerPrefix (parent : Nat) (others : List Nat) (place : Nat := 0) : Bytes :=
  let b := toLE 2 parent ++ toLE 2 others.length ++ toLE 4 place ++ others.flatMap (toLE 2)
  padTo (roundUp b.length 4) b

def prefixPlace (p : Bytes) : Nat := getLE p 4 4

def prefixParent (p : Bytes) : Nat := getLE p 0 2
def prefixOthers (p : Bytes) : List Nat := (List.range (getLE p 2 2)).map (fun i => getLE p (8 + 2 * i) 2)

/-- The payload behind that head. -/
def prefixRest (p : Bytes) : Bytes := p.drop (roundUp (8 + 2 * getLE p 2 2) 4)

/-- The detail of a status block in bytes. -/
def readDetail (b : Bytes) : Detail :=
  let d := b.drop 8
  let g (o n : Nat) : Nat := getLE d o n
  match getLE b 4 2 with
  | 1 => .field (g 0 4) (g 4 2) (g 6 1) (g 7 1) (g 8 8) (g 16 8)
  | 2 => .progress (g 0 2) (g 2 1) (g 8 8)
  | 3 => .media (g 0 4) (g 4 1) (g 5 1) (BitVec.ofNat 64 (g 8 8)) (BitVec.ofNat 64 (g 16 8))
  | 4 => .sram { unit := g 0 1, index := g 1 1, address := BitVec.ofNat 64 (g 8 8) }
  | 5 => .objectState (g 0 2) (g 4 4) (g 8 2)
  | 6 => .counter (g 0 2) (g 8 8) (g 16 8)
  | 7 => .limit (g 0 2) (g 2 1) (g 3 1) (g 4 4)
  | 8 => .accepted (g 0 2) (g 8 8) (g 16 8)
  | 9 => .integrity (g 0 2) (g 4 4) (g 8 8)
  | 10 => .short (g 0 4) (g 4 4) (g 8 8)
  | 11 => .component (g 0 1) (g 1 1) (g 2 2)
  | 12 => .link (g 0 1) (g 4 4) (g 8 8)
  | 13 => .resource (g 0 2) (g 8 8) (g 16 8)
  | 14 => .missing (BitVec.ofNat 64 (g 0 8))
  | _ => .none

/-- Every RESULT that the origin awaits has come, or one has failed. -/
def fleetDone (s : State) (id : Nat) : Bool :=
  match getWork s id with
  | none => true
  | some w => w.waiting.isEmpty || w.failed.isSome || w.results.any (fun r => !isSuccess (getLE r.2 0 2) && getLE r.2 0 2 != stQuantAlarm)

/-- The first failed member's status block, or the failed link's LINK_DOWN, as an outcome (R334). -/
def fleetFailure (s : State) (id : Nat) : Option WorkOut :=
  match getWork s id with
  | none => none
  | some w =>
    match w.failed with
    | some (port, since) => some { status := stLinkDown, detail := .link 1 port since }
    | none =>
      (w.results.find? (fun r => !isSuccess (getLE r.2 0 2) && getLE r.2 0 2 != stQuantAlarm)).map (fun r =>
        { status := getLE r.2 0 2, detail := readDetail r.2 })

/-! ### The reduction tree (Table 12.6) -/

/-- The member that a member sends to: the last one before it on the origin's route to it. -/
def treeParent (s : State) (members : List Nat) (m : Nat) : Nat :=
  match routeTo s m with
  | none => moduleNo s
  | some path => ((path.dropLast.filter members.contains).getLast?).getD (moduleNo s)

def treeChildren (s : State) (members : List Nat) (m : Nat) : List Nat :=
  members.filter (fun x => x != m && x != moduleNo s && treeParent s members x == m)

/-- Hops from the farthest member. -/
def farthestHops (s : State) (members : List Nat) : Nat := maxNat (members.map (routeHops s))

/-- t_hop in ns: 700 for a cable of up to 3 m and 5 for each further metre, whose number is the installation's (free). -/
def hopNs : Nat := 700 + 5 * Config.amount 0

/-- P_H of a port in GB/s (R321). -/
def portRate (s : State) (p : Nat) : Nat := if (hawserPort s p).state = .narrow then 183 else 366

/-- Hawser ports that join two neighbours, as this module knows them. -/
def portsJoining (s : State) (a b : Nat) : Nat :=
  if a = moduleNo s then (portsTo s b).length
  else if b = moduleNo s then (portsTo s a).length
  else ((s.hawser.fleet.find? (fun x => x.module == a)).map (fun x => (x.neighbours.filter (fun n => n.1 == b)).length)).getD 0

/-- The slowest port's rate on a link in GB/s. TOPO messages do not say whether a port between two other modules is
narrow (free). -/
def linkRate (s : State) (a b : Nat) : Nat :=
  let own (m : Nat) : Nat := if (portsTo s m).any (fun p => portRate s p == 183) then 183 else 366
  if a = moduleNo s then own b else if b = moduleNo s then own a
  else if Config.choose (a * 4096 + b) then 183 else 366

/-- The links of a list of hops that carries `bytes` each, striped over their ports: ns at the slowest. -/
def hopsNs (s : State) (hops : List (Nat × Nat)) (bytes : Nat) : Nat :=
  maxNat (hops.map (fun h => ceilDiv (ceilDiv bytes (max 1 (portsJoining s h.1 h.2))) (linkRate s h.1 h.2)))

/-- The largest bytes per port on these links. -/
def hopsBytes (s : State) (hops : List (Nat × Nat)) (bytes : Nat) : Nat :=
  maxNat (hops.map (fun h => ceilDiv bytes (max 1 (portsJoining s h.1 h.2))))

/-- The links of the routes to the members. -/
def routeHopsOf (s : State) (members : List Nat) : List (Nat × Nat) :=
  (members.flatMap (fun m => let w := (routeTo s m).getD []; List.zip w (w.drop 1))).eraseDups

/-- `bytes` on each link of this module's routes, in ns at the slowest port. -/
def linkNs (s : State) (members : List Nat) (bytes : Nat) : Nat := hopsNs s (routeHopsOf s members) bytes

/-- The ports that work with these members uses here. -/
def workPorts (s : State) (members : List Nat) : List Nat := ((members.filter (fun m => m != moduleNo s)).flatMap (routePorts s)).eraseDups

/-- A command that a WORK message brought here, not one of a host: no opcode that runs over a fleet is accepted on queue
0xFF (R201, R244, R336). -/
def isMember (f : Frame) : Bool := f.queue == 0xFF

end Sys2Proof.Machine
end

