-- ==== Sys2Proof/Machine/HawserCore.lean ====
section
/-! DEFINITION. Hawser ports as the module keeps them: their states (Table 12.9), training (R326 to R328), wiring (R330),
failures (R339, R340), and the commands of group 0x08 (R334 to R338). -/

namespace Sys2Proof.Machine

/-! ### Entry to a port state -/

/-- A record of a module that an IDENT names. -/
def learnPeer (m : Nat) (serial : Bytes) (s : State) : State :=
  let old := (s.hawser.fleet.find? (fun x => x.module == m)).getD { module := m, serial := [], neighbours := [], version := 0 }
  { s with hawser := { s.hawser with fleet := { old with serial := serial } :: s.hawser.fleet.filter (fun x => x.module != m) } }

/-- Messages of modules that no link joins to this one any more are forgotten, where the change has cut them off. -/
def forgetLost (before : List Nat) (s : State) : State :=
  let now := fleetModules s
  { s with hawser := { s.hawser with fleet := s.hawser.fleet.filter (fun x => now.contains x.module || !before.contains x.module) } }

/-- Modules that a work's routes lead to: the members an origin waits for, those it exchanges bytes with, and the origin. -/
def workPeers (s : State) (w : FleetWork) : List Nat :=
  let act := getActive s w.cmd
  (w.waiting ++ w.results.map (fun r => r.1) ++ w.steps.flatMap (fun st => st.sends.map (fun x => x.1) ++ st.recvs.map (fun x => x.1))
    ++ ((act.bind (fun a => a.origin)).map (fun o => [o.1])).getD []).eraseDups

/-- Hops of a route. -/
def hopsOf (w : List Nat) : List (Nat × Nat) := List.zip w (w.drop 1)

/-- Ends work on the members that the origin still awaits (log entry 72). -/
def endMembers (w : FleetWork) (block : StatusBlock) (skip : Nat) (s : State) : State :=
  match getActive s w.cmd with
  | none => s
  | some a =>
    if a.origin.isSome then s
    else (w.waiting.filter (fun m => m != skip)).foldl (fun st m => sendResult m a.frame.berth a.frame.tag.toNat block [] st) s

/-- R339: work whose routes, as they were at `before`, cross a link that is gone fails with the port toward the failure. -/
def failCut (before : State) (s : State) : State :=
  let linked (h : Nat × Nat) : Bool := (neighboursOf s h.1).contains h.2
  s.hawser.works.foldl (fun st w =>
    if w.failed.isSome then st
    else
      match (workPeers before w).findSome? (fun m =>
        let path := (routeTo before m).getD []
        if (hopsOf path).all linked then none else some ((portsTo before (path.getD 1 0)).headD 0)) with
      | none => st
      | some p =>
        let st1 := modWork w.cmd (fun x => { x with failed := some (p, ptpNow st) }) st
        let b := ((getActive st w.cmd).map (fun a => a.frame.berth)).getD 0
        endMembers w (blockNow st b stLinkDown (.link 1 p (ptpNow st))) 0x10000 st1) s

/-- HAWSER_EVENT (R340). -/
def hawserEvent (p : Nat) (s : State) : State :=
  let h := hawserPort s p
  berthNotice 0 0x0880 (toLE 1 p ++ toLE 1 h.state.code ++ zeros 2 ++ toLE 2 h.peerModule ++ zeros 2 ++ toLE 8 (ptpNow s)) [] s

/-- The lanes that a state runs on. -/
def lanesOf : HawserState → Nat
  | .up => 8 | .narrow => 4 | _ => 0

/-- The state carries traffic. -/
def carries (x : HawserState) : Bool := x == .up || x == .narrow

/-- A port enters a state: SINCE, LANES, DOWNS and RETRAINS. When it enters or leaves UP or NARROW, one notice goes out and
TOPO floods; when the link is gone, work that has lost its route fails. Retraining keeps the link. -/
def enterPort (p : Nat) (st : HawserState) (s : State) : State :=
  let h := hawserPort s p
  if h.state = st then s
  else
    let known := fleetModules s
    let link := carries st || (st == .training && h.linked)
    let s1 := modHawserPort p (fun h =>
      { h with state := st, lanes := lanesOf st, since := ptpNow s, linked := link,
               downs := (if st = .down then satAdd 16 h.downs 1 else h.downs),
               retrains := (if st = .training ∧ carries h.state then satAdd 16 h.retrains 1 else h.retrains) }) s
    let s2 := if carries h.state || carries st then hawserEvent p s1 else s1
    let s3 := if carries h.state || carries st || h.linked != link then floodTopo s2 else s2
    if h.linked && !link then forgetLost known (failCut s s3) else s3

/-! ### Credits at entry to UP (R332) -/

/-- The lanes of the berths that are MOORED or SUSPENDED here. -/
def liveLanes (s : State) : List Nat := (List.range 16).filter (berthLive s)

/-- Credits for `n` frames in IDLE frames of at most 255. -/
def grantLane (p lane : Nat) : Nat → Nat → State → State
  | 0, _, s => s
  | k + 1, n, s => if n = 0 then s else grantLane p lane k (n - min 255 n) (sendIdle p false lane (min 255 n) s)

/-- This end returns its full credits: 64 for the control lane, RESERVE for each live lane, the rest shared. -/
def grantAll (p : Nat) (s : State) : State :=
  let lanes := liveLanes s
  let s1 := grantLane p 31 1 64 s
  let s2 := lanes.foldl (fun st l => grantLane p l 1 (laneReserve s) st) s1
  grantLane p 30 17 (4096 - 64 - lanes.length * laneReserve s) s2

def creditTotal (c : Credits) : Nat := c.shared + sumNat (c.reserved.map (fun x => x.2))

/-- A kept frame goes out again with SHARED as its new credit has it. -/
def resendOne (p : Nat) (x : BitVec 16 × Bytes) (s : State) : State :=
  let f := readFrame x.2
  match takeCredit f.vl (creditsOf s p) with
  | some (sh, c) =>
    let out := HFrame.bytes { f with shared := sh }
    emit (.hawser p out) (modHawserPort p (fun h => { h with replay := h.replay ++ [(x.1, out)] }) (modCredits p (fun _ => c) s))
  | none => emit (.hawser p x.2) (modHawserPort p (fun h => { h with replay := h.replay ++ [x] }) s)

/-- Frames that wait for an acknowledgement go out again, each against a credit of the new buffer, and count in REPLAYS. -/
def resendAll (p : Nat) (s : State) : State :=
  let l := (hawserPort s p).replay
  l.foldl (fun st x => resendOne p x st) (modHawserPort p (fun h => { h with replay := [], replays := satAdd 32 h.replays l.length }) s)

/-- Training ends: UP on 8 lanes, NARROW on 4. -/
def portTrained (p : Nat) (s : State) : State :=
  let st := if (hawserPort s p).locked = 8 then HawserState.up else .narrow
  let s1 := modHawserPort p (fun h => { h with step := 0, stepAt := s.now, failures := 0, nakDone := false, resendLog := [], ackAt := s.now }) s
  pump p (resendAll p (enterPort p st s1))

/-! ### Training (R326, R327, Table 12.5) -/

/-- R326, signal apart; before sea trial has ended and in dry dock no port is in service. -/
def mayTrain (s : State) (p : Nat) : Bool := s.dev.state != .trial && s.dev.state != .dryDock && hawserInService s p && (portEn s).testBit p && topologyOf s != 0

/-- An attempt starts at step 2. -/
def startAttempt (p : Nat) (s : State) : State :=
  let s1 := enterPort p .training s
  modCredits p (fun _ => {}) (modHawserPort p (fun h => { h with step := 2, stepAt := s.now, lastIdent := none, locked := 0 }) s1)

/-- Frames that another port to the same peer can carry; frames of the port that has gone down are lost where none can. -/
def moveFrames (p : Nat) (frames : List Bytes) (peer : Nat) (s : State) : State :=
  match portsTo s peer with
  | [] => s
  | qs => frames.zipIdx.foldl (fun st x => sendOn (qs.getD (x.2 % qs.length) p) (readFrame x.1) st) s

/-- A port leaves the link for a state without traffic: its waiting and unacknowledged frames move to the other ports of
the link or are lost, and both ends number from 0 afterwards. -/
def leaveLink (p : Nat) (st : HawserState) (s : State) : State :=
  let h := hawserPort s p
  let frames := h.replay.map (fun x => x.2) ++ h.txq.map (fun x => x.2)
  let s1 := modHawserPort p (fun h => { h with replay := [], txq := [], txSeq := 0, rxNext := 0, nakDone := false, step := 0, stepAt := s.now }) s
  moveFrames p frames h.peerModule (enterPort p st (modCredits p (fun _ => {}) s1))

def portDown (p : Nat) (s : State) : State := leaveLink p .down s

/-- An attempt fails: the third in a row leaves the port DOWN. -/
def failAttempt (p : Nat) (s : State) : State :=
  let n := (hawserPort s p).failures + 1
  let s1 := modHawserPort p (fun h => { h with failures := n }) s
  if 3 ≤ n then portDown p s1 else startAttempt p s1

/-- A port follows its presence, PORT_EN, TOPOLOGY and signal. -/
def refreshPort (p : Nat) (s : State) : State :=
  let st := (hawserPort s p).state
  if !(hawserInService s p && (portEn s).testBit p) then
    leaveLink p .absent s
  else
    let s1 := if st = .absent then enterPort p .down s else s
    if mayTrain s1 p then
      (if (hawserPort s1 p).signal ∧ st = .absent then startAttempt p s1 else s1)
    else if (hawserPort s1 p).state = .down then s1 else portDown p s1

def refreshPorts (s : State) : State := (List.range 6).foldl (fun st p => refreshPort p st) s

/-- R341: every port retrains. -/
def retrainAll (s : State) : State :=
  (List.range 6).foldl (fun st p =>
    let h := hawserPort st p
    if mayTrain st p && h.signal then startAttempt p (modHawserPort p (fun h => { h with failures := 0 }) st)
    else refreshPort p st) s

/-! ### IDENT (Table 12.4, R328, R330) -/

def identMessage (s : State) (p : Nat) : Bytes :=
  toLE 2 1 ++ toLE 2 (moduleNo s) ++ toLE 4 (fleetId s) ++ toLE 1 p ++ toLE 1 (topologyOf s) ++ toLE 1 (htopo s) ++ toLE 1 1 ++ zeros 4
    ++ padTo 16 (s.fixed.serial.take 16)

/-- IDENT goes out whatever the state of the port; its frame takes no link sequence number (log entry 71). -/
def sendIdent (p : Nat) (s : State) : State :=
  emit (.hawser p (HFrame.bytes { typ := 2, vl := 31, src := moduleNo s, last := true, payload := identMessage s p })) s

def identValid (m : Bytes) : Bool := getLE m 0 2 == 1 && getLE m 11 1 == 1 && decide (getLE m 8 1 ≤ 5) && getLE m 12 4 == 0

def identModule (m : Bytes) : Nat := getLE m 2 2
def identPort (m : Bytes) : Nat := getLE m 8 1

/-- Ports other than `p` that carry traffic. -/
def otherPorts (s : State) (p : Nat) : List Nat := (List.range 6).filter (fun q => q != p && hawserUp s q)

/-- The link that an IDENT shows is the ring's closing link: an even port of the lowest module and an odd port of the
highest. -/
def closingLink (s : State) (p : Nat) (m : Bytes) : Bool :=
  let me := moduleNo s
  let peer := identModule m
  let all := peer :: fleetModules s
  (p % 2 == 0 && identPort m % 2 == 1 && decide (me < peer) && all.all (fun x => decide (me ≤ x ∧ x ≤ peer)))
    || (p % 2 == 1 && identPort m % 2 == 0 && decide (peer < me) && all.all (fun x => decide (peer ≤ x ∧ x ≤ me)))

/-- A port that carries the closing link now: it faces the wrong way for a chain. -/
def closesNow (s : State) (q : Nat) : Bool :=
  let peer := (hawserPort s q).peerModule
  (q % 2 == 0 && decide (moduleNo s < peer)) || (q % 2 == 1 && decide (peer < moduleNo s))

/-- The wiring rule of a chain: even ports face the one lower neighbour, odd ports the one higher, at most three ports to a
neighbour. Equal module numbers are left to the check that follows (log entry 76). -/
def chainWired (s : State) (p : Nat) (m : Bytes) : Bool :=
  let me := moduleNo s
  let peer := identModule m
  let same := (otherPorts s p).filter (fun q => q % 2 == p % 2 && !closesNow s q)
  decide (p % 2 ≠ identPort m % 2) && (if p % 2 = 0 then decide (peer ≤ me) else decide (me ≤ peer))
    && same.all (fun q => (hawserPort s q).peerModule == peer)
    && decide (((otherPorts s p).filter (fun q => (hawserPort s q).peerModule == peer && !closesNow s q)).length < 3)

/-- The cabling keeps the wiring rule of the topology (R330). -/
def wired (s : State) (p : Nat) (m : Bytes) : Bool :=
  let me := moduleNo s
  let peer := identModule m
  if topologyOf s = 1 then chainWired s p m
  else if topologyOf s = 2 then
    chainWired s p m || (closingLink s p m && !((otherPorts s p).any (closesNow s)))
  else
    let once := (otherPorts s p).all (fun q => (hawserPort s q).peerModule != peer)
    once && (if p = 0 then decide (peer ≤ me) && identPort m != 0 else decide (me ≤ peer) && identPort m == 0)

/-- The checks of step 5 in their order: the state the port enters, or none. -/
def identChecks (s : State) (p : Nat) (m : Bytes) : Option HawserState :=
  if getLE m 4 4 ≠ fleetId s then some .foreign
  else if getLE m 9 1 ≠ topologyOf s then some .miswired
  else if !wired s p m then some .miswired
  else if identModule m = moduleNo s
    || s.hawser.fleet.any (fun x => x.module == identModule m && !x.serial.isEmpty && x.serial != slice m 16 16) then some .conflict
  else none

/-- Step 5, and step 6 where the checks pass: this end returns its full credits. -/
def judgeIdent (p : Nat) (m : Bytes) (s : State) : State :=
  let s1 := modHawserPort p (fun h => { h with peerModule := identModule m, peerPort := identPort m, peerSerial := slice m 16 16 }) s
  match identChecks s1 p m with
  | some st => leaveLink p st s1
  | none =>
    let s2 := learnPeer (identModule m) (slice m 16 16) s1
    let s3 := modHawserPort p (fun h => { h with step := 6, stepAt := s.now }) (enterPort p .training s2)
    let s4 := grantAll p s3
    if 4096 ≤ creditTotal (creditsOf s4 p) then portTrained p s4 else s4

/-! ### HAWSER_INFO, HAWSER_RETRAIN, FLEET_MAP (R338) -/

/-- HAWSER of parameter 0x0010 reads 0: every port is missing (R336). -/
def hawserAny (s : State) : Nat := if bits s.dev.units.toNat 8 6 = 0 then 0x3F * 2 ^ 8 else 0

def cmdHawserInfo : CmdSpec :=
  { opcode := 0x0800, cls := 0
    check := fun _ f => firstSome [ rsv f 0 8, noTail f 8 ]
    work := fun s _ =>
      let rec' (p : Nat) : Bytes :=
        let h := hawserPort s p
        toLE 1 h.state.code ++ toLE 1 h.lanes ++ toLE 2 h.peerModule ++ toLE 1 h.peerPort ++ zeros 3
      (s, okOut (toLE 2 (moduleNo s) ++ toLE 1 (topologyOf s) ++ toLE 2 (fleetModules s).length ++ zeros 3 ++ (List.range 6).flatMap rec') []) }

/-- HAWSER_RETRAIN starts an attempt where R326 lets the port train. -/
def cmdHawserRetrain : CmdSpec :=
  { opcode := 0x0801, cls := 2
    units := fun s f => hawserAny s ||| (if par f 0 1 ≤ 5 then 2 ^ (8 + par f 0 1) else 0)
    check := fun _ f => firstSome [ inRange f 0 1 0 5, rsv f 1 7, noTail f 8 ]
    work := fun s a =>
      let p := par a.frame 0 1
      (if mayTrain s p && (hawserPort s p).signal then startAttempt p s else s, okOut [] []) }

/-- SERIAL of a module that no IDENT has named is free: TOPO messages carry none (log entry 70). -/
def serialOf (s : State) (m : Nat) : Bytes :=
  if m = moduleNo s then padTo 16 (s.fixed.serial.take 16)
  else
    let known := ((s.hawser.fleet.find? (fun x => x.module == m)).map (fun x => x.serial)).getD []
    if known.isEmpty then (List.range 16).map (Config.freeByte m) else known

def versionOf (s : State) (m : Nat) : Nat :=
  if m = moduleNo s then s.hawser.topoVer.toNat
  else ((s.hawser.fleet.find? (fun x => x.module == m)).map (fun x => x.version.toNat)).getD 0

def cmdFleetMap : CmdSpec :=
  { opcode := 0x0802, cls := 0, result := true
    units := fun s _ => hawserAny s
    check := fun _ f => firstSome [ rsv f 0 8, noTail f 8 ]
    size := fun s _ => 8 + 32 * (fleetModules s).length
    work := fun s _ =>
      let l := fleetModules s
      (s, okOut [] (toLE 4 l.length ++ zeros 4 ++ l.flatMap (fun m =>
        toLE 2 m ++ zeros 2 ++ toLE 2 (routeHops s m) ++ zeros 2 ++ serialOf s m ++ toLE 8 (versionOf s m)))) }

/-! ### COLLECTIVE (R334, R335, R337, Table 12.8) -/

def collKind (f : Frame) : Nat := par f 0 1
def collFmt (f : Frame) : Nat := par f 1 1
def collCount (f : Frame) : Nat := par f 2 2
def collBytes (f : Frame) : Nat := par f 8 8
def collList (f : Frame) : DRef := parRef f 16

def listRecs (s : State) (f : Frame) : Bytes := refDataNow s f (collList f)

def recModule (bs : Bytes) (i : Nat) : Nat := getLE bs (16 * i) 2
def recRkey (bs : Bytes) (i : Nat) : BitVec 32 := BitVec.ofNat 32 (getLE bs (16 * i + 4) 4)
def recOffset (bs : Bytes) (i : Nat) : Nat := getLE bs (16 * i + 8) 8

/-- The members, in the order of the list. -/
def collMembers (s : State) (f : Frame) : List Nat :=
  if isMember f then let o := prefixOthers f.payload; o.take (o.length / 2) else (List.range (collCount f)).map (recModule (listRecs s f))

/-- Each member's parent in the reduction tree. -/
def collParents (s : State) (f : Frame) : List Nat :=
  if isMember f then let o := prefixOthers f.payload; o.drop (o.length / 2)
  else (collMembers s f).map (fun m => if m = moduleNo s then m else treeParent s (collMembers s f) m)

/-- The ring algorithm runs when TOPOLOGY is ring and every module of the ring is a member. -/
def collRing (s : State) (f : Frame) : Bool :=
  if isMember f then prefixParent f.payload == 1
  else topologyOf s == 2 && (fleetModules s).all (fun m => (collMembers s f).contains m)

/-- This module's record: in the list, or behind the head of the member's part. -/
def ownRecord (s : State) (f : Frame) : Bytes :=
  if isMember f then (prefixRest f.payload).take 16
  else
    let bs := listRecs s f
    let i := (collMembers s f).idxOf (moduleNo s)
    slice bs (16 * i) 16

/-- Bytes of a member's buffer. -/
def bufferBytes (f : Frame) : Nat := if collKind f = 1 then collBytes f else collCount f * collBytes f

/-- The member's buffer under R73; `loc` is where the record's first byte lies. -/
def bufferCheck (s : State) (f : Frame) (loc : Nat) (r : Bytes) : Option Refuse :=
  match regionOf s f.berth (recRkey r 0) with
  | none => some (badBytes (loc + 4) 4 0 0xFFFFFFFF)
  | some g => need (decide (recOffset r 0 + bufferBytes f ≤ g.length)) (badBytes (loc + 8) 8 0 (g.length - bufferBytes f))

/-- Where byte `off` of the list lies (Table 2.3, log entry 65). -/
def listLoc (f : Frame) (off : Nat) : Nat := if (collList f).kind = 1 then payLoc f ((collList f).offset + off) else 0x40000000 + off

/-- One record of the list: its reserved bytes, and a module of the fleet map that no earlier record names. -/
def recordCheck (s : State) (f : Frame) (bs : Bytes) (i : Nat) : Option Refuse :=
  let earlier := (List.range i).map (recModule bs)
  firstSome
    [ need ((fleetModules s).contains (recModule bs i) && !earlier.contains (recModule bs i)) (badBytes (listLoc f (16 * i)) 2 0 4095),
      need (getLE bs (16 * i + 2) 2 == 0) (badBytes (listLoc f (16 * i + 2)) 2 0 0) ]

def collCheck (s : State) (f : Frame) : Option Refuse :=
  let w := codeBits (collFmt f) / 8
  let bs := listRecs s f
  let n := collCount f
  let me := ((List.range n).map (recModule bs)).idxOf (moduleNo s)
  firstSome
    [ inRange f 0 1 1 2,
      (if collKind f = 1 then need (collFmt f == 0xC || collFmt f == 0xD) (badField 1 0 8 0xC 0xD) else inRange f 1 1 0 0),
      inRange f 2 2 2 (fleetModules s).length, rsv f 4 4, inRange f 8 8 4 (2 ^ 34),
      (if collKind f = 1 then need (collBytes f % w == 0) (badBytes 8 8 4 (2 ^ 34)) else none),
      parRefCheck s f 16 [1, 2, 3], refLength 16 (collList f) (16 * n), noTail f 48,
      (List.range n).findSome? (recordCheck s f bs),
      need (decide (me < n)) (badBytes 2 2 2 (fleetModules s).length),
      bufferCheck s f (listLoc f (16 * me)) (slice bs (16 * me) 16) ]

/-- B′: partial sums travel in FP32. -/
def wireBytes (f : Frame) : Nat := if collKind f = 1 ∧ collFmt f = 0xC then 2 * collBytes f else collBytes f

/-- A member and what hangs below it in the tree. -/
def isBelow (members parents : List Nat) (top : Nat) : Nat → Nat → Bool
  | 0, m => m == top
  | n + 1, m => m == top || (let p := parents.getD (members.idxOf m) m; p != m && isBelow members parents top n p)

def subtree (members parents : List Nat) (top : Nat) : List Nat := members.filter (isBelow members parents top members.length)

def childrenIn (members parents : List Nat) (m : Nat) : List Nat :=
  members.filter (fun x => x != m && parents.getD (members.idxOf x) x == m)

/-- Tree: reduce toward the origin, then broadcast outward. -/
def treeSteps (gather : Bool) (len blk : Nat) (members parents : List Nat) (me : Nat) : List FleetStep :=
  let kids := childrenIn members parents me
  let parent := parents.getD (members.idxOf me) me
  let root := parent == me
  let blocks (m : Nat) : List (Nat × Nat) := (subtree members parents m).map (fun x => (members.idxOf x * blk, blk))
  let upTo (m : Nat) (xs : List (Nat × Nat)) : List (Nat × Nat × Nat) := xs.map (fun x => (m, x.1, x.2))
  let rec1 : FleetStep := { sends := [], recvs := kids.flatMap (fun k => if gather then upTo k (blocks k) else [(k, 0, len)]), add := !gather }
  let up1 : FleetStep := { sends := (if root then [] else if gather then upTo parent (blocks me) else [(parent, 0, len)]), recvs := [], add := false }
  let down1 : FleetStep := { sends := [], recvs := (if root then [] else [(parent, 0, len)]), add := false }
  let out1 : FleetStep := { sends := kids.map (fun k => (k, 0, len)), recvs := [], add := false }
  [rec1, up1, down1, out1]

/-- A transfer of no bytes is none. -/
def some1 (m off n : Nat) : List (Nat × Nat × Nat) := if n = 0 then [] else [(m, off, n)]

/-- Chunk `j` of `n` of `len` bytes that are whole elements of `w` bytes: offset and length. -/
def chunkOf (len w n j : Nat) : Nat × Nat :=
  let e := len / w
  (e * j / n * w, (e * (j + 1) / n - e * j / n) * w)

/-- Ring: the first half of the buffer travels toward higher numbers, the second toward lower; n − 1 reduce-scatter steps,
then n − 1 all-gather steps. `i` is this module's place on the ring and `ring` the modules in order. -/
def ringReduceSteps (len : Nat) (ring : List Nat) (i : Nat) : List FleetStep :=
  let n := ring.length
  let at' (k : Nat) : Nat := ring.getD (k % n) 0
  let h0 := len / 4 / 2 * 4
  let lo (j : Nat) : Nat × Nat := chunkOf h0 4 n (j % n)
  let hi (j : Nat) : Nat × Nat := let c := chunkOf (len - h0) 4 n (j % n); (h0 + c.1, c.2)
  let step (add : Bool) (sl rl sh rh : Nat) : FleetStep :=
    { sends := some1 (at' (i + 1)) (lo sl).1 (lo sl).2 ++ some1 (at' (i + n - 1)) (hi sh).1 (hi sh).2
      recvs := some1 (at' (i + n - 1)) (lo rl).1 (lo rl).2 ++ some1 (at' (i + 1)) (hi rh).1 (hi rh).2
      add := add }
  (List.range (n - 1)).map (fun k => step true (i + n - k) (i + 2 * n - k - 1) (i + k) (i + k + 1))
    ++ (List.range (n - 1)).map (fun k => step false (i + n + 1 - k) (i + n - k) (i + n - 1 + k) (i + k))

/-- Ring gather: the halves of each contribution travel in opposite directions. -/
def ringGatherSteps (blk : Nat) (members ring : List Nat) (i : Nat) : List FleetStep :=
  let n := ring.length
  let at' (k : Nat) : Nat := ring.getD (k % n) 0
  let h0 := blk / 2
  let off (k : Nat) : Nat := members.idxOf (at' k) * blk
  (List.range (n - 1)).map (fun k =>
    { sends := some1 (at' (i + 1)) (off (i + n - k)) h0 ++ some1 (at' (i + n - 1)) (off (i + k) + h0) (blk - h0)
      recvs := some1 (at' (i + n - 1)) (off (i + 2 * n - k - 1)) h0 ++ some1 (at' (i + 1)) (off (i + k + 1) + h0) (blk - h0)
      add := false })

def collSteps (s : State) (f : Frame) : List FleetStep :=
  let ms := collMembers s f
  let gather := collKind f == 2
  let len := if gather then collCount f * collBytes f else wireBytes f
  if collRing s f then
    let ring := sortBy (fun a b => decide (a ≤ b)) ms
    let i := ring.idxOf (moduleNo s)
    if gather then ringGatherSteps (collBytes f) ms ring i else ringReduceSteps len ring i
  else treeSteps gather len (collBytes f) ms (collParents s f) (moduleNo s)

/-- The buffer at the start: FP32 of the contribution, or the contribution at its place. -/
def collStart (s : State) (f : Frame) : Mem :=
  let r := ownRecord s f
  match regionOf s f.berth (recRkey r 0) with
  | none => []
  | some g =>
    let own := memRead (shareMem s f.berth) (g.offset + recOffset r 0) (collBytes f)
    if collKind f = 2 then memWrite [] ((collMembers s f).idxOf (moduleNo s) * collBytes f) own
    else if collFmt f = 0xC then memWrite [] 0 (elemBytes 0xD (readElems 0xC own 0 (collBytes f / 2)))
    else memWrite [] 0 own

/-- Starts the exchange; the origin first sends WORK to the other members. Each member's part: the algorithm, the members
with their parents (log entry 61), and its own record. -/
def startCollective (s : State) (a : Active) : State :=
  let f := a.frame
  let ms := collMembers s f
  let peers := ms.filter (fun m => m != moduleNo s)
  let w : FleetWork := { cmd := a.id, waiting := if a.origin.isSome then [] else peers, steps := collSteps s f, buf := collStart s f }
  let s1 := { s with hawser := { s.hawser with works := s.hawser.works ++ [w] } }
  let bs := listRecs s f
  let s2 := if a.origin.isSome then s1
    else peers.foldl (fun st m =>
      sendWork m a.opcode f.berth f.tag.toNat (padTo 48 f.params)
        (peerPrefix (boolNat (collRing s f)) (ms ++ collParents s f) ++ slice bs (16 * ms.idxOf m) 16) st) s1
  workBegin a.id f.berth s2

/-- Writes the finished buffer into the berth's memory: for ALL_REDUCE converted to FMT; overflows and NaN results
(R335). -/
def collFinish (s : State) (a : Active) : State × Nat × Nat :=
  let f := a.frame
  let buf := ((getWork s a.id).map (fun w => w.buf)).getD []
  let r := ownRecord s f
  match regionOf s f.berth (recRkey r 0) with
  | none => (s, 0, 0)
  | some g =>
    let put (d : Bytes) : State := setShareMem f.berth (memWrite (shareMem s f.berth) (g.offset + recOffset r 0) d) s
    if collKind f = 2 then (put (memRead buf 0 (bufferBytes f)), 0, 0)
    else
      let n := wireBytes f / 4
      let c := convertRows (collFmt f) [readElems 0xD (memRead buf 0 (4 * n)) 0 n]
      (put (elemBytes (collFmt f) c.1.flatten), c.2.satOut, c.2.nanOut)

/-- h of Table 12.6. -/
def collHops (s : State) (f : Frame) : Nat :=
  let ms := collMembers s f
  if collRing s f then 2 * (ms.length - 1) else 2 * farthestHops s ms

/-- The links the collective crosses and the bytes on each. -/
def collLinks (s : State) (f : Frame) : List (Nat × Nat) × Nat :=
  let ms := collMembers s f
  let n := ms.length
  if collRing s f then
    let ring := sortBy (fun a b => decide (a ≤ b)) ms
    (List.zip ring (ring.drop 1 ++ ring.take 1), if collKind f = 2 then ceilDiv ((n - 1) * collBytes f) 2 else ceilDiv ((n - 1) * wireBytes f) n)
  else (routeHopsOf s ms, if collKind f = 2 then n * collBytes f else wireBytes f)

def collBound (s : State) (f : Frame) : Nat := let l := collLinks s f; hopsNs s l.1 l.2 + collHops s f * hopNs

/-- The end of the exchange at the origin or at a member (R334, R337). -/
def collWork (s : State) (a : Active) : State × WorkOut :=
  let f := a.frame
  match fleetFailure s a.id with
  | some o => (s, o)
  | none =>
    let r := collFinish s a
    if a.origin.isSome then (r.1, okOut [] (toLE 4 (clampTo 32 r.2.1) ++ toLE 4 (clampTo 32 r.2.2)))
    else
      let rs := ((getWork s a.id).map (fun w => w.results)).getD []
      let sat := r.2.1 + sumNat (rs.map (fun x => getLE x.2 32 4))
      let nan := r.2.2 + sumNat (rs.map (fun x => getLE x.2 36 4))
      let l := collLinks s f
      (r.1, okOut [] (toLE 2 (collCount f) ++ zeros 2 ++ toLE 4 (collHops s f) ++ toLE 8 (s.now - a.acceptedLocal) ++ toLE 8 (collBound s f)
        ++ toLE 8 (hopsBytes s l.1 l.2) ++ toLE 4 (clampTo 32 sat) ++ toLE 4 (clampTo 32 nan)))

/-- Ports the collective uses here, each with 4 MiB of receive space (R333). -/
def collSpace (s : State) (f : Frame) : Nat := receiveSpace (workPorts s (collMembers s f)).length

def spaceFits (s : State) (f : Frame) : Option Refuse :=
  let free := sramFree s f.berth - (if isMember f then 0 else 72)
  need (decide (collSpace s f ≤ free)) (noResource 0x0800 free (collSpace s f))

def cmdCollective : CmdSpec :=
  { opcode := 0x0810, cls := 1, result := true
    units := fun s _ => hawserAny s
    check := collCheck
    objects := fun s f => refRts s f (collList f)
    needs := spaceFits
    size := fun _ _ => 40
    uses := fun s f =>
      { refs := { kind := 2, qpn := 0, rkey := recRkey (ownRecord s f) 0, offset := 0, length := 0 } :: (if isMember f then [] else [collList f])
        sources := { kind := 2, qpn := 0, rkey := recRkey (ownRecord s f) 0, offset := recOffset (ownRecord s f) 0, length := bufferBytes f }
          :: (if isMember f then [] else [collList f])
        reserved := collSpace s f }
    take := fun s a => modActive a.id (fun a => { a with hawser := true }) s
    depth := fun _ _ => 2
    slow := fun _ _ => true
    start := startCollective
    done := fun s a =>
      match getWork s a.id with
      | none => true
      | some w => (fleetFailure s a.id).isSome || (w.steps.isEmpty && (a.origin.isSome || fleetDone s a.id))
    work := collWork
    memberParams := 48
    memberCheck := fun s f => firstSome
      [ bufferCheck s f (payLoc f (f.payload.length - 16)) (ownRecord s f), spaceFits s f ] }

end Sys2Proof.Machine
end

