-- ==== Sys2Proof/Machine/StormCore.lean ====
section
/-! DEFINITION. Storm mooring (chapter 13): the motion filter and its measures (R345 to R347), motion events (R362, R363),
storm states and announcements (R342 to R344, R350, R351), and the commands that read motion records. -/

namespace Sys2Proof.Machine

/-! ### STORM_CONTROL (Table 13.10) -/

def stormCtl (s : State) (lo w : Nat) : Nat := bits s.regs.stormControl.toNat lo w
def motionEn (s : State) : Bool := stormCtl s 0 1 == 1
def staltaEn (s : State) : Bool := stormCtl s 1 1 == 1
def peerEn (s : State) : Bool := stormCtl s 2 1 == 1

def modStorm (g : Storm → Storm) (s : State) : State := { s with storm := g s.storm }
def modMotion (g : Motion → Motion) (s : State) : State := modStorm (fun x => { x with sensor := g x.sensor }) s

/-! ### The filter (R346) -/

/-- The coefficients b, a, c, d1 and d2: the FP32 values nearest the exact results of R346's formulas. -/
def coefB : Num := f32 0x3F7FEB6B
def coefA : Num := f32 0x3F7FD6D6
def coefC : Num := f32 0x3B6D59BC
def coefD1 : Num := f32 0xBFE94E11
def coefD2 : Num := f32 0x3F565189

def stormAdd (x y : Num) : Num := fmtFp32.add x y
def stormMul (x y : Num) : Num := fmtFp32.mul x y
def stormSub (x y : Num) : Num := fmtFp32.add x y.neg

def ofF32 (x : F32) : Num := f32 x.toNat
def toF32 (x : Num) : F32 := BitVec.ofNat 32 (f32Bits x)

/-- A count in mg: 0.244140625 mg each. -/
def countMg (c : BitVec 16) : Num := (Num.ofInt c.toInt).mul (.fin false 125 (-9))

/-- One axis and one sample: the high-pass, then the low-pass, each operation rounded to FP32 in the order in which R346
writes it (log entry 81). `first` settles the filter on its first valid sample. -/
def axisStep (first : Bool) (x : Num) (a : AxisFilter) : AxisFilter × Num :=
  if first then ({ x1 := toF32 x, h1 := 0, h2 := 0, y1 := 0, y2 := 0 }, Num.zero)
  else
    -- h1 and h2 are the last two outputs of the high-pass, the inputs of the low-pass
    let h := stormAdd (stormMul coefB (stormSub x (ofF32 a.x1))) (stormMul coefA (ofF32 a.h1))
    let l := stormMul coefC (stormAdd (stormAdd h (stormMul (Num.ofNat 2) (ofF32 a.h1))) (ofF32 a.h2))
    let y := stormSub (stormSub l (stormMul coefD1 (ofF32 a.y1))) (stormMul coefD2 (ofF32 a.y2))
    ({ x1 := toF32 x, h1 := toF32 h, h2 := a.h1, y1 := toF32 y, y2 := a.y1 }, y)

/-- |a| of the filtered vector in mg. -/
def magnitude (ys : List Num) : Num := fmtFp32.sqrt ((ys.map (fun y => stormMul y y)).foldl stormAdd Num.zero)

/-! ### The measures -/

/-- The exact sum of FP32 values. -/
def exactSum (l : List F32) : Num := (l.map ofF32).foldl Num.add Num.zero

def largest (l : List F32) : Num := (l.map ofF32).foldl Num.maxOf Num.zero

/-- The 1 s peak. -/
def peak1s (s : State) : Num := largest s.storm.sensor.window

/-- x / n for a count n. -/
def overCount (x : Num) (n : Nat) : Num := if n = 0 then Num.zero else fmtFp64.div x (Num.ofNat n)

/-- A non-negative measure in whole units, rounded down, saturating at `w` bits (log entry 80). -/
def wholeOf (w : Nat) (x : Num) : Nat :=
  match x with
  | .fin false _ _ => clampTo w x.floorNat
  | .fin true _ _ => 0
  | _ => 2 ^ w - 1

/-- x ≤ y for sums and products of exact values. -/
def atLeast (y x : Num) : Bool := !(y.lt x)

def staCount (s : State) : Nat := s.storm.sensor.window.length
def ltaCount (s : State) : Nat := s.storm.sensor.ltaWin.length

/-- STA ≥ STA_MIN_MG and 10 × STA ≥ STALTA_X10 × LTA, compared exactly. -/
def staltaHolds (s : State) : Bool :=
  let st := exactSum s.storm.sensor.window
  let lt := exactSum s.storm.sensor.ltaWin
  decide (0 < staCount s)
    && atLeast st (Num.ofNat (stormCtl s 40 8 * staCount s))
    && atLeast (st.mul (Num.ofNat (10 * ltaCount s))) (lt.mul (Num.ofNat (stormCtl s 32 8 * staCount s)))

/-- 10 × STA ÷ LTA, saturating. With LTA 0 the quotient has no value (free). -/
def staltaX10 (s : State) : Nat :=
  let lt := exactSum s.storm.sensor.ltaWin
  if lt.isZero then clampTo 16 (Config.amount s.fresh)
  else wholeOf 16 (fmtFp64.div ((exactSum s.storm.sensor.window).mul (Num.ofNat (10 * ltaCount s))) (lt.mul (Num.ofNat (staCount s))))

/-- LTA in µg. -/
def ltaUmg (s : State) : Nat := wholeOf 16 (overCount ((exactSum s.storm.sensor.ltaWin).mul (Num.ofNat 1000)) (ltaCount s))

def pgaArmed (s : State) : Bool := !s.storm.sensor.fault && decide (10000 ≤ s.storm.sensor.validRun)
def staltaArmed (s : State) : Bool := !s.storm.sensor.fault && decide (60000 ≤ s.storm.sensor.validRun)

/-! ### Motion events (R362) -/

/-- The record of the open event changes. -/
def modOpenEvent (g : MotionEvent → MotionEvent) (s : State) : State :=
  if s.storm.openEvent then
    { s with motionLog := s.motionLog.map (fun e => if e.no = s.lastEvent then g e else e) }
  else s

/-- A trigger of `cause` opens an event or folds into the open one. -/
def recordCause (cause : BitVec 5) (s : State) : State :=
  if s.storm.openEvent then modOpenEvent (fun e => { e with cause := e.cause ||| cause }) s
  else
    let no := s.lastEvent + 1
    let pre := s.storm.sensor.raw.take 10000
    let now := ptpNow s
    let e : MotionEvent :=
      { no := no, cause := cause
        flags := (if s.dev.state = .braced then 1 else 0) ||| (if s.storm.sensor.fault then 4 else 0)
        devState := s.dev.state.code, timeState := s.clock.state.code, openTime := now, closeTime := 0, peakTime := now, peak := 0,
        peakXyz := [0, 0, 0], staltaPeak := 0, errBound := errBound s, source := 0,
        firstTime := s.storm.sensor.rawMs * 1000000 - (pre.length - 1) * 1000000, samples := pre.reverse }
    modStorm (fun x => { x with openEvent := true }) { s with lastEvent := no, motionLog := (s.motionLog ++ [e]).drop (s.motionLog.length + 1 - 64) }

def closeEvent (s : State) : State :=
  if s.storm.openEvent then modStorm (fun x => { x with openEvent := false }) (modOpenEvent (fun e => { e with closeTime := ptpNow s }) s) else s

/-- SOURCE: the first alert's, or else the first peer's. -/
def recordSource (alert : Bool) (v : BitVec 64) (s : State) : State :=
  modOpenEvent (fun e =>
    if alert then (if e.cause.getLsbD 2 then e else { e with source := v })
    else (if e.cause.getLsbD 2 || e.cause.getLsbD 3 then e else { e with source := v })) s

/-! ### Announcements (R351, Table 13.4) -/

def StormState.code : StormState → Nat
  | .calm => 0 | .brace => 1 | .settle => 2 | .flush => 3

/-- The storm state as it reads (R342). -/
def stormNow (s : State) : StormState :=
  if s.storm.state = .flush then .flush
  else if s.dev.state = .ready ∨ s.dev.state = .braced then s.storm.state else .calm

/-- CONDITIONS: MOTION, ALERT, PEER, POWER from bit 0. -/
def conditions (s : State) : Nat :=
  (if s.storm.motion then 1 else 0) + (if s.storm.alerts.isEmpty then 0 else 2) + (if s.storm.peers.isEmpty then 0 else 4) + (if s.storm.power then 8 else 0)

/-- Bytes 32 to 87 of the notice. -/
def announceBody (s : State) : Bytes :=
  toLE 4 s.lb.announceNo ++ toLE 2 (moduleNo s) ++ toLE 1 (stormNow s).code ++ toLE 1 (conditions s) ++ toLE 8 (ptpNow s)
    ++ toLE 8 (if stormNow s = .calm then 0 else s.storm.bracedAt) ++ toLE 2 (wholeOf 16 (ofF32 s.storm.peakSince)) ++ toLE 2 (staltaX10 s)
    ++ toLE 1 s.clock.state.code ++ zeros 3 ++ toLE 4 (errBound s) ++ zeros 4 ++ padTo 16 (s.fixed.serial.take 16)

/-- Every distinct enabled NOTICE_DEST: port, address, UDP port. -/
def noticeDests (s : State) : List (Nat × Addr × Nat) :=
  (((List.range 16).filter (noticeOn s)).map (fun b => (noticeBits s b 0 3, BitVec.ofNat 128 (noticeBits s b 32 128), noticeBits s b 8 16))).eraseDups

/-- ff02::1. -/
def allNodes : Addr := BitVec.ofNat 128 (0x02FF + 2 ^ 120)

/-- One announcement with a new ANNOUNCE_NO. -/
def announce (s : State) : State :=
  let s1 := useFresh { s with lb := { s.lb with announceNo := satAdd 32 s.lb.announceNo 1 }, storm := { s.storm with repeatAt := s.now } }
  let body := announceBody s1
  let block := blockNow s1 0 stOk .none
  let s2 := if stormCtl s 4 1 = 1 then
      (noticeDests s1).foldl (fun st d => sendNotice d.1 d.2.1 d.2.2 0x0980 0 true block body [] st) s1 else s1
  let s3 := if stormCtl s 3 1 = 1 then
      (List.range 8).foldl (fun st p => sendNotice p allNodes (udpPort st) 0x0980 0 true block body [] st) s2 else s2
  ((List.range 6).filter (hawserUp s3)).foldl (fun st p =>
    sendOn p { typ := 3, vl := 31, dest := 0xFFFF, src := moduleNo st, last := true, payload := body } st) s3

/-! ### Storm transitions (R344) -/

def anyCondition (s : State) : Bool := conditions s != 0

/-- The move to P0 on entry to BRACED or DRAINING (R60). -/
def wakeAll (s : State) : State :=
  if s.power.current = 0 then s else { s with power := { s.power with exitTo := some 0 } }

/-- Entry to the storm state BRACE. -/
def stormBrace (s : State) : State :=
  announce { s with
    lb := { s.lb with braces := satAdd 32 s.lb.braces 1 }
    storm := { s.storm with state := .brace, since := ptpNow s, bracedAt := ptpNow s, peakSince := toF32 (peak1s s), events := s.storm.events ||| 1 } }

/-- Entry to BRACED: P0, the first announcement; sealing follows (R352). -/
def enterBrace (s : State) : State :=
  let s1 := enterState .braced s
  let s2 := wakeAll { s1 with storm := { s1.storm with sealDone := false } }
  stormBrace (modOpenEvent (fun e => { e with flags := e.flags ||| 1 }) s2)

/-- The storm state after the conditions have changed. -/
def stormUpdate (s : State) : State :=
  if s.pf.flushAt.isSome then s
  else if s.dev.state = .ready then (if anyCondition s then enterBrace s else s)
  else if s.dev.state = .braced then
    (match s.storm.state with
     | .brace => if anyCondition s then s
        else announce { s with storm := { s.storm with state := .settle, since := ptpNow s, holdAt := s.now } }
     | .settle => if anyCondition s then stormBrace s else s
     | _ => s)
  else s

/-- The storm state after a condition has ended: only the release of brace follows. -/
def stormRelease (s : State) : State := if s.dev.state = .ready then s else stormUpdate s

/-- A condition has become active: recorded, and in DRAINING announced (R20); then the storm state follows. -/
def conditionOn (cause : BitVec 5) (s : State) : State :=
  let s1 := recordCause cause s
  if s1.dev.state = .draining then announce s1 else stormUpdate s1

/-! ### Alerts and peers (R349, R350) -/

/-- An alert at its arrival. -/
def takeAlert (f : Frame) (s : State) : State ⊕ Refuse :=
  let src := BitVec.ofNat 64 (par f 0 8)
  let sq := BitVec.ofNat 32 (par f 8 4)
  let dur := par f 12 2
  let was := s.storm.alerts.isEmpty
  let set (l : List AlertSource) : State := { s with storm := { s.storm with alerts := l } }
  let new : AlertSource := { source := src, seqNo := sq, expiry := s.now + dur * 1000000000 }
  let added (l : List AlertSource) : State :=
    let s1 := recordSource true src (set l)
    if was then
      let s2 := recordCause 4 s1
      let s3 := modOpenEvent (fun e => if s1.storm.openEvent then e else { e with source := src }) s2
      if s3.dev.state = .draining then announce s3 else stormUpdate s3
    else recordCause 4 s1
  match s.storm.alerts.find? (fun a => a.source == src) with
  | some a =>
    if a.seqNo = sq then .inl s
    else if dur = 0 then .inl (stormRelease (set (s.storm.alerts.filter (fun x => x.source != src))))
    else .inl (added (s.storm.alerts.map (fun x => if x.source = src then new else x)))
  | none =>
    if dur = 0 then .inl s
    else if 16 ≤ s.storm.alerts.length then .inr (noResource 0x0900 0 1)
    else .inl (added (s.storm.alerts ++ [new]))

/-- Step 11 of BRACE_ALERT (Table 13.3). -/
def alertCheck (f : Frame) : Option Refuse :=
  firstSome [ inRange f 12 2 0 3600, rsv f 14 2, rsv f 24 8, noTail f 32 ]

/-- BRACE_ALERT without URGENT never passes step 5 (R348). -/
def cmdBraceAlert : CmdSpec :=
  { opcode := 0x0900, cls := 1, ctrl := true
    frameOk := fun _ f => firstSome
      [ need f.urgent (stBadFrame, .field 0xFFFFFF03 0 2 2 1 1), need (f.berth == 0) (badFrameHeader 6 1 0 0),
        need (f.queue == 0xFF) (badFrameHeader 7 1 0xFF 0xFF) ]
    device := fun s _ => s.dev.state == .ready || s.dev.state == .braced || s.dev.state == .draining
    freeOk := fun _ _ => true
    check := fun _ f => alertCheck f
    work := fun s a =>
      match takeAlert a.frame s with
      | .inl s1 => (s1, okOut (toLE 1 (stormNow s1).code ++ zeros 7) [])
      | .inr r => (s, failOut r) }

/-- An announcement of another module: PEER follows its state (R350). -/
def takeAnnounce (src : Nat) (body : Bytes) (s : State) : State :=
  let st := getLE body 6 1
  let cond := getLE body 7 1
  let others := s.storm.peers.filter (fun p => p.module != src)
  let set (l : List PeerBrace) (x : State) : State := { x with storm := { x.storm with peers := l } }
  if st ≠ 1 then (if s.storm.peers.length = others.length then s else stormRelease (set others s))
  else if peerEn s && decide (cond % 4 ≠ 0) then
    let new := set ({ module := src, last := s.now } :: others) s
    if s.storm.peers.isEmpty then
      let s1 := recordSource false (BitVec.ofNat 64 src) new
      let s2 := recordCause 8 s1
      let s3 := modOpenEvent (fun e => if s1.storm.openEvent then e else { e with source := BitVec.ofNat 64 src }) s2
      if s3.dev.state = .draining then announce s3 else stormUpdate s3
    else new
  else s

/-! ### Commands (R363) -/

/-- The lowest and highest event number held. -/
def heldEvents (s : State) : Nat × Nat := (((s.motionLog.head?).map (fun e => e.no)).getD 0, ((s.motionLog.getLast?).map (fun e => e.no)).getD 0)

def eventNamed (s : State) (n : Nat) : Option MotionEvent := s.motionLog.find? (fun e => e.no == n)

/-- Table 13.9. -/
def eventRecord (e : MotionEvent) : Bytes :=
  toLE 4 e.no ++ toLE 1 e.cause.toNat ++ toLE 1 e.flags.toNat ++ toLE 1 e.devState ++ toLE 1 e.timeState ++ toLE 8 e.openTime ++ toLE 8 e.closeTime
    ++ toLE 8 e.peakTime ++ toLE 2 (wholeOf 16 (ofF32 e.peak)) ++ e.peakXyz.flatMap (fun x => toLE 2 (wholeOf 16 (ofF32 x)))
    ++ toLE 2 e.staltaPeak ++ zeros 2 ++ toLE 4 e.errBound ++ toLE 8 e.source.toNat ++ toLE 4 e.samples.length ++ zeros 4

def cmdMotionEvents : CmdSpec :=
  { opcode := 0x0901, cls := 0, result := true
    check := fun s f => firstSome
      [ need ((eventNamed s (par f 0 4)).isSome) (badBytes 0 4 (heldEvents s).1 (heldEvents s).2), inRange f 4 2 1 64, rsv f 6 2, noTail f 8 ]
    size := fun _ f => 8 + 64 * par f 4 2
    work := fun s a =>
      let l := (s.motionLog.filter (fun e => decide (par a.frame 0 4 ≤ e.no))).take (par a.frame 4 2)
      (s, okOut [] (toLE 4 l.length ++ zeros 4 ++ l.flatMap eventRecord)) }

def sampleBytes (x : BitVec 16 × BitVec 16 × BitVec 16) : Bytes := toLE 2 x.1.toNat ++ toLE 2 x.2.1.toNat ++ toLE 2 x.2.2.toNat

def cmdMotionWaveform : CmdSpec :=
  { opcode := 0x0902, cls := 0, result := true
    check := fun s f => firstSome
      [ (match eventNamed s (par f 0 4) with
         | none => some (badBytes 0 4 (heldEvents s).1 (heldEvents s).2)
         | some e => firstSome [ inRange f 8 4 1 310000,
             need (decide (par f 4 4 + par f 8 4 ≤ e.samples.length)) (badBytes 8 4 1 (e.samples.length - par f 4 4)) ]),
        rsv f 12 4, parRefCheck s f 16 [0, 2, 3],
        (if (parRef f 16).kind = 0 then none else refLength 16 (parRef f 16) (6 * par f 8 4)), noTail f 48 ]
    objects := fun s f => refRts s f (parRef f 16)
    size := fun _ f => 16 + (if (parRef f 16).kind = 0 then 6 * par f 8 4 else 0)
    uses := fun _ f => { refs := [parRef f 16] }
    depth := fun _ _ => 2
    slow := fun _ _ => true
    work := fun s a =>
      match eventNamed s (par a.frame 0 4) with
      | none => (s, failOut (badBytes 0 4 (heldEvents s).1 (heldEvents s).2))
      | some e =>
        let d := ((e.samples.drop (par a.frame 4 4)).take (par a.frame 8 4)).flatMap sampleBytes
        let head := toLE 4 e.no ++ toLE 4 (par a.frame 8 4) ++ toLE 8 e.firstTime
        if (parRef a.frame 16).kind = 0 then (s, okOut [] (head ++ d))
        else (putRef a.frame.berth (parRef a.frame 16) d s, okOut [] head) }

/-! ### Samples (R345 to R347) -/

/-- The accelerometer works: from TRIAL on, and after sea trial while SEISMIC is set (R13, log entry 82). -/
def sensorOn (s : State) : Bool := s.dev.state != .powered && (s.dev.state == .trial || unitBit s 21)

abbrev Sample := BitVec 16 × BitVec 16 × BitVec 16

def missingSample : Sample := (0x8000, 0x8000, 0x8000)

/-- A count of −32,768 is stored as −32,767. -/
def clipCount (c : BitVec 16) : BitVec 16 := if c = 0x8000 then 0x8001 else c

/-- Counts that lie at the end of the range. -/
def clips (x : Sample) : Nat := ([x.1, x.2.1, x.2.2].filter (fun c => c == 0x8001 || c == 0x7FFF)).length

def isSpike (x y : Sample) : Bool :=
  let far (a b : BitVec 16) : Bool := decide (16384 < (a.toInt - b.toInt).natAbs)
  far x.1 y.1 || far x.2.1 y.2.1 || far x.2.2 y.2.2

/-- Consecutive identical samples of each axis. -/
def sameRun (l : List Nat) (x y : Sample) : List Nat :=
  let g (n : Nat) (a b : BitVec 16) : Nat := if a = b then n + 1 else 1
  [g (l.getD 0 0) x.1 y.1, g (l.getD 1 0) x.2.1 y.2.1, g (l.getD 2 0) x.2.2 y.2.2]

/-- The raw sample enters the memory of the last 10 s and the open event. -/
def storeRaw (x : Sample) (s : State) : State :=
  let s1 := modMotion (fun m => { m with raw := (x :: m.raw).take 10000, rawMs := m.sampledMs }) s
  modOpenEvent (fun e =>
    if e.samples.isEmpty then { e with samples := [x], firstTime := s.storm.sensor.sampledMs * 1000000 }
    else if e.samples.length < 310000 then { e with samples := e.samples ++ [x] } else e) s1

/-- SENSOR_FAULT is set and counted; the triggers are disarmed. -/
def sensorFault (s : State) : State :=
  if s.storm.sensor.fault then s
  else
    let s1 := modMotion (fun m => { m with fault := true, faultRun := 0, validRun := 0, pgaRun := 0, staltaWas := false, faults := satAdd 16 m.faults 1 }) s
    modOpenEvent (fun e => { e with flags := e.flags ||| 4 }) { s1 with storm := { s1.storm with events := s1.storm.events ||| 2 } }

/-- Filters, windows, measures and triggers for the sample `x` used at this instant; the Bool says it was a valid one. -/
def filterSample (x : Sample) (valid : Bool) (s : State) : State :=
  let m := s.storm.sensor
  let first := m.window.isEmpty
  let st (i : Nat) (c : BitVec 16) : AxisFilter × Num := axisStep first (countMg c) (m.filters.getD i {})
  let rs := [st 0 x.1, st 1 x.2.1, st 2 x.2.2]
  let ys := rs.map (fun r => r.2)
  let a := magnitude ys
  let over1 := (Num.ofNat (stormCtl s 8 11)).lt a
  let s1 := modMotion (fun m => { m with
    filters := rs.map (fun r => r.1), window := (toF32 a :: m.window).take 1000,
    ltaWin := (if s.storm.motion then m.ltaWin else (toF32 a :: m.ltaWin).take 60000),
    validRun := (if valid then m.validRun + 1 else m.validRun), pgaRun := (if over1 then m.pgaRun + 1 else 0) }) s
  let pga := motionEn s && pgaArmed s1 && s1.storm.sensor.pgaRun == 3
  let sl := staltaEn s && staltaArmed s1 && staltaHolds s1
  let sta := sl && !m.staltaWas
  let s2 := modMotion (fun m => { m with staltaWas := sl }) s1
  let s3 := if (ofF32 s2.storm.peakSince).lt (peak1s s2) then { s2 with storm := { s2.storm with peakSince := toF32 (peak1s s2) } } else s2
  let s4 := if pga || sta then
      let s4 := modMotion (fun m => { m with triggerAt := s3.now }) { s3 with storm := { s3.storm with motion := true } }
      let cause : BitVec 5 := (if pga then 1 else 0) ||| (if sta then 2 else 0)
      if s3.storm.motion then recordCause cause s4 else conditionOn cause s4
    else if s3.storm.motion ∧ s3.storm.sensor.triggerAt + 1000000000 ≤ s3.now ∧ atLeast (Num.ofNat (stormCtl s 19 11)) (peak1s s3) then
      let s4 := stormRelease { s3 with storm := { s3.storm with motion := false } }
      if s4.dev.state = .ready ∨ s4.dev.state = .braced then s4 else closeEvent s4
    else s3
  modOpenEvent (fun e =>
    let xyz := (List.zip e.peakXyz ys).map (fun p =>
      let y := if p.2.lt Num.zero then p.2.neg else p.2
      if (ofF32 p.1).lt y then toF32 y else p.1)
    let sp := max e.staltaPeak (staltaX10 s4)
    if (ofF32 e.peak).lt a then { e with peak := toF32 a, peakTime := ptpNow s4, peakXyz := xyz, staltaPeak := sp }
    else { e with peakXyz := xyz, staltaPeak := sp }) s4

/-- A missing sample: stored as missing; before a fault the filters take the previous sample in its place. -/
def missSample (s : State) : State :=
  let s1 := storeRaw missingSample (modMotion (fun m => { m with missing := m.missing + 1 }) s)
  if 5 ≤ s1.storm.sensor.missing then sensorFault s1
  else if s1.storm.sensor.fault then modMotion (fun m => { m with faultRun := 0 }) s1
  else
    match s1.storm.sensor.last with
    | some x => filterSample x false s1
    | none => s1

/-- A sample read at a whole millisecond. -/
def readSample (x0 : Sample) (s : State) : State :=
  let m := s.storm.sensor
  let x1 : Sample := (clipCount x0.1, clipCount x0.2.1, clipCount x0.2.2)
  let prev := m.last.getD x1
  let spike := isSpike x1 prev
  let x := if spike then prev else x1
  let same := if m.last.isNone then [1, 1, 1] else sameRun m.same x prev
  let s1 := modMotion (fun m => { m with
    missing := 0, last := some x, same := same, clipped := satAdd 16 m.clipped (clips x1), spikes := satAdd 16 m.spikes (if spike then 1 else 0) }) s
  let s2 := if 0 < clips x1 then modOpenEvent (fun e => { e with flags := e.flags ||| 2 }) s1 else s1
  let stuck := same.any (fun n => decide (500 ≤ n))
  if m.fault then
    let run := if stuck then 0 else m.faultRun + 1
    let s3 := storeRaw x s2
    if 1000 ≤ run then
      modMotion (fun m => { m with fault := false, faultRun := 0, window := [], ltaWin := [], filters := [{}, {}, {}], validRun := 0, pgaRun := 0 }) s3
    else modMotion (fun m => { m with faultRun := run }) s3
  else if stuck then sensorFault (storeRaw x s2)
  else
    -- an event that this sample opens holds the 10 s before it, then the sample
    storeRaw x (filterSample x true s2)

/-- ACCELEROMETER_SAMPLE: at each whole millisecond of PTP time while the accelerometer works; ignored in a flush (R358). -/
def execAccelerometerSample (t : Nat) (sample : Option (BitVec 16 × BitVec 16 × BitVec 16)) (s0 : State) : Host.Outcome State Fault Refusal :=
  let s := setNow t s0
  let ms := ptpNow s / 1000000
  if sensorOn s ∧ s.pf.flushAt = none ∧ s.storm.sensor.sampledMs ≠ ms then
    let s1 := modMotion (fun m => { m with sampledMs := ms, lastAt := (if sample.isSome then s.now else m.lastAt) }) s
    .next (match sample with
      | some x => readSample x s1
      | none => missSample s1)
  else .next s

/-- ACCELEROMETER_FAULT: no sample for 5 ms, or an axis identical for 500 samples. -/
def execAccelerometerFault (t : Nat) (s0 : State) : Host.Outcome State Fault Refusal :=
  let s := setNow t s0
  let m := s.storm.sensor
  if sensorOn s ∧ s.pf.flushAt = none ∧ (max m.lastAt s.dev.trialAt + 5000000 ≤ s.now ∨ 5 ≤ m.missing ∨ m.same.any (fun n => decide (500 ≤ n))) then .next (sensorFault s)
  else .next s

/-- ALERT_EXPIRY: the source is dropped. -/
def execAlertExpiry (t : Nat) (source : BitVec 64) (s0 : State) : Host.Outcome State Fault Refusal :=
  let s := setNow t s0
  if s.storm.alerts.any (fun a => a.source == source && decide (a.expiry ≤ s.now)) then
    .next (stormRelease { s with storm := { s.storm with alerts := s.storm.alerts.filter (fun a => a.source != source) } })
  else .next s

/-- PEER_EXPIRY: 25 s without a bracing announcement. -/
def execPeerExpiry (t moduleNo : Nat) (s0 : State) : Host.Outcome State Fault Refusal :=
  let s := setNow t s0
  if s.storm.peers.any (fun p => p.module == moduleNo && decide (p.last + 25000000000 ≤ s.now)) then
    .next (stormRelease { s with storm := { s.storm with peers := s.storm.peers.filter (fun p => p.module != moduleNo) } })
  else .next s

/-- ANNOUNCEMENT_REPEAT: every 10 s while not CALM; none in FLUSH. -/
def execAnnouncementRepeat (t : Nat) (s0 : State) : Host.Outcome State Fault Refusal :=
  let s := setNow t s0
  if (stormNow s = .brace ∨ stormNow s = .settle) ∧ s.storm.repeatAt + 10000000000 ≤ s.now then .next (announce s) else .next s

end Sys2Proof.Machine
end

