-- ==== Sys2Proof/Machine/Berths.lean ====
section
/-! DEFINITION. Berth commands 0x0700 to 0x0704, bollards and mailboxes (R291 to R302, R317, R318). -/

namespace Sys2Proof.Machine

/-- The four berth-management commands carry BERTH 0 in the header (R294). -/
def berthZero (f : Frame) : Option Refuse := need (f.berth == 0) (badFrameHeader 6 1 0 0)

/-- TARGET 1 to 15 and seven reserved bytes. -/
def targetCheck (f : Frame) : Option Refuse := firstSome [ inRange f 0 1 1 15, rsv f 1 7 ]

/-- Bits of the SHARES field at offset 8 of BERTH_CREATE. -/
def sharesPar (f : Frame) (lo w : Nat) : Nat := bits (par f 8 16) lo w

/-- The sum of a share field over the berths that are not FREE. -/
def shareSum (s : State) (lo w : Nat) : Nat :=
  sumNat ((List.range 16).map (fun b => if berthLive s b then shareBits s b lo w else 0))

/-- A share of BERTH_CREATE must fit its module total (R300). -/
def shareFits (s : State) (f : Frame) (lo w total res : Nat) : Option Refuse :=
  need (decide (shareSum s lo w + sharesPar f lo w ≤ total)) (noResource res (total - shareSum s lo w) (sharesPar f lo w))

/-- A berth as BERTH_CREATE makes it: MOORED, its shares, an open breakwater and every other parameter at its
reset value; bollards 0 and an empty inbox (R293, R300). -/
def newBerth (shares : BitVec 128) : Berth :=
  { state := .moored, regs := { shares := shares, breakwater := openBreakwater } }

def setBerth (b : Nat) (x : Berth) (s : State) : State := modBerth b (fun _ => x) s

def cmdBerthCreate : CmdSpec :=
  { opcode := 0x0700, cls := 2
    frameOk := fun _ f => berthZero f
    check := fun _ f => firstSome
      [ targetCheck f, bitsIn f 8 16 16 8 0 128, bitsIn f 8 16 24 7 0 64, rsvBits f 8 16 31 1, bitsIn f 8 16 32 13 0 4096,
        rsvBits f 8 16 45 3, bitsIn f 8 16 48 5 1 16, rsvBits f 8 16 53 11, rsvBits f 8 16 96 32, noTail f 24 ]
    objects := fun s f => need (!berthLive s (par f 0 1)) conflictNone
    needs := fun s f => firstSome
      [ logOk s, shareFits s f 0 16 (sramUnitsTotal s.fixed.variant) 0x0700, shareFits s f 16 8 128 0x0701,
        shareFits s f 24 7 64 0x0702, shareFits s f 32 13 4096 6 ]
    work := fun s a =>
      let b := par a.frame 0 1
      (resetQueues b (setBerth b (newBerth (BitVec.ofNat 128 (par a.frame 8 16))) s), okOut [] []) }

/-- What keeps a berth from release, in the order of R301. -/
def releaseBlocked (s : State) (b : Nat) : Option Refuse :=
  firstSome
    [ need (!s.cmds.active.any (fun a => a.frame.berth == b)) conflictNone,
      (s.cmds.slots.find? (fun x => x.berth == b)).map (fun x => conflict kSlot x.tag.toNat
        (match x.state with | .pending => 1 | .ready => 2 | .discard => 3)),
      ((qpsOf s b).head?).map (fun q => conflict kQp q.qpn.toNat q.state.code),
      ((regionsOf s b).head?).map (fun r => conflict kRegion r.rkey.toNat (if regionInUse s r then 2 else 1)),
      (s.media.nss.find? (fun n => n.berth == b)).map (fun n => conflict kNs n.nsid n.state.code),
      (s.media.holds.find? (fun h => h.berth == b)).map (fun h => conflict kHold h.id (holdCode h)),
      (s.indexes.find? (fun x => x.berth == b)).map (fun x => conflict kIndex x.id
        (match x.state with | .online => 1 | .worn => 2 | .offline => 3)),
      (s.plans.find? (fun p => p.berth == b)).map (fun p => conflict kPlan p.id
        (match p.state with | .loaded => 1 | .binding => 2 | .bound => 3)),
      (getVault s b).map (fun _ => conflict kCkpt 0 0xFFFF) ]

def cmdBerthRelease : CmdSpec :=
  { opcode := 0x0701, cls := 2
    frameOk := fun _ f => berthZero f
    check := fun _ f => firstSome [ targetCheck f, noTail f 8 ]
    objects := fun s f => firstSome
      [ need (berthLive s (par f 0 1)) conflictNone, releaseBlocked s (par f 0 1) ]
    needs := fun s _ => logOk s
    work := fun s a => let b := par a.frame 0 1; (resetQueues b (setBerth b {} s), okOut [] []) }

def cmdBerthSuspend : CmdSpec :=
  { opcode := 0x0702, cls := 2
    frameOk := fun _ f => berthZero f
    check := fun _ f => firstSome [ targetCheck f, noTail f 8 ]
    objects := fun s f => need ((getBerth s (par f 0 1)).state == .moored) conflictNone
    needs := fun s _ => logOk s
    work := fun s a => (modBerth (par a.frame 0 1) (fun b => { b with state := .suspended }) s, okOut [] []) }

def cmdBerthResume : CmdSpec :=
  { opcode := 0x0703, cls := 2
    frameOk := fun _ f => berthZero f
    check := fun _ f => firstSome [ targetCheck f, noTail f 8 ]
    objects := fun s f => need ((getBerth s (par f 0 1)).state == .suspended) conflictNone
    needs := fun s _ => logOk s
    work := fun s a => (modBerth (par a.frame 0 1) (fun b => { b with state := .moored }) s, okOut [] []) }

def cmdBerthInfo : CmdSpec :=
  { opcode := 0x0704, cls := 0
    check := fun _ f => firstSome [ inRange f 0 1 0 15, rsv f 1 7, noTail f 8 ]
    work := fun s a =>
      let b := par a.frame 0 1
      let act := s.cmds.active.filter (fun x => x.frame.berth == b)
      (s, okOut (toLE 1 (getBerth s b).state.code ++ zeros 7 ++ toLE 16 (getBerth s b).regs.shares.toNat
        ++ toLE 8 (ceilDiv (sramUse s b) (2 ^ 24) * 2 ^ 24) ++ toLE 4 (ceilDiv (allocOf s b) (2 ^ 30)) ++ toLE 2 (qpsOf s b).length
        ++ toLE 2 ((s.cmds.slots.filter (fun x => x.berth == b)).length) ++ toLE 4 act.length
        ++ toLE 2 ((act.filter (fun x => x.lock.isSome)).length) ++ toLE 1 (getBerth s b).inbox.length ++ zeros 5) []) }

/-! ### Bollards (R317) -/

def bollardCount (s : State) (b n : Nat) : Nat := (getBerth s b).bollards.getD n 0

def setBollard (b n v : Nat) (s : State) : State :=
  modBerth b (fun x => { x with bollards := x.bollards.set n v }) s

def isTake (b n : Nat) (a : Active) : Bool :=
  a.opcode == 0x0720 && a.frame.berth == b && par a.frame 0 1 == n && par a.frame 1 1 == 2

/-- Serves the TAKEs on a bollard in acceptance order, each that is released and has its count; the first that
cannot be served holds back the later ones. -/
def serveTakes (b n : Nat) : List Active → State → State
  | [], s => s
  | a :: l, s =>
    let c := bollardCount s b n
    let k := par a.frame 2 2
    if a.phase = 1 ∧ k ≤ c then
      serveTakes b n l (complete a (okOut (toLE 2 (c - k)) []) (setBollard b n (c - k) s))
    else s

/-- The TAKEs on a bollard, in acceptance order. -/
def takesOn (s : State) (b n : Nat) : List Active := s.cmds.active.filter (isTake b n)

/-- GIVE adds, saturating at 65,535. -/
def give (b n k : Nat) (s : State) : State :=
  let v := bollardCount s b n + k
  let s1 := if 65535 < v then
      modBerth b (fun x => { x with use := { x.use with bollardSat := satAdd 8 x.use.bollardSat 1 } }) s else s
  setBollard b n (min 65535 v) s1

def bollardWork (s : State) (a : Active) : State × WorkOut :=
  let b := a.frame.berth
  let n := par a.frame 0 1
  let k := par a.frame 2 2
  let op := par a.frame 1 1
  let s1 := if op = 1 then give b n k s else if op = 2 then setBollard b n (bollardCount s b n - k) s
    else if op = 3 then setBollard b n k s else s
  let v := bollardCount s1 b n
  (s1, okOut (toLE 2 v) [])

/-- After a GIVE, a TAKE or a SET has completed, the TAKEs that may run now. -/
def bollardAfter (s : State) (a : Active) : State :=
  let op := par a.frame 1 1
  if op ≠ 0 then serveTakes a.frame.berth (par a.frame 0 1) (takesOn s a.frame.berth (par a.frame 0 1)) s else s

def cmdBollard : CmdSpec :=
  { opcode := 0x0720, cls := 1
    check := fun _ f => firstSome
      [ inRange f 0 1 0 63, inRange f 1 1 0 3,
        (if par f 1 1 = 0 then inRange f 2 2 0 0 else if par f 1 1 = 3 then none else inRange f 2 2 1 65535),
        rsv f 4 4, noTail f 8 ]
    wait := fun s a =>
      if par a.frame 1 1 = 2 ∧
        (bollardCount s a.frame.berth (par a.frame 0 1) < par a.frame 2 2 ∨
          (takesOn s a.frame.berth (par a.frame 0 1)).any (fun x => decide (x.id < a.id))) then 1 else 3
    work := bollardWork
    after := bollardAfter }

/-! ### Mailboxes (R318) -/

def inboxFull (s : State) (b : Nat) : Bool := decide (64 ≤ (getBerth s b).inbox.length)

def cmdMailSend : CmdSpec :=
  { opcode := 0x0721, cls := 1
    check := fun _ f => firstSome
      [ inRange f 0 1 0 15, rsv f 1 1, inRange f 2 2 1 240, rsv f 4 4, noTail f 8, payloadIs f (par f 2 2) ]
    objects := fun s f => need (berthLive s (par f 0 1)) conflictNone
    needs := fun s f => need (!inboxFull s (par f 0 1)) (noResource 0x0703 0 1)
    work := fun s a =>
      let dst := par a.frame 0 1
      if !berthLive s dst then (s, failOut conflictNone)
      else if inboxFull s dst then (s, failOut (noResource 0x0703 0 1))
      else
        let m : Mail := { sender := a.frame.berth, seqNo := (getBerth s dst).mailSeq + 1, time := ptpNow s, body := a.frame.payload }
        (modBerth dst (fun b => { b with inbox := b.inbox ++ [m], mailSeq := b.mailSeq + 1 }) s, okOut [] []) }

/-- The 256-byte record of MAIL_RECV. -/
def mailRecord (m : Mail) : Bytes :=
  toLE 1 m.sender ++ zeros 1 ++ toLE 2 m.body.length ++ toLE 4 m.seqNo ++ toLE 8 m.time ++ padTo 240 m.body

def cmdMailRecv : CmdSpec :=
  { opcode := 0x0722, cls := 1
    check := fun _ f => firstSome [ inRange f 0 1 1 16, rsv f 1 7, noTail f 8 ]
    work := fun s a =>
      let b := a.frame.berth
      let box := (getBerth s b).inbox
      let got := box.take (par a.frame 0 1)
      (modBerth b (fun x => { x with inbox := x.inbox.drop got.length }) s,
        okOut (toLE 2 got.length ++ toLE 2 (box.length - got.length)) (got.flatMap mailRecord)) }

end Sys2Proof.Machine
end

