-- ==== Sys2Proof/Machine/Device.lean ====
section
/-! DEFINITION. Opcodes of the device group that act on frames, results and queues: ECHO, READ_RESULT,
RELEASE, QUEUE_STATUS and QUEUE_SET (R34, R49, R50, R53, Table 2.8, Tables 2.10, 2.11 and 2.18). -/

namespace Sys2Proof.Machine

/-- ECHO: the reply payload equals the command payload, at most 65,536 bytes. -/
def cmdEcho : CmdSpec :=
  { opcode := 0x0100, cls := 0, ctrl := true
    freeOk := fun _ _ => true
    check := fun _ f => firstSome
      [ noTail f 0, need (decide (f.payload.length ≤ 65536)) (badPayloadLen 0 65536) ]
    work := fun s a => (s, okOut [] a.frame.payload) }

/-- States in which results can be read and released (Table 1.11). -/
def resultStates (s : State) : Bool :=
  s.dev.state == .ready || s.dev.state == .braced || s.dev.state == .draining || s.dev.state == .dryDock

def rtag (f : Frame) : BitVec 32 := BitVec.ofNat 32 (par f 0 4)

/-- The length of the stored outcome when the slot is READY. -/
def readyTotal (s : State) (f : Frame) : Option Nat :=
  (getSlot s f.berth (rtag f)).bind (fun x => if x.state = .ready then some x.outcome.length else none)

/-- The accepted command whose result a slot awaits. -/
def resultCommand (s : State) (b : Nat) (tag : BitVec 32) : Option Active :=
  s.cmds.active.find? (fun a => a.result && a.frame.berth == b && a.frame.tag == tag)

/-- NOT_READY with PROGRESS: the fraction never decreases between reads; its value is free (Table 2.3). -/
def notReady (s : State) (b : Nat) (tag : BitVec 32) : State × WorkOut :=
  match resultCommand s b tag with
  | none => (s, { status := stNotReady, detail := .progress 0 3 0 })
  | some a =>
    let p := a.progress + pickBelow s (65536 - a.progress)
    (modActive a.id (fun a => { a with progress := p }) (useFresh s),
      { status := stNotReady, detail := .progress p a.phase (s.now - a.acceptedLocal) })

/-- A poisoned word of result memory in the range that a READ_RESULT asks for (Table 14.4). -/
def resultPoison (s : State) (b index off n : Nat) : Option SramWord :=
  s.mem.poisoned.find? (fun w =>
    match Config.resultOf w with
    | some (x, i, o) => x == b && i == index && decide (off < o + 32 ∧ o < off + n)
    | none => false)

/-- READ_RESULT replies as Table 2.9 gives for the slot's state. -/
def cmdReadResult : CmdSpec :=
  { opcode := 0x0103, cls := 1, ctrl := true
    device := fun s _ => resultStates s
    freeOk := fun s _ => s.dev.state == .dryDock
    check := fun s f => firstSome
      [ rsv f 4 4,
        (match readyTotal s f with
         | some n => inRange f 8 8 0 n
         | none => none),
        inRange f 16 4 1 67108864, rsv f 20 4, noTail f 24 ]
    depth := fun _ _ => 2
    work := fun s a =>
      let f := a.frame
      match getSlot s f.berth (rtag f) with
      | none => (s, { status := stResultGone, detail := .none })
      | some x =>
        match x.state with
        | .pending => notReady s f.berth (rtag f)
        | .discard => (s, { status := stResultGone, detail := .none })
        | .ready =>
          let d := slice x.outcome (par f 8 8) (par f 16 4)
          match resultPoison s f.berth x.index (par f 8 8) d.length with
          | some w => (s, { status := stSramUe, detail := .sram w })
          | none => (s, okOut (toLE 8 x.outcome.length ++ toLE 8 (par f 8 8)) d) }

/-- RELEASE moves the slot as Table 2.9 gives. -/
def cmdRelease : CmdSpec :=
  { opcode := 0x0104, cls := 1, ctrl := true
    device := fun s _ => resultStates s
    freeOk := fun s _ => s.dev.state == .dryDock
    check := fun _ f => firstSome [ rsv f 4 4, noTail f 8 ]
    work := fun s a =>
      let f := a.frame
      match getSlot s f.berth (rtag f) with
      | none => (s, { status := stResultGone, detail := .none })
      | some x =>
        match x.state with
        | .pending => (modSlot f.berth (rtag f) (fun x => { x with state := .discard }) s, okOut [] [])
        | .discard => (s, { status := stResultGone, detail := .none })
        | .ready => (dropSlot f.berth (rtag f) s, okOut [] []) }

/-- Admitted commands of a queue that have not completed, `skip` apart. -/
def queueActive (s : State) (b q skip : Nat) : Nat :=
  (s.cmds.active.filter (fun a => a.frame.berth == b && a.frame.queue == q && a.id != skip)).length

/-- QUEUE_STATUS (Table 2.11). ACTIVE leaves the asking command out. -/
def cmdQueueStatus : CmdSpec :=
  { opcode := 0x0105, cls := 0, ctrl := true
    check := fun _ f => firstSome [ inRange f 0 1 0 63, rsv f 1 7, noTail f 8 ]
    work := fun s a =>
      let f := a.frame
      let q := getQueue s f.berth (par f 0 1)
      (s, okOut (toLE 4 q.expected.toNat ++ toLE 2 (queueActive s f.berth q.queue a.id) ++ toLE 2 q.held.length
        ++ toLE 1 (if q.notify then 1 else 0) ++ zeros 1 ++ toLE 2 (slotsOf s f.berth).length ++ zeros 4) []) }

/-- QUEUE_SET: NOTIFY of a queue, for completions after its own. -/
def cmdQueueSet : CmdSpec :=
  { opcode := 0x0106, cls := 1
    check := fun _ f => firstSome [ inRange f 0 1 0 63, inRange f 1 1 0 1, rsv f 2 6, noTail f 8 ]
    work := fun s a =>
      let q := getQueue s a.frame.berth (par a.frame 0 1)
      (setQueue { q with notify := par a.frame 1 1 == 1 } s, okOut [] []) }

end Sys2Proof.Machine
end

