-- ==== Sys2Proof/Machine/Crane.lean ====
section
/-! DEFINITION. Crane operations: the crane descriptor and its checks (R165, R166), shapes, modes and cycles (R152 to
R159), several arrays (R162), matrix products and distance tables (R167, R168), and CRANE_STATS (R170). -/

namespace Sys2Proof.Machine

/-! ### The descriptor (Table 6.5) -/

structure CraneDesc where
  kind     : Nat
  shapeMode : Nat
  arrays   : Nat
  flags    : Nat
  fmtW     : Nat
  fmtX     : Nat
  fmtA     : Nat
  fmtY     : Nat
  m        : Nat
  k        : Nat
  n        : Nat
  outliers : Nat
  clip     : Nat
  shadow   : Nat
  sw       : Nat
  wAddr    : Nat
  wStride  : Nat
  xStride  : Nat
  xAddr    : Nat
  yAddr    : Nat
  yStride  : Nat
  oStride  : Nat
  oAddr    : Nat
  oSet     : Nat
  norm     : Nat
  subDim   : Nat
  words    : Nat
  deriving DecidableEq, Repr

def readCrane (bs : Bytes) (o : Nat) : CraneDesc :=
  let g (a n : Nat) : Nat := getLE bs (o + a) n
  { kind := g 0 1, shapeMode := g 1 1, arrays := g 2 1, flags := g 3 1, fmtW := g 4 1 % 16, fmtX := g 5 1 % 16, fmtA := g 6 1 % 16,
    fmtY := g 7 1 % 16, m := g 8 4, k := g 12 4, n := g 16 4, outliers := g 20 2, clip := g 22 2, shadow := g 24 1, sw := g 28 4,
    wAddr := g 32 8, wStride := g 40 4, xStride := g 44 4, xAddr := g 48 8, yAddr := g 56 8, yStride := g 64 4, oStride := g 68 4,
    oAddr := g 72 8, oSet := g 80 8, norm := g 88 8, subDim := g 96 4, words := g 100 2 }

def CraneDesc.accum (d : CraneDesc) : Bool := d.flags.testBit 0
def CraneDesc.metric (d : CraneDesc) : Nat := bits d.flags 1 2
def CraneDesc.isTable (d : CraneDesc) : Bool := d.kind == 1
def CraneDesc.k1 (d : CraneDesc) : Nat := d.k - d.outliers

/-- Bytes of one row of codes. -/
def rowBytesOf (fmt n : Nat) : Nat := ceilDiv (n * codeBits fmt) 8

/-- Formats that crane arrays accept as weights when one is in service (Table 4.5). -/
def craneWfmt (s : State) : Nat := if bits s.dev.units.toNat 0 8 = 0 then 0 else 0x1C7F

/-- Formats that quay arrays accept as weights. -/
def quayWfmt : Nat := 0x007F

/-- An FP32 weight scale that is zero or a positive normal value (R111). -/
def weightScaleOk (v : Nat) : Bool := v % 2 ^ 31 == 0 || (decide (0x00800000 ≤ v) && decide (v < 0x7F800000))

/-- The largest outlier set for K channels (R118). -/
def outlierMax (k : Nat) : Nat := min 512 (k / 16)

/-! ### Ranges -/

/-- `rows` rows of `len` bytes, `stride` apart, from `a`. -/
structure Rows where
  a      : Nat
  rows   : Nat
  stride : Nat
  len    : Nat
  deriving DecidableEq, Repr

/-- One past the last byte; `a` itself when there is nothing. -/
def Rows.stop (r : Rows) : Nat := if r.rows = 0 ∨ r.len = 0 then r.a else r.a + (r.rows - 1) * r.stride + r.len

/-- Some row of one shares a byte with some row of the other. -/
def Rows.meets (r q : Rows) : Bool :=
  decide (r.a < q.stop) && decide (q.a < r.stop) &&
    (List.range r.rows).any (fun i => (List.range q.rows).any (fun j =>
      decide (r.a + i * r.stride < q.a + j * q.stride + q.len) && decide (q.a + j * q.stride < r.a + i * r.stride + r.len)))

def CraneDesc.rowsW (d : CraneDesc) : Rows :=
  if d.isTable then { a := d.wAddr, rows := 1, stride := 0, len := d.n * d.subDim * 2 }
  else { a := d.wAddr, rows := d.k1, stride := d.wStride, len := rowBytesOf d.fmtW d.n }
def CraneDesc.rowsX (d : CraneDesc) : Rows := { a := d.xAddr, rows := d.m, stride := d.xStride, len := rowBytesOf d.fmtX d.k }
def CraneDesc.rowsY (d : CraneDesc) : Rows := { a := d.yAddr, rows := d.m, stride := d.yStride, len := rowBytesOf d.fmtY d.n }
def CraneDesc.rowsO (d : CraneDesc) : Rows := { a := d.oAddr, rows := d.outliers, stride := d.oStride, len := 2 * d.n }
def CraneDesc.rowsSet (d : CraneDesc) : Rows := { a := d.oSet, rows := 1, stride := 0, len := 4 * d.outliers }
def CraneDesc.rowsNorm (d : CraneDesc) : Rows := { a := d.norm, rows := 1, stride := 0, len := if d.isTable ∧ d.metric = 1 then 4 * d.n else 0 }

/-! ### Cycles (R154 to R158), in units of 1/16384 cycle -/

/-- Table 6.3: T, Kc, Nf of a shape; K_w and K_i; T of the IS mode. -/
def shapeT (sh : Nat) : Nat := if sh = 1 then 128 else 16
def shapeKc (sh : Nat) : Nat := if sh = 2 then 8 else 4
def shapeNf (sh : Nat) : Nat := if sh = 1 then 128 else if sh = 2 then 512 else 1024
def shapeKw (sh : Nat) : Nat := if sh = 1 then 512 else if sh = 2 then 128 else 64
def shapeKi (sh : Nat) : Nat := if sh = 1 then 512 else if sh = 2 then 2048 else 4096
def shapeTi (sh : Nat) : Nat := if sh = 1 then 128 else if sh = 2 then 32 else 16

/-- One cycle. -/
def cyc : Nat := 16384

/-- What R157 needs of an operation; `extra` is what is read once more when the first pass reads X. -/
structure CraneShape where
  m  : Nat
  k1 : Nat
  o  : Nat
  n  : Nat
  bw : Nat
  bx : Nat
  accum : Bool
  extra : Nat := 0
  deriving DecidableEq, Repr

/-- OS: the cycles of one tile. -/
def osTile (c : CraneShape) (sh : Nat) : Nat :=
  let kc := shapeKc sh
  let nf := shapeNf sh
  let t := shapeT sh
  let port (b : Nat) : Nat := max cyc (max (kc * nf * b) (2 * t * kc * c.bx))
  max (ceilDiv c.k1 kc * port c.bw + ceilDiv c.o kc * port 16) (t * nf * (cyc / 256))

/-- WS: the cycles of a chunk of `m` tokens. -/
def wsChunk (c : CraneShape) (sh m : Nat) : Nat :=
  let kw := shapeKw sh
  let px := max cyc (max (2 * kw * c.bx) (shapeNf sh * (cyc / 256)))
  ceilDiv c.k1 kw * max (m * px) (4 * c.bw * cyc) + ceilDiv c.o kw * max (m * px) (64 * cyc)

/-- IS: the cycles of a part of `n` features. -/
def isPart (c : CraneShape) (sh n : Nat) : Nat :=
  let ki := shapeKi sh
  let lx := 2 * shapeTi sh * ki * c.bx
  let pw (b : Nat) : Nat := max cyc (ki * b)
  ceilDiv c.k1 ki * max (n * pw c.bw) lx + ceilDiv c.o ki * max (n * pw 16) lx

/-- The boundary interval of R158. -/
def boundaryMax : Nat := 40000 * cyc

/-- The largest count at most `hi` whose cost `g` stays within the interval, searching down. -/
def largestFit (g : Nat → Nat) : Nat → Nat
  | 0 => 0
  | n + 1 => if g (n + 1) ≤ boundaryMax then n + 1 else largestFit g n

/-- The sizes of `c` chunks of `m` items that differ by at most one. -/
def evenParts (m c : Nat) : List Nat := (List.range c).map (fun i => m / c + (if i < m % c then 1 else 0))

/-- Chunks of R158: none when even one item exceeds the interval. -/
def chunksOf (g : Nat → Nat) (m cap : Nat) : Option (List Nat) :=
  if boundaryMax < g 1 then none
  else if m = 0 then some []
  else let c := largestFit g (min m cap); some (evenParts m (ceilDiv m c))

/-- The cost of an operation in a shape and mode: cycles (in 1/16384), bytes read; none when not permitted. -/
def craneCost (c : CraneShape) (sh mode : Nat) : Option (Nat × Nat) :=
  let w := c.k1 * ceilDiv (c.n * c.bw) 8 + c.o * 2 * c.n
  let x := c.m * ceilDiv ((c.k1 + c.o) * c.bx) 8
  let acc := (if c.accum then c.m * c.n * 4 else 0) + c.extra
  if mode = 1 then
    let tile := osTile c sh
    if boundaryMax < tile then none
    else some (ceilDiv c.m (shapeT sh) * ceilDiv c.n (shapeNf sh) * tile,
      ceilDiv c.m (shapeT sh) * w + ceilDiv c.n (shapeNf sh) * x + acc)
  else if mode = 2 then
    (chunksOf (wsChunk c sh) c.m (524288 / shapeNf sh)).map (fun l =>
      (ceilDiv c.n (shapeNf sh) * sumNat (l.map (wsChunk c sh)), l.length * w + ceilDiv c.n (shapeNf sh) * x + acc))
  else
    (chunksOf (isPart c sh) c.n (524288 / shapeTi sh)).map (fun l =>
      (ceilDiv c.m (shapeTi sh) * sumNat (l.map (isPart c sh)), ceilDiv c.m (shapeTi sh) * w + l.length * x + acc))

/-- C_est without the added cycles, in units of 1/16384 cycle. -/
def estOf (r : Nat × Nat) : Nat := max r.1 (ceilDiv r.2 2000 * cyc)

/-- A candidate of R159: C_est, bytes, shape, mode. -/
structure Choice where
  est   : Nat
  bytes : Nat
  shape : Nat
  mode  : Nat
  deriving DecidableEq, Repr

/-- The permitted combinations that the fixed fields allow, in ascending shape and mode. -/
def craneChoices (c : CraneShape) (sm : Nat) : List Choice :=
  let shs := if bits sm 0 2 = 0 then [1, 2, 3] else [bits sm 0 2]
  let mds := if bits sm 2 2 = 0 then [1, 2, 3] else [bits sm 2 2]
  shs.flatMap (fun sh => mds.filterMap (fun md => (craneCost c sh md).map (fun r => { est := estOf r, bytes := r.2, shape := sh, mode := md })))

/-- The least C_est, then the fewest bytes, then the lower shape and mode (R159). -/
def bestChoice : List Choice → Option Choice
  | [] => none
  | x :: l =>
    match bestChoice l with
    | none => some x
    | some y => if y.est < x.est ∨ (y.est = x.est ∧ y.bytes < x.bytes) then some y else some x

/-- N divided among `a` arrays: contiguous, each but the last a multiple of 1,024 (R162). -/
def partsOfN (n a : Nat) : List Nat :=
  let u := n / 1024
  (List.range a).map (fun i => 1024 * (u / a + (if i < u % a then 1 else 0)) + (if i + 1 = a then n % 1024 else 0))

def arrayList (mask : Nat) : List Nat := (List.range 8).filter (fun i => mask.testBit i)

/-- The shape of the largest part, for which shape and mode are chosen. -/
def CraneDesc.shapeFor (d : CraneDesc) (m : Nat) (extra : Nat := 0) : CraneShape :=
  { m := m, k1 := d.k1, o := d.outliers, n := maxNat (partsOfN d.n (arrayList d.arrays).length), bw := codeBits d.fmtW, bx := codeBits d.fmtX,
    accum := d.accum, extra := extra }

/-- The choice of R159 and R168; `extra` is what the first pass reads of X. -/
def CraneDesc.choice (d : CraneDesc) (m : Nat) (extra : Nat := 0) : Option Choice :=
  if d.isTable then some { est := 0, bytes := 0, shape := 1, mode := 1 }
  else bestChoice (craneChoices (d.shapeFor m extra) d.shapeMode)

/-- Bytes that an operation over `m` tokens reads from SRAM (R157): each array's part in the chosen shape and mode, and once
what the first pass reads (R162). A distance table reads the codebook once for each block of 128 queries. -/
def CraneDesc.bytesRead (d : CraneDesc) (m extra : Nat) (ch : Option Choice) : Nat :=
  if d.isTable then ceilDiv m 128 * (d.n * d.subDim * 2) + m * rowBytesOf d.fmtX d.k
  else
    match ch with
    | none => 0
    | some c =>
      sumNat ((partsOfN d.n (arrayList d.arrays).length).map (fun n => ((craneCost { (d.shapeFor m) with n := n } c.shape c.mode).map (fun x => x.2)).getD 0)) + extra

/-- The largest K for which one combination is permitted, searching down. -/
def largestK (d : CraneDesc) : Nat → Nat
  | 0 => 0
  | k + 1 => if (CraneDesc.choice { d with k := k + 1 } d.m).isSome then k + 1 else largestK d k

/-- Cycles of a distance table on the largest part (R168), in cycles. -/
def tableCycles (m p c sub : Nat) : Nat :=
  ceilDiv m 128 * p * ceilDiv c 128 * max (ceilDiv sub 4) (128 * min c 128 / 256)

/-! ### Checks (R166) -/

/-- The refusals of a descriptor, in field order. `bad off n mn mx` names `n` bytes at descriptor offset `off`; `limit`
is the end of the memory the addresses lie in. `list` gives the channel list when the module can read it. -/
def craneCheck (s : State) (d : CraneDesc) (raw : Nat → Nat → Nat) (limit : Nat) (list : Option (List Nat))
    (bad : Nat → Nat → Nat → Nat → Refuse) : Option Refuse :=
  let mult (a n v : Nat) : Option Refuse := need (v % n == 0) (bad a (if a = 40 ∨ a = 44 ∨ a = 64 ∨ a = 68 then 4 else 8) 0 (2 ^ 64 - 1))
  let within (a : Nat) (r : Rows) : Option Refuse := need (decide (r.stop ≤ limit)) (bad a 8 0 limit)
  let zeroF (a n v : Nat) : Option Refuse := need (v == 0) (bad a n 0 0)
  let tbl := d.isTable
  let absent := d.arrays &&& (bits s.dev.units.toNat 0 8 ^^^ 0xFF)
  firstSome
    [ need (decide (d.kind ≤ 1)) (bad 0 1 0 1), need (decide (d.shapeMode < 16)) (bad 1 1 0 15),
      need (d.arrays != 0) (bad 2 1 1 255),
      need (absent == 0) (stAbsentUnit, .missing (BitVec.ofNat 64 absent)),
      need (decide (d.flags < 8) && !(tbl && d.metric == 3) && !(tbl && d.accum)) (bad 3 1 0 7),
      need (decide (raw 4 1 < 16) && (craneWfmt s).testBit d.fmtW && (!tbl || d.fmtW == 0xC)) (bad 4 1 0 15),
      need (decide (raw 5 1 < 16) && isFloatCode d.fmtX && (!tbl || d.fmtX == 0xC || d.fmtX == 0xD)) (bad 5 1 0xA 0xD),
      need (decide (raw 6 1 < 16) && (d.fmtA == d.fmtX || (!tbl && isUintCode d.fmtA && (d.fmtX == 0xC || d.fmtX == 0xD)))) (bad 6 1 8 0xD),
      need (decide (raw 7 1 < 16) && isFloatCode d.fmtY && (!d.accum || d.fmtY == 0xD)) (bad 7 1 0xA 0xD),
      need (decide (d.m ≤ 65536)) (bad 8 4 0 65536),
      need (decide (1 ≤ d.k ∧ d.k ≤ 1048576)) (bad 12 4 1 1048576),
      need (decide (1 ≤ d.n ∧ d.n ≤ 1048576) && (!tbl || d.n * d.subDim == d.k * d.words)) (bad 16 4 1 1048576),
      need (decide (d.outliers ≤ (if tbl then 0 else outlierMax d.k))) (bad 20 2 0 (if tbl then 0 else outlierMax d.k)),
      need (d.clip == 0 || decide (128 ≤ d.clip ∧ d.clip ≤ 256)) (bad 22 2 128 256),
      need (if tbl then d.shadow == 0 else decide (d.shadow ≤ 16) || d.shadow == 0xFF) (bad 24 1 0 16),
      zeroF 25 3 (raw 25 3),
      need (if tbl then d.sw == 0 else weightScaleOk d.sw) (bad 28 4 0 0x7F7FFFFF),
      mult 32 64 d.wAddr, within 32 d.rowsW,
      need (if tbl then d.wStride == 2 * d.subDim else d.wStride % 64 == 0 && decide (rowBytesOf d.fmtW d.n ≤ d.wStride))
        (bad 40 4 (if tbl then 2 * d.subDim else rowBytesOf d.fmtW d.n) (2 ^ 32 - 1)),
      need (d.xStride % 64 == 0 && decide (rowBytesOf d.fmtX d.k ≤ d.xStride)) (bad 44 4 (rowBytesOf d.fmtX d.k) (2 ^ 32 - 1)),
      mult 48 64 d.xAddr, within 48 d.rowsX, mult 56 64 d.yAddr, within 56 d.rowsY,
      need (!(d.rowsY.meets d.rowsW || d.rowsY.meets d.rowsX || d.rowsY.meets d.rowsO || d.rowsY.meets d.rowsSet)) (bad 56 8 0 limit),
      need (d.yStride % 64 == 0 && decide (rowBytesOf d.fmtY d.n ≤ d.yStride)) (bad 64 4 (rowBytesOf d.fmtY d.n) (2 ^ 32 - 1)),
      need (if d.outliers = 0 then d.oStride == 0 else d.oStride % 64 == 0 && decide (2 * d.n ≤ d.oStride))
        (bad 68 4 (if d.outliers = 0 then 0 else 2 * d.n) (if d.outliers = 0 then 0 else 2 ^ 32 - 1)),
      (if d.outliers = 0 then zeroF 72 8 d.oAddr else mult 72 64 d.oAddr), within 72 d.rowsO,
      (if d.outliers = 0 then zeroF 80 8 d.oSet else mult 80 4 d.oSet), within 80 d.rowsSet,
      (match list with
       | some l => need ((List.zip l (l.drop 1)).all (fun p => decide (p.1 < p.2)) && l.all (fun c => decide (c < d.k))) (bad 80 8 0 limit)
       | none => none),
      (if tbl && d.metric == 1 then within 88 d.rowsNorm else zeroF 88 8 d.norm),
      need (if tbl then decide (1 ≤ d.subDim ∧ d.subDim ≤ 256) && d.k % d.subDim == 0 else d.subDim == 0)
        (bad 96 4 (if tbl then 1 else 0) (if tbl then 256 else 0)),
      need (if tbl then d.words == 16 || d.words == 256 else d.words == 0) (bad 100 2 (if tbl then 16 else 0) (if tbl then 256 else 0)),
      zeroF 102 26 (raw 102 26),
      (if tbl || d.m == 0 || (d.choice d.m).isSome then none
       else if bits d.shapeMode 0 2 ≠ 0 ∧ bits d.shapeMode 2 2 ≠ 0 then some (bad 1 1 0 15)
       else some (bad 12 4 1 (largestK d d.k))) ]

/-! ### Running -/

/-- The elements of a row block in a floating code. -/
def readRows (m : Mem) (fmt n : Nat) (r : Rows) (rows : Nat) : List (List Num) :=
  (List.range rows).map (fun i => readElems fmt (memRead m (r.a + i * r.stride) r.len) 0 n)

/-- The channel list in memory. -/
def CraneDesc.outSet (d : CraneDesc) (m : Mem) : List Nat :=
  let bs := memRead m d.oSet (4 * d.outliers)
  (List.range d.outliers).map (fun i => getLE bs (4 * i) 4)

/-- The product of a MATMUL descriptor over `rows` tokens. -/
def CraneDesc.matOp (d : CraneDesc) (m : Mem) (rows clip shift runs use : Nat) : MatOp :=
  { n := d.n, x := readRows m d.fmtX d.k d.rowsX rows, fmtA := d.fmtA, fmtW := d.fmtW, sw := f32 d.sw
    codes := (List.range d.k1).map (fun k =>
      let bs := memRead m (d.wAddr + k * d.wStride) (rowBytesOf d.fmtW d.n)
      (List.range d.n).map (fun i => streamCode bs (codeBits d.fmtW) i))
    outs := d.outSet m, outW := readRows m 0xC d.n d.rowsO d.outliers
    clip := clip, shift := shift, runs := runs, use := use }

/-- Writes rows in a floating code. -/
def writeRows (fmt a stride : Nat) : List (List Num) → Nat → Mem → Mem
  | [], _, m => m
  | r :: l, i, m => writeRows fmt a stride l (i + 1) (memWrite m (a + i * stride) (elemBytes fmt r))

/-- A MATMUL's sums with what `extra` adds to each (an adapter's term), the old Y under ACCUM, converted and written. -/
def CraneDesc.finish (d : CraneDesc) (m : Mem) (rows use : Nat) (o : MatOut) (extra : List (List Num)) : Mem × OpCounts :=
  let with1 := if extra.isEmpty then o.sums else List.zipWith (List.zipWith fmtFp32.add) o.sums extra
  let sums := if d.accum then List.zipWith (List.zipWith fmtFp32.add) (readRows m 0xD d.n d.rowsY rows) with1 else with1
  let c := convertRows d.fmtY sums
  (writeRows d.fmtY d.yAddr d.yStride c.1 0 m, (o.closed use).withOut c.2)

/-! ### Distance tables (R167) -/

/-- The sum of squares of a vector in FP32. -/
def normSq (use no : Nat) (v : List Num) : Num := sumF32 use no (v.map (fun x => prod32 x x))

/-- A −0 becomes +0. -/
def plusZero (v : Num) : Num := if v.isZero then Num.zero else v

/-- One entry: `q` the query's sub-vector, `c` the codeword, `cn` its norm. -/
def tableEntry (metric use no : Nat) (q c : List Num) (cn : Num) : Num :=
  let dot := sumF32 use no (List.zipWith prod32 q c)
  if metric = 1 then
    let v := fmtFp32.add (fmtFp32.add (normSq use (no + 1) q) (fmtFp32.mul (Num.ofInt (-2)) dot)) cn
    if v.lt Num.zero then Num.zero else plusZero v
  else plusZero dot.neg

/-- The query as the table uses it: rounded to BF16 as operands of the multipliers are, and scaled by 1 ÷ ‖q‖ under the
cosine metric unless its norm is zero. -/
def tableQuery (metric use no : Nat) (q : List Num) : List Num :=
  if metric = 2 then
    let n := fmtFp32.sqrt (normSq use no q)
    if n.isZero then q.map fmtBf16.round
    else let inv := fmtFp32.div (Num.ofNat 1) n; q.map (fun x => fmtBf16.round (fmtFp32.mul x inv))
  else q.map fmtBf16.round

/-- The table of one query: P × C entries. `words` are the codewords in order, `norms` theirs. -/
def distTable (metric use no sub p c : Nat) (words : List (List Num)) (norms : List Num) (q : List Num) : List Num :=
  let qq := tableQuery metric use no q
  (List.range (p * c)).map (fun i =>
    tableEntry metric use (no + 1 + 2 * i) ((qq.drop (i / c * sub)).take sub) (words.getD i []) (norms.getD i Num.zero))

/-- A DIST_TABLE descriptor over `rows` queries. -/
def CraneDesc.runTable (d : CraneDesc) (m : Mem) (rows use : Nat) : Mem :=
  let xs := readRows m d.fmtX d.k d.rowsX rows
  let words := (List.range d.n).map (fun i => readElems 0xC (memRead m (d.wAddr + i * d.wStride) (2 * d.subDim)) 0 d.subDim)
  let norms := if d.metric = 1 then readElems 0xD (memRead m d.norm (4 * d.n)) 0 d.n else []
  let ys := xs.zipIdx.map (fun x => (distTable d.metric use (x.2 * (2 * d.n + 1)) d.subDim (d.k / d.subDim) d.words words norms x.1).map
    (fun v => plusZero (convertOut d.fmtY v).v))
  writeRows d.fmtY d.yAddr d.yStride ys 0 m

/-! ### Statistics (R170) -/

/-- The arrays of an operation count it: cycles and stalls as the hardware took them (free), products, one
operation each, and the last shape and mode. -/
def countCrane (arrays m k n : Nat) (ch : Option Choice) (s : State) : State :=
  let l := arrayList arrays
  let ps := partsOfN n l.length
  let sm := (ch.map (fun c => c.shape + 4 * c.mode)).getD 0
  let upd (i : Nat) (c : CraneStats) : CraneStats :=
    match l.idxOf? i with
    | none => c
    | some j =>
      { c with busy := satAdd 64 c.busy (Config.elapsed (s.fresh + j)), products := c.products + m * k * ps.getD j 0,
               sramStall := satAdd 32 c.sramStall (Config.amount (s.fresh + j)), operations := satAdd 32 c.operations 1, lastSm := sm }
  useFresh { s with eng := { s.eng with cranes := s.eng.cranes.zipIdx.map (fun x => upd x.2 x.1) } }

end Sys2Proof.Machine
end

