-- ==== Sys2Proof/Machine/Sha3.lean ====
section
/-! DEFINITION. SHA3-512, which plans, holds, vault and firmware name as their digest (R172, R258, R403). -/

namespace Sys2Proof.Machine

/-- The round constants of Keccak-f[1600]. -/
def keccakRc : List (BitVec 64) :=
  [0x0000000000000001, 0x0000000000008082, 0x800000000000808A, 0x8000000080008000, 0x000000000000808B, 0x0000000080000001,
   0x8000000080008081, 0x8000000000008009, 0x000000000000008A, 0x0000000000000088, 0x0000000080008009, 0x000000008000000A]
  ++ [0x000000008000808B, 0x800000000000008B, 0x8000000000008089, 0x8000000000008003, 0x8000000000008002, 0x8000000000000080,
   0x000000000000800A, 0x800000008000000A, 0x8000000080008081, 0x8000000000008080, 0x0000000080000001, 0x8000000080008008]

/-- Rotation offsets, lane x + 5·y. -/
def keccakRot : List Nat :=
  [0, 1, 62, 28, 27, 36, 44, 6, 55, 20, 3, 10, 43, 25, 39, 41, 45, 15, 21, 8, 18, 2, 61, 56, 14]

def lane (a : List (BitVec 64)) (x y : Nat) : BitVec 64 := a.getD (x % 5 + 5 * (y % 5)) 0

def keccakRound (a : List (BitVec 64)) (rc : BitVec 64) : List (BitVec 64) :=
  let c := (List.range 5).map (fun x => lane a x 0 ^^^ lane a x 1 ^^^ lane a x 2 ^^^ lane a x 3 ^^^ lane a x 4)
  let d (x : Nat) : BitVec 64 := c.getD ((x + 4) % 5) 0 ^^^ (c.getD ((x + 1) % 5) 0).rotateLeft 1
  let th := (List.range 25).map (fun i => (a.getD i 0 ^^^ d (i % 5)).rotateLeft (keccakRot.getD i 0))
  -- lane (x, y) of the permuted state comes from lane ((x + 3·y) mod 5, x)
  let b := (List.range 25).map (fun i => lane th (i % 5 + 3 * (i / 5)) (i % 5))
  let o := (List.range 25).map (fun i => lane b (i % 5) (i / 5) ^^^ (~~~ (lane b (i % 5 + 1) (i / 5)) &&& lane b (i % 5 + 2) (i / 5)))
  o.modify 0 (fun v => v ^^^ rc)

def keccakF (a : List (BitVec 64)) : List (BitVec 64) := keccakRc.foldl keccakRound a

/-- Absorbs blocks of 72 bytes; `n` bounds their number. -/
def sha3Absorb : Nat → Bytes → List (BitVec 64) → List (BitVec 64)
  | 0, _, a => a
  | n + 1, m, a =>
    if m.isEmpty then a
    else
      let blk := (List.range 9).map (fun i => BitVec.ofNat 64 (getLE m (8 * i) 8))
      sha3Absorb n (m.drop 72) (keccakF ((List.range 25).map (fun i => a.getD i 0 ^^^ blk.getD i 0)))

/-- SHA3-512 of a byte string. -/
def sha3 (m : Bytes) : Bytes :=
  let padLen := 72 - m.length % 72
  let p := if padLen = 1 then [0x86] else [0x06] ++ zeros (padLen - 2) ++ [0x80]
  let msg := m ++ p
  ((sha3Absorb (msg.length / 72) msg (List.replicate 25 0)).take 8).flatMap (fun w => toLE 8 w.toNat)

/-- The digest as a number whose byte i is the digest's byte i. -/
def sha3Nat (m : Bytes) : Nat := ofLE (sha3 m)

end Sys2Proof.Machine
end

