-- ==== Sys2Proof/Machine/PlanImage.lean ====
section
/-! DEFINITION. The plan image (R172, R173, R175 to R177): header, sections and records, and the checks of PLAN_LOAD in
image order. -/

namespace Sys2Proof.Machine

/-! ### Sections (Tables 7.2, 7.3) -/

/-- Bytes of one record of a section type; 0 for a type that is not assigned. -/
def recBytes (ty : Nat) : Nat := [0, 48, 128, 64, 48, 32, 1, 4, 64, 16].getD ty 0

/-- A section: type, count and image offset. -/
structure Section where
  ty    : Nat
  count : Nat
  off   : Nat
  deriving DecidableEq, Repr

def sectionAt (img : Bytes) (i : Nat) : Section :=
  { ty := getLE img (128 + 16 * i) 2, count := getLE img (132 + 16 * i) 4, off := getLE img (136 + 16 * i) 8 }

def sectionsOf (img : Bytes) : List Section := (List.range (getLE img 24 4)).map (sectionAt img)

/-- The section of a type; empty when the image has none. -/
def sectionOf (img : Bytes) (ty : Nat) : Section :=
  ((sectionsOf img).find? (fun x => x.ty == ty)).getD { ty := ty, count := 0, off := 0 }

/-- Image offset of record `i` of a section type. -/
def recAt (img : Bytes) (ty i : Nat) : Nat := (sectionOf img ty).off + i * recBytes ty

def recCount (img : Bytes) (ty : Nat) : Nat := (sectionOf img ty).count

/-- A field of record `i` of a section type. -/
def recField (img : Bytes) (ty i off n : Nat) : Nat := getLE img (recAt img ty i + off) n

def imgSram (img : Bytes) : Nat := getLE img 16 8
def imgParts (img : Bytes) : Nat := getLE img 6 1
def imgPart (img : Bytes) : Nat := getLE img 7 1
def imgContexts (img : Bytes) : Nat := getLE img 30 2
def imgMaxPos (img : Bytes) : Nat := getLE img 32 4
def imgLayers (img : Bytes) : Nat := getLE img 36 2
def imgPosBytes (img : Bytes) : Nat := getLE img 40 4
def imgCtxAddr (img : Bytes) : Nat := getLE img 48 8

/-- SET_ID: the first 16 bytes of part 0's DIGEST, which the other parts carry (R172). -/
def setId (img : Bytes) : Bytes := if imgPart img = 0 then slice img 64 16 else padTo 16 (slice img (sectionOf img 9).off 16)

/-! ### Tensor slots (Table 7.4, R132, R175) -/

structure Slot7 where
  sram    : Bool
  fmt     : Nat
  quay    : Nat
  k       : Nat
  n       : Nat
  outs    : Nat
  sw      : Nat
  list    : Nat
  bytes   : Nat
  addr    : Nat
  deriving DecidableEq, Repr

def slotRec (img : Bytes) (i : Nat) : Slot7 :=
  let g (o n : Nat) : Nat := recField img 1 i o n
  { sram := g 0 1 == 1, fmt := g 1 1 % 16, quay := g 2 1, k := g 4 4, n := g 8 4, outs := g 12 2, sw := g 16 4, list := g 20 4, bytes := g 24 8, addr := g 32 8 }

/-- The outlier channels of a slot, from LISTS. -/
def slotOuts (img : Bytes) (t : Slot7) : List Nat := (List.range t.outs).map (fun i => recField img 7 (t.list + i) 0 4)

def kPad (k o : Nat) : Nat := 16 * ceilDiv (k - o) 16
def nPad (n : Nat) : Nat := 64 * ceilDiv n 64

/-- Bytes of the main part of R132. -/
def mainBytes (t : Slot7) : Nat := nPad t.n * kPad t.k t.outs * codeBits t.fmt / 8

/-- Bytes of the outlier block of R175. -/
def outlierBytes (t : Slot7) : Nat := 2 * t.outs * nPad t.n

/-- BYTES of a streamed slot: from the main part to the end of the outlier block. -/
def streamBytes (t : Slot7) : Nat := if t.outs = 0 then mainBytes t else roundUp (mainBytes t) 4096 + outlierBytes t

/-- The code at main row `k`, feature `n` of a streamed tensor whose hold bytes are `bs` (R128, R132). -/
def tileCode (t : Slot7) (bs : Bytes) (k n : Nat) : Nat :=
  let b := codeBits t.fmt
  let r := n / 64 * (kPad t.k t.outs / 16) + k / 16
  let i := 16 * (n % 64) + k % 16
  sumNat ((List.range b).map (fun p => (bits (getLE bs (r * b * 128 + p * 128 + i / 8) 1) (i % 8) 1) * 2 ^ p))

/-- The BF16 weight of outlier row `i`, feature `n` (R175). -/
def outlierWeight (t : Slot7) (bs : Bytes) (i n : Nat) : Num :=
  readElem 0xC bs (roundUp (mainBytes t) 4096 + (n / 64 * t.outs + i) * 128 + 2 * (n % 64))

/-! ### Operations (Table 7.5) -/

def opKind (img : Bytes) (i : Nat) : Nat := recField img 3 i 0 1
def opStage (img : Bytes) (i : Nat) : Nat := recField img 3 i 2 2
def opF (img : Bytes) (i off n : Nat) : Nat := recField img 3 i off n

/-- The fields that Table 7.5 names for a kind, as (offset, size). -/
def opFields (kind : Nat) : List (Nat × Nat) :=
  [(0, 1), (2, 2)] ++
  (match kind with
   | 1 => [(4, 4)]
   | 2 => [(4, 4), (8, 4), (12, 1), (13, 1), (14, 1), (15, 1), (16, 2), (18, 2), (24, 8), (32, 8)]
   | 3 => [(4, 4), (8, 1), (9, 1), (16, 8), (24, 8)]
   | 4 => [(4, 2), (6, 2), (8, 2), (10, 2), (12, 1), (16, 4), (24, 8), (32, 8), (40, 8)]
   | 5 => [(4, 1), (5, 1), (8, 4), (12, 4), (16, 8), (24, 8), (32, 8)]
   | 6 => [(4, 4), (8, 8)]
   | 7 => [(8, 8)]
   | _ => [(4, 4), (8, 8)])

/-- The descriptor of a CRANE operation. -/
def opDesc (img : Bytes) (i : Nat) : CraneDesc := readCrane img (recAt img 2 (opF img i 4 4))

/-- UP and DOWN slots of replica `r` of an expert record; none when unused. -/
def replicaSlots (img : Bytes) (rec r : Nat) : Option (Nat × Nat) :=
  let u := recField img 5 rec (8 * r) 4
  let d := recField img 5 rec (8 * r + 4) 4
  if u = 0xFFFFFFFF ∧ d = 0xFFFFFFFF then none else some (u, d)

/-- Row width of an EXPERT operation: the K of the first projection of its first expert. -/
def expertWidth (img : Bytes) (i : Nat) : Nat := (slotRec img (recField img 5 (opF img i 8 4) 0 4)).k

/-- The width that DOWN takes from UP's N. -/
def midWidth (fn n : Nat) : Nat := if fn = 5 then n / 2 else n

/-- Experts of an EXPERT operation: those its ROUTE operation routes to. -/
def expertCount (img : Bytes) (i : Nat) : Nat := opF img (opF img i 4 4) 4 4

/-- The elements per row that an operation writes at an address, with their format: (address, format, elements). -/
def opWrites (img : Bytes) (i : Nat) : List (Nat × Nat × Nat) :=
  let w := opF img i 8 4
  match opKind img i with
  | 1 => let d := opDesc img i; [(d.yAddr, d.fmtY, d.n)]
  | 2 => [(opF img i 32 8, 0xD, expertWidth img i)]
  | 3 => [(opF img i 24 8, 0xD, 2 * opF img i 8 1)]
  | 4 => [(opF img i 40 8, 0xC, opF img i 4 2 * opF img i 8 2)]
  | 5 => [(opF img i 24 8, opF img i 5 1, midWidth (opF img i 4 1) w)]
  | 6 => [(opF img i 8 8, 0xC, (slotRec img (opF img i 4 4)).n)]
  | _ => []

/-- The tensors an operation reads whose width it states: (address, elements). -/
def opReads (img : Bytes) (i : Nat) : List (Nat × Nat) :=
  let w := opF img i 8 4
  match opKind img i with
  | 1 => let d := opDesc img i; [(d.xAddr, d.k)] ++ (if d.accum then [(d.yAddr, d.n)] else [])
  | 2 => [(opF img i 24 8, expertWidth img i), (opF img i 32 8, expertWidth img i)]
  | 3 => [(opF img i 16 8, opF img i 4 4)]
  | 4 => [(opF img i 24 8, opF img i 4 2 * opF img i 8 2), (opF img i 32 8, 2 * opF img i 6 2 * opF img i 8 2)]
  | 5 => [(opF img i 16 8, w)] ++ (if opF img i 4 1 = 1 then [(opF img i 24 8, w)] else [])
  | _ => []

/-! ### Entries (Table 7.6) -/

structure Entry where
  first    : Nat
  last     : Nat
  maxRows  : Nat
  kind     : Nat
  inKind   : Nat
  inFmt    : Nat
  outFmt   : Nat
  inWidth  : Nat
  outWidth : Nat
  inAddr   : Nat
  vocab    : Nat
  deriving DecidableEq, Repr

def entryRec (img : Bytes) (i : Nat) : Entry :=
  let g (o n : Nat) : Nat := recField img 4 i o n
  { first := g 0 4, last := g 4 4, maxRows := g 8 4, kind := g 12 1, inKind := g 13 1, inFmt := g 14 1, outFmt := g 15 1, inWidth := g 16 4,
    outWidth := g 20 4, inAddr := g 24 8, vocab := g 32 4 }

/-- The largest MAX_ROWS over the entries that run the operation. -/
def opRows (img : Bytes) (i : Nat) : Nat :=
  maxNat (((List.range (recCount img 4)).map (entryRec img)).map (fun e => if e.first ≤ i ∧ i ≤ e.last then e.maxRows else 0))

/-- The byte ranges an operation writes over its entry's rows, taken as packed rows but for crane descriptors. -/
def opWriteRanges (img : Bytes) (i : Nat) : List Rows :=
  if opKind img i = 1 then [(opDesc img i).rowsY]
  else (opWrites img i).map (fun w => { a := w.1, rows := 1, stride := 0, len := opRows img i * (w.2.2 * (codeBits w.2.1 / 8)) })

def opReadRanges (img : Bytes) (i : Nat) : List Rows :=
  if opKind img i = 1 then let d := opDesc img i; [d.rowsX, d.rowsW, d.rowsO, d.rowsSet]
  else (opReads img i).map (fun r => { a := r.1, rows := 1, stride := 0, len := opRows img i * (r.2 * 2) })

/-! ### The checks, in image order (R173) -/

/-- BAD_PARAM naming `n` bytes at image offset `off`. -/
def imgBad (off n mn mx : Nat) : Refuse := (stBadParam, .field (0x80000000 + off) 0 0 (8 * n - 1) mn mx)

def imgIn (img : Bytes) (off n mn mx : Nat) : Option Refuse :=
  need (decide (mn ≤ getLE img off n ∧ getLE img off n ≤ mx)) (imgBad off n mn mx)

def imgRsv (img : Bytes) (off n : Nat) : Option Refuse := imgIn img off n 0 0

def imgMult (img : Bytes) (off n k : Nat) : Option Refuse := need (getLE img off n % k == 0) (imgBad off n 0 (2 ^ (8 * n) - 1))

def absentMask (mask : Nat) : Refuse := (stAbsentUnit, .missing (BitVec.ofNat 64 mask))

/-- The header (Table 7.2). -/
def headerChecks (s : State) (b : Nat) (img : Bytes) (len : Nat) : Option Refuse :=
  let absent := getLE img 28 1 &&& (bits s.dev.units.toNat 0 8 ^^^ 0xFF)
  firstSome
    [ imgIn img 0 4 0x4F475243 0x4F475243, imgIn img 4 2 1 1, imgIn img 6 1 1 64, imgIn img 7 1 0 (imgParts img - 1),
      imgIn img 8 8 256 1073741824, imgIn img 8 8 len len, imgMult img 16 8 4096, imgIn img 16 8 0 (sramShare s b),
      imgIn img 24 4 1 16, need (absent == 0) (absentMask absent), need (decide (getLE img 29 1 ≤ 1)) (imgBad 29 1 0 1),
      need (getLE img 29 1 == 0 || unitBit s 17) (absentMask (2 ^ 17)), imgIn img 30 2 0 4096,
      imgIn img 32 4 (if imgContexts img = 0 then 0 else 1) 1048576, imgRsv img 38 2, imgMult img 40 4 64, imgRsv img 44 4,
      imgMult img 48 8 64,
      imgIn img 48 8 0 (imgSram img - imgContexts img * imgLayers img * imgMaxPos img * imgPosBytes img), imgRsv img 56 8,
      need (sha3 (putBytes img 64 (zeros 64)) == slice img 64 64) (stDigestMismatch, .integrity kPlan 0 64) ]

/-- Two sections share an image byte. -/
def sectionsMeet (a b : Section) : Bool :=
  decide (a.off < b.off + b.count * recBytes b.ty) && decide (b.off < a.off + a.count * recBytes a.ty)

/-- Entry `i` of the section table. -/
def sectionCheck (img : Bytes) (i : Nat) : Option Refuse :=
  let o := 128 + 16 * i
  let x := sectionAt img i
  let size := x.count * recBytes x.ty
  firstSome
    [ imgIn img o 2 1 9, imgRsv img (o + 2) 2, imgMult img (o + 8) 8 64,
      need (decide (128 + 16 * getLE img 24 4 ≤ x.off ∧ x.off + size ≤ getLE img 8 8)) (imgBad (o + 8) 8 (128 + 16 * getLE img 24 4) (getLE img 8 8 - size)),
      need (!((sectionsOf img).take i).any (fun y => sectionsMeet y x || y.ty == x.ty)) (imgBad (o + 8) 8 0 (getLE img 8 8)) ]

/-- A tensor slot. -/
def slotCheck (s : State) (img : Bytes) (i : Nat) : Option Refuse :=
  let o := recAt img 1 i
  let t := slotRec img i
  let l := slotOuts img t
  firstSome
    [ imgIn img o 1 0 1,
      need (decide (getLE img (o + 1) 1 < 16) && (if t.sram then craneWfmt s else quayWfmt).testBit t.fmt) (imgBad (o + 1) 1 0 15),
      imgIn img (o + 2) 1 0 (if t.sram then 0 else 23), imgRsv img (o + 3) 1, imgIn img (o + 12) 2 0 (outlierMax t.k), imgRsv img (o + 14) 2,
      need (weightScaleOk t.sw) (imgBad (o + 16) 4 0 0x7F7FFFFF),
      need (t.outs == 0 || (decide (t.list + t.outs ≤ recCount img 7) && l.all (fun c => decide (c < t.k))
        && (List.zip l (l.drop 1)).all (fun p => decide (p.1 < p.2)))) (imgBad (o + 20) 4 0 (recCount img 7)),
      (if t.sram then imgIn img (o + 24) 8 0 (imgSram img) else imgIn img (o + 24) 8 (streamBytes t) (streamBytes t)),
      (if t.sram then imgIn img (o + 32) 8 0 (imgSram img - t.bytes) else imgRsv img (o + 32) 8), imgRsv img (o + 40) 8 ]

/-- A crane descriptor of the image; its channel list is read when it lies in CONST. -/
def planCraneCheck (s : State) (img : Bytes) (i : Nat) : Option Refuse :=
  let o := recAt img 2 i
  let d := readCrane img o
  let c := sectionOf img 6
  let list := if d.oSet + 4 * d.outliers ≤ c.count then some ((List.range d.outliers).map (fun j => getLE img (c.off + d.oSet + 4 * j) 4)) else none
  craneCheck s d (fun a n => getLE img (o + a) n) (imgSram img) list (fun a n mn mx => imgBad (o + a) n mn mx)

/-- R177: the replicas of one expert record used by an EXPERT operation of row width `w` and function `fn`. -/
def expertCheck (img : Bytes) (rec w fn : Nat) : Option Refuse :=
  let o := recAt img 5 rec
  let reps := (List.range 4).filterMap (fun r => (replicaSlots img rec r).map (fun p => (r, p)))
  let quays := reps.map (fun x => (slotRec img x.2.1).quay)
  firstSome ([ need (replicaSlots img rec 0).isSome (imgBad o 8 0 (recCount img 1 - 1)) ] ++
    reps.map (fun x =>
      let u := slotRec img x.2.1
      let d := slotRec img x.2.2
      firstSome
        [ imgIn img (o + 8 * x.1) 4 0 (recCount img 1 - 1), imgIn img (o + 8 * x.1 + 4) 4 0 (recCount img 1 - 1),
          need (!u.sram && u.k == w) (imgBad (o + 8 * x.1) 4 0 (recCount img 1 - 1)),
          need (!d.sram && d.quay == u.quay && d.k == midWidth fn u.n && d.n == w && (fn != 5 || u.n % 2 == 0)) (imgBad (o + 8 * x.1 + 4) 4 0 (recCount img 1 - 1)) ])
    ++ [ need (quays.eraseDups.length == quays.length) (imgBad o 8 0 (recCount img 1 - 1)) ])

/-- Bytes of an operation record that its kind does not name (RSV). -/
def opRsv (img : Bytes) (i : Nat) : Option Refuse :=
  let o := recAt img 3 i
  let named := opFields (opKind img i)
  (List.range 64).findSome? (fun a =>
    if named.any (fun x => decide (x.1 ≤ a) && decide (a < x.1 + x.2)) then none else imgRsv img (o + a) 1)

/-- The fields of one operation kind. -/
def opKindCheck (img : Bytes) (i : Nat) : Option Refuse :=
  let o := recAt img 3 i
  let sz := imgSram img
  let r := opRows img i
  let at8 (a len : Nat) : Option Refuse := imgIn img (o + a) 8 0 (sz - r * len)
  match opKind img i with
  | 1 => firstSome [ imgIn img (o + 4) 4 0 (recCount img 2 - 1), need (decide (0 < recCount img 2)) (imgBad (o + 4) 4 0 0) ]
  | 2 =>
    let fn := opF img i 14 1
    let sh := opF img i 15 1
    firstSome
      [ need (decide (opF img i 4 4 < recCount img 3) && opKind img (opF img i 4 4) == 3 && decide (opStage img (opF img i 4 4) < opStage img i))
          (imgBad (o + 4) 4 0 (recCount img 3 - 1)),
        need (decide (opF img i 8 4 + expertCount img i ≤ recCount img 5)) (imgBad (o + 8) 4 0 (recCount img 5 - expertCount img i)),
        need (isUintCode (opF img i 12 1) || opF img i 12 1 == 0xA || opF img i 12 1 == 0xB || opF img i 12 1 == 0xC) (imgBad (o + 12) 1 8 0xC),
        imgIn img (o + 13) 1 0xC 0xD, need (fn == 0 || fn == 3 || fn == 4 || fn == 5) (imgBad (o + 14) 1 0 5),
        need (decide (sh ≤ 16) || sh == 0xFF) (imgBad (o + 15) 1 0 16),
        need (opF img i 16 2 == 0 || decide (128 ≤ opF img i 16 2 ∧ opF img i 16 2 ≤ 256)) (imgBad (o + 16) 2 128 256),
        imgIn img (o + 18) 2 1 4096,
        firstSome ((List.range (expertCount img i)).map (fun e => expertCheck img (opF img i 8 4 + e) (expertWidth img i) fn)),
        at8 24 (2 * expertWidth img i), at8 32 (4 * expertWidth img i) ]
  | 3 => firstSome [ imgIn img (o + 4) 4 1 65536, imgIn img (o + 8) 1 1 (min 16 (opF img i 4 4)), imgIn img (o + 9) 1 0 1,
      at8 16 (4 * opF img i 4 4), at8 24 (8 * opF img i 8 1) ]
  | 4 =>
    let h := opF img i 4 2
    let kv := opF img i 6 2
    let hd := opF img i 8 2
    let ctx := opF img i 12 1
    firstSome
      [ imgIn img (o + 4) 2 1 256, imgIn img (o + 6) 2 1 h, need (h % kv == 0) (imgBad (o + 6) 2 1 h), imgIn img (o + 8) 2 16 512,
        imgMult img (o + 8) 2 16, need (decide (opF img i 10 2 < imgLayers img)) (imgBad (o + 10) 2 0 (imgLayers img - 1)),
        need (ctx == 0xA || ctx == 0xB || ctx == 0xC) (imgBad (o + 12) 1 0xA 0xC),
        need (decide (2 * kv * hd * (codeBits ctx / 8) ≤ imgPosBytes img)) (imgBad (o + 8) 2 16 512),
        at8 24 (2 * h * hd), at8 32 (4 * kv * hd), at8 40 (2 * h * hd) ]
  | 5 =>
    let fn := opF img i 4 1
    let w := opF img i 8 4
    firstSome
      [ imgIn img (o + 4) 1 1 5, imgIn img (o + 5) 1 0xC 0xD, need (fn != 5 || w % 2 == 0) (imgBad (o + 8) 4 0 (2 ^ 32 - 1)),
        need (fn == 2 || opF img i 12 4 == 0) (imgBad (o + 12) 4 0 0), at8 16 (2 * w), at8 24 (midWidth fn w * (codeBits (opF img i 5 1) / 8)),
        (if fn = 2 then imgIn img (o + 32) 8 0 (sz - 4 * w) else imgRsv img (o + 32) 8) ]
  | 6 => firstSome [ need (decide (opF img i 4 4 < recCount img 1) && (slotRec img (opF img i 4 4)).sram) (imgBad (o + 4) 4 0 (recCount img 1 - 1)),
      at8 8 (2 * (slotRec img (opF img i 4 4)).n) ]
  | 7 => at8 8 0
  | _ => at8 8 (opF img i 4 4)

/-- An operation that writes what another of its stage reads or writes. -/
def stageClash (img : Bytes) (i : Nat) : Bool :=
  (List.range (recCount img 3)).any (fun j =>
    j != i && opStage img j == opStage img i && (opWriteRanges img i).any (fun w => (opWriteRanges img j ++ opReadRanges img j).any w.meets))

/-- The last earlier write at an address an operation reads has another width than the operation states. -/
def widthClash (img : Bytes) (i : Nat) : Bool :=
  (opReads img i).any (fun r =>
    match ((List.range i).flatMap (opWrites img)).reverse.find? (fun w => w.1 == r.1) with
    | some w => w.2.2 != r.2
    | none => false)

/-- An operation. -/
def opCheck (img : Bytes) (i : Nat) : Option Refuse :=
  let o := recAt img 3 i
  firstSome
    [ imgIn img o 1 1 8, imgIn img (o + 2) 2 (if i = 0 then 0 else opStage img (i - 1)) 0xFFFF, opKindCheck img i, opRsv img i,
      need (!stageClash img i) (imgBad (o + 2) 2 0 0xFFFF), need (!widthClash img i) (imgBad o 1 1 8) ]

/-- An entry. -/
def entryCheck (img : Bytes) (i : Nat) : Option Refuse :=
  let o := recAt img 4 i
  let e := entryRec img i
  let ops := (List.range (recCount img 3)).filter (fun j => decide (e.first ≤ j ∧ j ≤ e.last))
  let fl (c : Nat) : Bool := isFloatCode c
  firstSome
    [ imgIn img o 4 0 (recCount img 3 - 1), imgIn img (o + 4) 4 e.first (recCount img 3 - 1), imgIn img (o + 8) 4 1 4096,
      need (ops.all (fun j => opKind img j != 1 || (opDesc img j).m == e.maxRows)) (imgBad (o + 8) 4 1 4096),
      imgIn img (o + 12) 1 0 1, imgIn img (o + 13) 1 0 1, need ((e.inKind == 0) == (opKind img e.first == 6)) (imgBad (o + 13) 1 0 1),
      need (e.inKind == 0 || fl e.inFmt) (imgBad (o + 14) 1 0xA 0xD), need (fl e.outFmt) (imgBad (o + 15) 1 0xA 0xD),
      need (opKind img e.last != 8 || e.outWidth == 0) (imgBad (o + 20) 4 0 0),
      imgIn img (o + 24) 8 0 (imgSram img - e.maxRows * (if e.inKind = 0 then 4 else e.inWidth * (codeBits e.inFmt / 8))), imgRsv img (o + 36) 12 ]

/-- An adapter record (Table 7.11). -/
def adapterCheck (img : Bytes) (i : Nat) : Option Refuse :=
  let o := recAt img 8 i
  let op := recField img 8 i 0 4
  let d := opDesc img op
  let rk := recField img 8 i 4 2
  firstSome
    [ need (decide (op < recCount img 3) && opKind img op == 1) (imgBad o 4 0 (recCount img 3 - 1)), imgIn img (o + 4) 2 1 256, imgRsv img (o + 6) 2,
      imgRsv img (o + 12) 4, imgIn img (o + 16) 8 0 (imgSram img - 4 * d.k * rk), imgIn img (o + 24) 8 0 (imgSram img - 4 * rk * d.n),
      imgIn img (o + 32) 8 0 (imgSram img - 12 * rk * (d.k + d.n)), imgIn img (o + 40) 8 0 (imgSram img), imgRsv img (o + 48) 16 ]

/-- The records of one section. -/
def sectionRecords (s : State) (img : Bytes) (x : Section) : Option Refuse :=
  let each (g : Nat → Option Refuse) : Option Refuse := (List.range x.count).findSome? g
  match x.ty with
  | 1 => each (slotCheck s img)
  | 2 => each (planCraneCheck s img)
  | 3 => each (opCheck img)
  | 4 => each (entryCheck img)
  | 6 => need (decide (x.count ≤ imgSram img)) (imgBad 16 8 x.count (2 ^ 64 - 4096))
  | 8 => each (adapterCheck img)
  | _ => none

/-- Every check of PLAN_LOAD on an image of `len` bytes, in image order. -/
def imageCheck (s : State) (b : Nat) (img : Bytes) (len : Nat) : Option Refuse :=
  firstSome
    [ headerChecks s b img len, (List.range (getLE img 24 4)).findSome? (sectionCheck img),
      (sortBy (fun a c => decide (a.off ≤ c.off)) (sectionsOf img)).findSome? (sectionRecords s img) ]

end Sys2Proof.Machine
end

