-- ==== Sys2Proof/Machine/Select.lean ====
section
/-! DEFINITION. Selection and top-k (R236 to R251): the order of entries, duplicates, SELECT_TOPK over matrices, hold segments
and modules, and SELECT_MERGE. -/

namespace Sys2Proof.Machine

/-! ### Entries (R236 to R239) -/

/-- An entry: key, rank key, attribute and, in a search, SLOT_GEN. -/
structure Ent where
  key  : Nat
  rank : Num
  attr : Nat
  slot : Nat := 0
  deriving DecidableEq, Repr

def padKey : Nat := 2 ^ 64 - 1

/-- Ascending (RANK, KEY), then ATTR, then SLOT_GEN. -/
def entLe (a b : Ent) : Bool :=
  a.rank.lt b.rank ||
    (!(b.rank.lt a.rank) && (decide (a.key < b.key) ||
      (a.key == b.key && (decide (a.attr < b.attr) || (a.attr == b.attr && decide (a.slot ≤ b.slot))))))

/-- Keeps the first entry of each key. -/
def firstOfKey : List Nat → List Ent → List Ent
  | _, [] => []
  | seen, e :: l => if seen.contains e.key then firstOfKey seen l else e :: firstOfKey (e.key :: seen) l

def nanEntries (l : List Ent) : Nat := (l.filter (fun e => e.rank.isNan)).length

/-- Padding keys, among entries whose rank key is not NaN. -/
def padEntries (l : List Ent) : Nat := (l.filter (fun e => !e.rank.isNan && e.key == padKey)).length

/-- The best `k` distinct keys, best first. -/
def bestK (k : Nat) (l : List Ent) : List Ent :=
  (firstOfKey [] (sortBy entLe (l.filter (fun e => !e.rank.isNan && e.key != padKey)))).take k

/-- An entry's 16 bytes; a −0 is written as +0. -/
def Ent.bytes (e : Ent) : Bytes := toLE 8 e.key ++ toLE 4 (f32Bits (if e.rank.isZero then Num.zero else e.rank)) ++ toLE 4 e.attr

def padEntry : Bytes := toLE 8 padKey ++ toLE 4 0x7F800000 ++ toLE 4 0

/-- `k` entries, padded. -/
def entryBlock (k : Nat) (l : List Ent) : Bytes := l.flatMap Ent.bytes ++ (List.replicate (k - l.length) padEntry).flatten

/-- The entries that a block of `n` entries holds. -/
def readEnts (bs : Bytes) (off n : Nat) : List Ent :=
  (List.range n).map (fun i => { key := getLE bs (off + 16 * i) 8, rank := f32 (getLE bs (off + 16 * i + 8) 4), attr := getLE bs (off + 16 * i + 12) 4 })

/-! ### SELECT_TOPK fields (Tables 9.4, 9.5) -/

def selRows (f : Frame) : Nat := par f 0 4
def selK (f : Frame) : Nat := par f 4 4
def selFmt (f : Frame) : Nat := par f 9 1
def selSegs (f : Frame) : Bool := par f 10 1 == 1
def selSpan (f : Frame) : Bool := (par f 11 1).testBit 1
def selExplicit (f : Frame) : Bool := (par f 11 1).testBit 0
def selCount (f : Frame) : Nat := par f 12 4
def selLen (f : Frame) : Nat := par f 16 8
def selWidth (f : Frame) : Nat := codeBits (selFmt f) / 8
/-- Bytes from one row to the next. -/
def selStride (f : Frame) : Nat := if par f 24 8 = 0 then selLen f * selWidth f else par f 24 8
def selValues (f : Frame) : DRef := parRef f 32
def selKeys (f : Frame) : DRef := parRef f 64
def selOutput (f : Frame) : DRef := parRef f 96

/-- A segment record. -/
structure Seg where
  row    : Nat
  module : Nat
  hold   : Nat
  attr   : Nat
  token  : Nat
  off    : Nat
  count  : Nat
  base   : Nat
  deriving DecidableEq, Repr

def readSeg (bs : Bytes) (i : Nat) : Seg :=
  let o := 64 * i
  { row := getLE bs o 4, module := getLE bs (o + 4) 2, hold := getLE bs (o + 8) 4, attr := getLE bs (o + 12) 4, token := getLE bs (o + 16) 8,
    off := getLE bs (o + 24) 8, count := getLE bs (o + 32) 8, base := getLE bs (o + 40) 8 }

/-- BAD_PARAM naming a field of the VALUES data (R246). -/
def segBad (off n mn mx : Nat) : Refuse := (stBadParam, .field (0x40000000 + off) 0 0 (8 * n - 1) mn mx)

/-- The hold of the berth that a segment names. -/
def segHold (s : State) (b h : Nat) : Option Hold := (getHold s h).filter (fun x => x.berth == b)

/-- The run a token names now: its own, or the one it is forwarded to. -/
def tokenRun (s : State) (h : Hold) (token : Nat) : Option Run :=
  match runOfToken h token with
  | some r => some r
  | none => (forwardFor s h.id token).bind (fun x => runOfToken h x.newToken.toNat)

/-- Fields of segment `i` that do not need its hold's state, then those that do (R246, Table 9.6). -/
def segCheck (s : State) (f : Frame) (bs : Bytes) (i : Nat) : Option Refuse :=
  let o := 64 * i
  let g := readSeg bs i
  let w := selWidth f
  let fieldOk (a n mn mx : Nat) : Option Refuse := need (decide (mn ≤ getLE bs (o + a) n ∧ getLE bs (o + a) n ≤ mx)) (segBad (o + a) n mn mx)
  let here := !selSpan f || g.module == moduleNo s
  firstSome
    [ fieldOk 0 4 0 (selRows f - 1), need (decide (0 < selRows f)) (segBad o 4 0 0),
      (if selSpan f then need ((fleetModules s).contains g.module) (segBad (o + 4) 2 0 4095) else fieldOk 4 2 0 0), fieldOk 6 2 0 0,
      (if here then need (tokenVerifies g.hold g.token) (segBad (o + 16) 8 0 (2 ^ 64 - 1)) else none),
      need (g.off % w == 0) (segBad (o + 24) 8 0 (2 ^ 64 - 1)), fieldOk 32 8 0 (2 ^ 32),
      (if here then (segHold s f.berth g.hold).bind (fun h => ((tokenRun s h g.token).or (runAt h g.off)).bind (fun r =>
        need (g.count == 0 || decide (r.offset ≤ g.off ∧ g.off + g.count * w ≤ r.offset + r.length)) (segBad (o + 32) 8 0 ((r.offset + r.length - g.off) / w)))) else none),
      fieldOk 48 16 0 0 ]

/-- The records that the VALUES reference of a segment selection holds at admission. -/
def segBytes (s : State) (f : Frame) : Bytes := refDataNow s f (selValues f)

/-- Holds of the segments this module reads must be SEALED. -/
def segHolds (s : State) (f : Frame) (bs : Bytes) (n : Nat) : Option Refuse :=
  (List.range n).findSome? (fun i =>
    let g := readSeg bs i
    if selSpan f && g.module != moduleNo s then none
    else
      match segHold s f.berth g.hold with
      | none => some (conflict kHold g.hold 0)
      | some h => need h.isSealed (conflict kHold g.hold (holdCode h)))

def selectCheck (s : State) (f : Frame) : Option Refuse :=
  let w := selWidth f
  let rows := selRows f
  let sg := selSegs f
  firstSome
    [ inRange f 0 4 0 65536, inRange f 4 4 1 65536, inRange f 8 1 0 1, rsvBits f 9 1 4 4,
      need (isFloatCode (selFmt f)) (badBytes 9 1 0xA 0xD), inRange f 10 1 0 1, rsvBits f 11 1 2 6,
      need (!(selExplicit f && sg)) (badField 11 0 1 0 0), need (!(selSpan f && !sg)) (badField 11 1 1 0 0),
      (if sg then inRange f 12 4 1 65536 else inRange f 12 4 0 0),
      (if sg then inRange f 16 8 0 0 else inRange f 16 8 1 (2 ^ 32)),
      (if sg then inRange f 24 8 0 0 else need (par f 24 8 == 0 || decide (selLen f * w ≤ par f 24 8)) (badBytes 24 8 (selLen f * w) (2 ^ 64 - 1))),
      parRefCheck s f 32 [1, 2, 3],
      (if sg then refLength 32 (selValues f) (64 * selCount f)
       else if rows = 0 then none else refAtLeast 32 (selValues f) ((rows - 1) * selStride f + selLen f * w)),
      parRefCheck s f 64 (if selExplicit f then [1, 2, 3] else [0]),
      (if selExplicit f then refLength 64 (selKeys f) (rows * selLen f * 8) else none),
      parRefCheck s f 96 [0, 2, 3],
      (if (selOutput f).kind = 0 then none else refLength 96 (selOutput f) (64 + rows * (16 + 16 * selK f))), noTail f 128,
      (if sg then (List.range (selCount f)).findSome? (segCheck s f (segBytes s f)) else none) ]

/-! ### Work (R241, R245, R246) -/

/-- A row's entries of a matrix. -/
def matrixRow (f : Frame) (vals keys : Bytes) (r : Nat) : List Ent :=
  let w := selWidth f
  (List.range (selLen f)).map (fun j =>
    let v := readElem (selFmt f) vals (r * selStride f + j * w)
    { key := if selExplicit f then getLE keys ((r * selLen f + j) * 8) 8 else j, rank := if par f 8 1 = 1 then v.neg else v, attr := 0 })

/-- What reading one segment gives: its entries and whether it was read through forwarding. -/
def readSegment (s : State) (f : Frame) (g : Seg) : Refuse ⊕ (List Ent × Bool) :=
  if g.count = 0 then .inr ([], false) else
  match segHold s f.berth g.hold with
  | none => .inl (conflict kHold g.hold 0)
  | some h =>
    let cur := (runOfToken h g.token).isSome
    if !cur && (forwardFor s h.id g.token).isNone then
      .inl (stRelocated, .media h.id 1 h.quay (BitVec.ofNat 64 g.off) (((runAt h g.off).map (tokenOf h)).getD 0))
    else
      match holdBytes s h g.off (g.count * selWidth f) with
      | .inl r => .inl r
      | .inr d => .inr ((List.range g.count).map (fun i =>
          let v := readElem (selFmt f) d (i * selWidth f)
          { key := (g.base + i) % 2 ^ 64, rank := if par f 8 1 = 1 then v.neg else v, attr := g.attr }), !cur)

/-- Reads segments in order; the first failure ends it. The entries carry their row. -/
def readSegments (s : State) (f : Frame) : List Seg → List (Nat × List Ent) → Nat → Refuse ⊕ (List (Nat × List Ent) × Nat)
  | [], acc, rel => .inr (acc, rel)
  | g :: l, acc, rel =>
    match readSegment s f g with
    | .inl r => .inl r
    | .inr (es, fw) => readSegments s f l (acc ++ [(g.row, es)]) (rel + fw.toNat)

/-- A selection's rows before their best entries are taken: the entries of each row, and the segments relocated. -/
structure SelData where
  rows : List (List Ent)
  relocated : Nat := 0
  bound : Nat := 0
  pace : Nat := 0

/-- KEEP_PACE of one quay: ⌊1,000 × T_f ÷ T_d⌋ from values, survivors and bytes. -/
def paceOf (v sv b : Nat) : Nat := if b = 0 then 0 else max v (16 * sv) * 1200 / b

/-- The stripes that a segment reads, as a range of one run: hold, first byte of the run, first stripe, end, stripe size. -/
def segStripes (s : State) (f : Frame) (g : Seg) : Option (Nat × Nat × Nat × Nat × Nat) :=
  if g.count = 0 then none
  else (segHold s f.berth g.hold).bind (fun h => (runAt h g.off).map (fun r =>
    let n := stripeBytes r.narrow
    (h.id, r.offset, (g.off - r.offset) / n, (g.off - r.offset + g.count * selWidth f - 1) / n + 1, n)))

/-- Bytes of the stripes of sorted ranges, each stripe once. -/
def stripesOnce : List (Nat × Nat × Nat × Nat × Nat) → Nat × Nat → Nat → Nat
  | [], _, _ => 0
  | (h, o, a, e, n) :: l, run, upto =>
    let b := if run = (h, o) then max a upto else a
    (e - b) * n + stripesOnce l (h, o) (if run = (h, o) then max e upto else e)

/-- The bytes B_q of the stripes that segments read (R249). -/
def segStripeBytes (s : State) (f : Frame) (segs : List Seg) : Nat :=
  stripesOnce (sortBy (fun a b => decide (a.1 < b.1) || (a.1 == b.1 && (decide (a.2.1 < b.2.1) || (a.2.1 == b.2.1 && decide (a.2.2.1 ≤ b.2.2.1)))))
    (segs.filterMap (segStripes s f))) (0, 0) 0

/-- Bytes and values per quay of the segments read here, for R249. How many values survive depends on the order in which
they arrive, which the model does not fix (free). -/
def selBound (s : State) (f : Frame) (segs : List Seg) : Nat × Nat :=
  let on (q : Nat) : List Seg := segs.filter (fun g => ((segHold s f.berth g.hold).map (fun h => h.quay)) == some q)
  let l := (List.range 24).map (fun q => (sumNat ((on q).map (fun g => g.count)), segStripeBytes s f (on q)))
  (maxNat (l.map (fun x => ceilDiv (x.2 * 10) 1536)),
    maxNat (l.zipIdx.map (fun x => paceOf x.1.1 (Config.amount (s.fresh + x.2) % (x.1.1 + 1)) x.1.2)))

def mySegs (s : State) (f : Frame) (bs : Bytes) (n : Nat) : List Seg :=
  ((List.range n).map (readSeg bs)).filter (fun g => !selSpan f || g.module == moduleNo s)

/-- The segment records a command works on: those its admission read, or those a WORK message brought. -/
def workSegs (s : State) (a : Active) : List Seg :=
  if a.origin.isSome then let r := prefixRest a.frame.payload; (List.range (r.length / 64)).map (readSeg r)
  else mySegs s a.frame (keptBytes a.snap) (selCount a.frame)

def selectData (s : State) (a : Active) : Refuse ⊕ SelData :=
  let f := a.frame
  if selSegs f then
    match readSegments s f (workSegs s a) [] 0 with
    | .inl r => .inl r
    | .inr (l, rel) =>
      let b := selBound s f (workSegs s a)
      .inr { rows := (List.range (selRows f)).map (fun r => ((l.filter (fun x => x.1 == r)).map (fun x => x.2)).flatten), relocated := rel, bound := b.1, pace := b.2 }
  else
    .inr { rows := (List.range (selRows f)).map (matrixRow f (refData s a 0 (selValues f)) (refData s a 1 (selKeys f))) }

/-- One row block of Table 9.7. -/
def rowBlock (k excluded : Nat) (best : List Ent) : Bytes :=
  toLE 4 best.length ++ toLE 2 (if best.length < k then stOkShort else stOk) ++ zeros 2 ++ toLE 4 (clampTo 32 excluded) ++ zeros 4 ++ entryBlock k best

/-- The counters of a selection. -/
structure SelCount where
  values : Nat := 0
  nan    : Nat := 0
  pad    : Nat := 0
  reloc  : Nat := 0
  bound  : Nat := 0
  pace   : Nat := 0
  deriving DecidableEq, Repr

/-- The body, the SHORT detail's numbers, and the state with SELECT_STATS. `merged` gives each row's entries with what
other modules found; `excluded` what each row excluded. -/
def selectOut (s : State) (a : Active) (out : DRef) (k : Nat) (best : List (List Ent)) (excluded : List Nat) (c : SelCount) : State × WorkOut :=
  let rows := best.length
  let short := (best.filter (fun l => decide (l.length < k))).length
  let head := toLE 4 rows ++ toLE 4 k ++ toLE 8 (s.now - a.acceptedLocal) ++ toLE 8 c.bound ++ toLE 8 c.values ++ toLE 8 c.nan ++ toLE 8 c.pad
    ++ toLE 4 (clampTo 32 short) ++ toLE 4 (clampTo 32 c.reloc) ++ toLE 4 (clampTo 32 c.pace) ++ zeros 4
  let body := head ++ (List.zip best excluded).flatMap (fun x => rowBlock k x.2 x.1)
  let b := a.frame.berth
  let s1 := modBerth b (fun x => { x with sel :=
    { rows := satAdd 64 x.sel.rows rows, values := satAdd 64 x.sel.values c.values, nanExcluded := satAdd 32 x.sel.nanExcluded c.nan,
      padExcluded := satAdd 32 x.sel.padExcluded c.pad, shortRows := satAdd 32 x.sel.shortRows short, relocated := satAdd 32 x.sel.relocated c.reloc } }) (useFresh s)
  let s2 := if out.kind = 0 then s1 else putRef b out body s1
  let pl := if out.kind = 0 then body else head
  if short = 0 then (s2, okOut [] pl)
  else
    let det : Detail := .short (clampTo 32 (sumNat (best.map (fun l => l.length)))) (clampTo 32 (rows * k)) (clampTo 64 (c.nan + c.pad))
    (s2, { status := stOkShort, detail := det, payload := pl })

/-- The outcome of a selection on one module. -/
def selectHere (s : State) (a : Active) : State × WorkOut :=
  let f := a.frame
  match selectData s a with
  | .inl r => (s, failOut r)
  | .inr d =>
    let c : SelCount := { values := sumNat (d.rows.map (fun l => l.length)), nan := sumNat (d.rows.map nanEntries), pad := sumNat (d.rows.map padEntries),
                          reloc := d.relocated, bound := d.bound, pace := d.pace }
    selectOut s a (selOutput f) (selK f) (d.rows.map (bestK (selK f))) (d.rows.map (fun l => nanEntries l + padEntries l)) c

/-! ### Selections that span modules (R247) -/

def listBytes (f : Frame) : Nat := selRows f * (8 + 16 * selK f)

/-- A module's list for each row: the number excluded, then K entries. -/
def listOf (f : Frame) (rows : List (List Ent)) (excluded : List Nat) : Bytes :=
  (List.zip rows excluded).flatMap (fun x => toLE 8 x.2 ++ entryBlock (selK f) x.1)

/-- Row `r` of a received list: excluded, entries. -/
def readList (f : Frame) (bs : Bytes) (r : Nat) : Nat × List Ent :=
  let o := r * (8 + 16 * selK f)
  (getLE bs o 8, (readEnts bs (o + 8) (selK f)).filter (fun e => e.key != padKey))

/-- The modules that the segments name, the origin apart. -/
def spanPeers (s : State) (f : Frame) (bs : Bytes) : List Nat :=
  (((List.range (selCount f)).map (fun i => (readSeg bs i).module)).eraseDups).filter (fun m => m != moduleNo s)

/-- Receives from `children`, one list after the other. -/
def childStep (n : Nat) (children : List Nat) : FleetStep :=
  { sends := [], recvs := children.zipIdx.map (fun x => (x.1, x.2 * n, n)), add := false }

/-- The origin sends each peer its segments, where to send its list, and whose lists it merges first. -/
def startSpan (s : State) (a : Active) : State :=
  let f := a.frame
  if !selSpan f ∨ selRows f = 0 then s
  else
    let bs := keptBytes a.snap
    let peers := spanPeers s f bs
    let kids := peers.filter (fun m => treeParent s peers m == moduleNo s)
    let w : FleetWork := { cmd := a.id, waiting := peers, steps := if kids.isEmpty then [] else [childStep (listBytes f) kids], sent := true }
    let s1 := modActive a.id (fun a => { a with hawser := true }) { s with hawser := { s.hawser with works := s.hawser.works ++ [w] } }
    let segsOf (m : Nat) : Bytes := ((List.range (selCount f)).filter (fun i => (readSeg bs i).module == m)).flatMap (fun i => slice bs (64 * i) 64)
    peers.foldl (fun st m =>
      sendWork m a.opcode f.berth f.tag.toNat (padTo 128 f.params) (peerPrefix (treeParent s peers m) (treeChildren s peers m) ((treeChildren s peers (treeParent s peers m)).idxOf m) ++ segsOf m) st) s1

def startPeer (s : State) (a : Active) : State :=
  let f := a.frame
  let kids := prefixOthers f.payload
  let w : FleetWork := { cmd := a.id, steps := if kids.isEmpty then [] else [childStep (listBytes f) kids], sent := true }
  modActive a.id (fun a => { a with hawser := true }) { s with hawser := { s.hawser with works := s.hawser.works ++ [w] } }

/-- This module's rows joined with the lists it has received. -/
def mergedRows (s : State) (a : Active) (d : SelData) : List (List Ent × Nat) :=
  let f := a.frame
  let n := listBytes f
  let w := (getWork s a.id).map (fun w => w.buf)
  let kids := if a.origin.isSome then (prefixOthers f.payload).length
    else let bs := keptBytes a.snap; ((spanPeers s f bs).filter (fun m => treeParent s (spanPeers s f bs) m == moduleNo s)).length
  let got := (List.range kids).map (fun i => memRead (w.getD []) (i * n) n)
  d.rows.zipIdx.map (fun x =>
    let others := got.map (fun b => readList f b x.2)
    (bestK (selK f) (x.1 ++ (others.map (fun o => o.2)).flatten), nanEntries x.1 + padEntries x.1 + sumNat (others.map (fun o => o.1))))

def countsBytes (c : SelCount) : Bytes := toLE 8 c.values ++ toLE 8 c.nan ++ toLE 8 c.pad ++ toLE 4 (clampTo 32 c.reloc) ++ toLE 8 c.bound ++ toLE 4 (clampTo 32 c.pace)

def addCounts (c : SelCount) (b : Bytes) : SelCount :=
  { values := c.values + getLE b 0 8, nan := c.nan + getLE b 8 8, pad := c.pad + getLE b 16 8, reloc := c.reloc + getLE b 24 4,
    bound := max c.bound (getLE b 28 8), pace := max c.pace (getLE b 36 4) }

/-- The work of a spanning selection, at the origin or at a peer. -/
def selectSpan (s : State) (a : Active) : State × WorkOut :=
  let f := a.frame
  match fleetFailure s a.id with
  | some o => (s, o)
  | none =>
    match selectData s a with
    | .inl r => (s, failOut r)
    | .inr d =>
      let m := mergedRows s a d
      let c : SelCount := { values := sumNat (d.rows.map (fun l => l.length)), nan := sumNat (d.rows.map nanEntries), pad := sumNat (d.rows.map padEntries),
                            reloc := d.relocated, bound := d.bound, pace := d.pace }
      if a.origin.isSome then
        (openFlow a.id (prefixParent f.payload) f.berth (prefixPlace f.payload * listBytes f) (listOf f (m.map (fun x => x.1)) (m.map (fun x => x.2))) (useFresh s), okOut [] (countsBytes c))
      else
        let rs := ((getWork s a.id).map (fun w => w.results)).getD []
        let all := rs.foldl (fun acc r => addCounts acc (r.2.drop 32)) c
        let peers := spanPeers s f (keptBytes a.snap)
        let coll := if peers.isEmpty then 0 else linkNs s peers (16 * selK f * selRows f) + farthestHops s peers * hopNs
        selectOut s a (selOutput f) (selK f) (m.map (fun x => x.1)) (m.map (fun x => x.2)) { all with bound := all.bound + coll }

def hasHawser (s : State) : Nat := if bits s.dev.units.toNat 8 6 = 0 then 0x3F * 2 ^ 8 else 0

def cmdSelectTopk : CmdSpec :=
  { opcode := 0x0500, cls := 1, result := true
    units := fun s f => 2 ^ 20 + (if selSpan f then hasHawser s else 0)
    check := selectCheck
    objects := fun s f => firstSome
      [ refRts s f (selValues f), refRts s f (selKeys f), refRts s f (selOutput f),
        (if selSegs f then segHolds s f (segBytes s f) (selCount f) else none) ]
    needs := fun s f =>
      let w := min (selRows f) 4096 * 32 * selK f
      let free := sramFree s f.berth - (96 + if (selOutput f).kind = 0 then selRows f * (16 + 16 * selK f) else 0)
      firstSome [ need (decide (w ≤ free)) (noResource 0x0500 free w), scanFits s f.berth (16 * selK f) ]
    size := fun _ f => 64 + (if (selOutput f).kind = 0 then selRows f * (16 + 16 * selK f) else 0)
    uses := fun s f =>
      if isMember f then { objs := (List.range ((prefixRest f.payload).length / 64)).map (fun i => (kHold, (readSeg (prefixRest f.payload) i).hold)) } else
      { objs := if selSegs f then (mySegs s f (segBytes s f) (selCount f)).map (fun g => (kHold, g.hold)) else []
        snap := if selSegs f then keepBytes (segBytes s f) else []
        refs := [selValues f, selKeys f, selOutput f]
        sources := [selValues f, selKeys f]
        fetch := ([(0, selValues f), (1, selKeys f)]).filter (fun x => x.2.kind == 3 && !(selSegs f)), reserved := min (selRows f) 4096 * 32 * selK f }
    depth := fun _ f => if selSegs f then 1 else 2
    slow := fun _ _ => true
    take := fun s a => if selSpan a.frame then modActive a.id (fun a => { a with hawser := true }) s else s
    start := fun s a => if a.origin.isSome then startPeer s a else startSpan s a
    done := fun s a =>
      match getWork s a.id with
      | none => true
      | some w => w.failed.isSome || (w.steps.isEmpty && fleetDone s a.id) || (fleetFailure s a.id).isSome
    work := fun s a => if selSpan a.frame && (decide (selRows a.frame ≠ 0) || a.origin.isSome) then selectSpan s a else selectHere s a
    memberParams := 128
    memberCheck := fun s f =>
      let bs := prefixRest f.payload
      let n := bs.length / 64
      firstSome [ (List.range n).findSome? (segCheck s f bs), segHolds s f bs n ] }

/-! ### SELECT_MERGE (R248) -/

def mergeInput (f : Frame) : DRef := parRef f 16
def mergeOutput (f : Frame) : DRef := parRef f 48

/-- The entries of `n` lists back to back from `off`; BAD_PARAM for one that runs past the end. -/
def readLists (bs : Bytes) : Nat → Nat → List Ent → Refuse ⊕ List Ent
  | 0, _, acc => .inr acc
  | n + 1, off, acc =>
    let e := getLE bs off 4
    if bs.length < off + 8 + 16 * e then .inl (segBad off 4 0 ((bs.length - off - 8) / 16))
    else readLists bs n (off + 8 + 16 * e) (acc ++ readEnts bs (off + 8) e)

def cmdSelectMerge : CmdSpec :=
  { opcode := 0x0501, cls := 1, result := true
    units := fun _ _ => 2 ^ 20
    check := fun s f => firstSome
      [ inRange f 0 4 1 4096, inRange f 4 4 1 65536, rsv f 8 8, parRefCheck s f 16 [1, 2, 3], parRefCheck s f 48 [0, 2, 3],
        (if (mergeOutput f).kind = 0 then none else refLength 48 (mergeOutput f) (64 + 16 + 16 * selK f)), noTail f 80 ]
    objects := fun s f => firstSome [ refRts s f (mergeInput f), refRts s f (mergeOutput f) ]
    needs := fun s f =>
      let free := sramFree s f.berth - (96 + if (mergeOutput f).kind = 0 then 16 + 16 * selK f else 0)
      need (decide (32 * selK f ≤ free)) (noResource 0x0500 free (32 * selK f))
    size := fun _ f => 64 + (if (mergeOutput f).kind = 0 then 16 + 16 * selK f else 0)
    uses := fun _ f => { refs := [mergeInput f, mergeOutput f], sources := [mergeInput f], fetch := if (mergeInput f).kind == 3 then [(0, mergeInput f)] else [], reserved := 32 * selK f }
    depth := fun _ _ => 2
    slow := fun _ _ => true
    work := fun s a =>
      let f := a.frame
      match readLists (refData s a 0 (mergeInput f)) (par f 0 4) 0 [] with
      | .inl r => (s, failOut r)
      | .inr l =>
        selectOut s a (mergeOutput f) (selK f) [bestK (selK f) l] [nanEntries l + padEntries l] { values := l.length, nan := nanEntries l, pad := padEntries l } }

end Sys2Proof.Machine
end

