-- ==== Sys2Proof/Machine/IndexCore.lean ====
section
/-! DEFINITION. What a vector index is made of: versions of lists and items by epoch, tombstones and slots, rank keys and
distance tables, the chart walk, folds, merges, splits, moves and repairs (R192 to R199, R205 to R207, R213, R218, R227
to R232). -/

namespace Sys2Proof.Machine

/-! ### Sizes (R197, R199, R203) -/

def VIndex.c (x : VIndex) : Nat := 2 ^ x.codeBits
def VIndex.sub (x : VIndex) : Nat := x.dim / x.subspaces
def VIndex.cb (x : VIndex) : Nat := if x.codeBits = 8 then x.subspaces else x.subspaces / 2

/-- REC_BYTES for `cb` bytes of codes. -/
def recBytesOf (cb : Nat) : Nat := 4 * ceilDiv (24 + cb) 4

/-- Records of a list page. -/
def VIndex.nr (x : VIndex) : Nat := 98240 / recBytesOf x.cb

/-- Bytes of an element of a floating format code. -/
def fmtWidth (c : Nat) : Nat := codeBits c / 8

def VIndex.rrBytes (x : VIndex) : Nat := x.dim * fmtWidth x.rrFmt

/-- Slots of a re-rank page. -/
def VIndex.rp (x : VIndex) : Nat := if x.rr then 98304 / x.rrBytes else 1

/-! ### Versions (R205 to R207) -/

/-- The node whose list holds the record at epoch `e`. -/
def Item.placeAt (i : Item) (e : Nat) : Nat :=
  ((i.places.filter (fun p => decide (p.1 ≤ e))).foldl (fun a p => if a.1 ≤ p.1 then p else a) (0, 0)).2

def Item.visible (i : Item) (e : Nat) : Bool := decide (i.inserted ≤ e) && (i.removed.map (fun d => decide (e < d))).getD true

/-- The record lies in its list, as a chain page or a delta page holds it, at epoch `e`. -/
def Item.inPages (i : Item) (e : Nat) : Bool := decide (i.inserted ≤ e) && (i.purged.map (fun d => decide (e < d))).getD true

def Item.inDelta (i : Item) (e : Nat) : Bool := (i.folded.map (fun d => decide (e < d))).getD true

/-- SLOT_GEN of Table 8.5. -/
def Item.slotGen (i : Item) : Nat := i.slot + i.gen.toNat * 2 ^ 36

def VIndex.nodeOf (x : VIndex) (n : Nat) : Option Node := x.nodes.find? (fun y => y.no == n)

def VIndex.homeOf (x : VIndex) (n : Nat) : Nat := ((x.nodeOf n).map (fun y => y.home)).getD (n % 24)

/-- Records of a node's list at epoch `e`. -/
def VIndex.listAt (x : VIndex) (n e : Nat) : List Item := x.items.filter (fun i => i.inPages e && i.placeAt e == n)

def VIndex.visibleIn (x : VIndex) (n : Nat) : List Item := x.items.filter (fun i => i.visible x.epoch && i.placeAt x.epoch == n)

/-- Pages that hold records with these insert epochs in PAGE_SEQ order: at most `nr` each and epochs that span at most
65,535 (R197). -/
def pagesFor (nr : Nat) : List Nat → Nat → Nat → Nat → Nat
  | [], _, _, _ => 0
  | e :: l, room, lo, hi =>
    if 0 < room ∧ max hi e - min lo e ≤ 65535 then pagesFor nr l (room - 1) (min lo e) (max hi e)
    else 1 + pagesFor nr l (nr - 1) e e

/-- Code pages of a node's chain version at epoch `e`. -/
def VIndex.codePages (x : VIndex) (n e : Nat) : Nat :=
  pagesFor x.nr (((x.listAt n e).filter (fun i => !i.inDelta e)).map (fun i => i.inserted)) 0 0 0

/-- Records in the delta segment of quay `q` at epoch `e`. -/
def VIndex.deltaItems (x : VIndex) (q e : Nat) : List Item :=
  x.items.filter (fun i => i.inPages e && i.inDelta e && x.homeOf (i.placeAt e) == q)

/-- Delta pages of quay `q` at epoch `e`: a batch's records start new pages (log entry 62). -/
def VIndex.deltaPages (x : VIndex) (q e : Nat) : Nat :=
  let eps := (x.deltaItems q e).map (fun i => i.inserted)
  sumNat (eps.eraseDups.map (fun p => ceilDiv (eps.filter (fun z => z == p)).length x.nr))

/-! ### Pins, slots and tombstones (R204, R206, R213) -/

/-- OLDEST_PIN. -/
def oldestPin (s : State) (x : VIndex) : Nat :=
  ((s.cmds.active.filter (fun a => a.opcode == 0x0405 && a.objs.contains (kIndex, x.id))).map (fun a => a.pin)).foldl min x.epoch

/-- No chain version or delta page that a pin can reach still holds the record, and its key has retired. -/
def itemGone (pin : Nat) (i : Item) : Bool := (i.purged.map (fun p => decide (p ≤ pin))).getD false

/-- Drops what no pin reaches, and frees RETIRED nodes that no LIVE node's edge names (R213, R232); the entry node stays
while it is the entry. -/
def VIndex.settled (x : VIndex) (pin : Nat) : VIndex :=
  let named (n : Nat) : Bool := x.nodes.any (fun y => y.state == .live && y.edges.any (fun e => (e.map (fun r => r.1)) == some n))
  { x with
    items := x.items.filter (fun i => !itemGone pin i)
    nodes := x.nodes.map (fun y => if y.state = .retired ∧ y.no ≠ x.entry ∧ y.retiredAt ≤ pin ∧ !named y.no then { y with state := .free } else y) }

def settleIndex (id : Nat) (s : State) : State :=
  match getIndex s id with
  | none => s
  | some x => modIndex id (fun _ => x.settled (oldestPin s x)) s

def VIndex.slotsFree (x : VIndex) (pin : Nat) : Nat := x.itemsMax - (x.items.filter (fun i => !itemGone pin i)).length

/-- Tombstones of the index on a quay. -/
def tombsOf (s : State) (x : VIndex) (q : Nat) : Nat :=
  (x.items.filter (fun i => i.removed.isSome && !itemGone (oldestPin s x) i && x.homeOf (i.placeAt x.epoch) == q)).length

/-- Tombstones of a berth's indexes on a quay. -/
def berthTombs (s : State) (b q : Nat) : Nat := sumNat ((s.indexes.filter (fun x => x.berth == b)).map (fun x => tombsOf s x q))

def tombShare (s : State) (b : Nat) : Nat := scanUnits s b * 1024

/-! ### Rank keys (R192 to R194) -/

/-- A number for a sum, by what it is for, the query or item, and an index within it. -/
def sumNo (kind q i : Nat) : Nat := (kind * 2 ^ 21 + q) * 2 ^ 40 + i

def normOf (use no : Nat) (v : List Num) : Num := fmtFp32.sqrt (normSq use no v)

/-- A vector or centroid at unit norm in FP32, each element divided by the norm (log entry 63). -/
def unitVec (use no : Nat) (v : List Num) : List Num := let n := normOf use no v; v.map (fun x => fmtFp32.div x n)

/-- A query as the exact formulas use it: as supplied, or scaled by 1 ÷ ‖q‖ under metric 2. -/
def exactQuery (metric use no : Nat) (q : List Num) : List Num :=
  if metric = 2 then
    let n := normOf use no q
    if n.isZero then q else let inv := fmtFp32.div (Num.ofNat 1) n; q.map (fmtFp32.mul inv)
  else q

/-- The exact rank key of Table 8.2. -/
def exactKey (metric use no : Nat) (q v : List Num) : Num :=
  if metric = 1 then
    sumF32 use no (List.zipWith (fun a b => let d := fmtFp32.add a b.neg; fmtFp32.mul d d) q v)
  else (sumF32 use no (List.zipWith prod32 q v)).neg

def bf16s (l : List (BitVec 16)) : List Num := l.map (fun w => fmtBf16.decode w.toNat)

/-- The chart distance. A NaN, whose place in the order the manual leaves open, is a free finite value. -/
def chartDist (x : VIndex) (use no : Nat) (q : List Num) (n : Node) : Num :=
  let d := exactKey x.metric use no q (bf16s n.centroid)
  if d.isNan then Num.fin (Config.choose (use + no)) (Config.freeWord use no).toNat (-149) else d

/-- The codewords, each DIM ÷ P long, in image order. -/
def VIndex.words (x : VIndex) : List (List Num) :=
  (List.range (x.subspaces * x.c)).map (fun i => bf16s ((x.codebook.drop (i * x.sub)).take x.sub))

/-- The BF16 distance table of a query. -/
def VIndex.distTab (x : VIndex) (use qi : Nat) (words : List (List Num)) (norms : List Num) (q : List Num) : List Num :=
  (distTable x.metric use (sumNo 1 qi 0) x.sub x.subspaces x.c words norms q).map (fun v => plusZero (convertOut 0xC v).v)

/-- ‖c‖² of every codeword. -/
def wordNorms (use : Nat) (words : List (List Num)) : List Num :=
  words.zipIdx.map (fun w => normSq use (sumNo 2 0 w.2) w.1)

/-- The approximate rank key of a record. -/
def approxKey (x : VIndex) (use qi : Nat) (table : List Num) (i : Item) : Num :=
  sumF32 use (sumNo 3 qi i.slotGen) (i.codes.zipIdx.map (fun p => table.getD (p.2 * x.c + p.1) Num.zero))

/-! ### The chart walk (R218) -/

/-- Ascending (distance, number). -/
def candLe (a b : Num × Nat) : Bool := a.1.lt b.1 || (!(b.1.lt a.1) && decide (a.2 ≤ b.2))

structure Walk where
  visited : List Nat
  cand    : List (Num × Nat)
  best    : List (Num × Nat)
  evals   : Nat

/-- Destination at epoch `e` (Table 8.14). -/
def Node.destAt (n : Node) (e : Nat) : Bool :=
  match n.state with
  | .free => false
  | .live => decide (n.liveFrom ≤ e)
  | .retired => decide (n.liveFrom ≤ e ∧ e < n.retiredAt)

/-- One edge of the node taken from cand. -/
def walkEdge (x : VIndex) (use kind qi beam : Nat) (q : List Num) (w : Walk) (e : Option (Nat × BitVec 12)) : Walk :=
  match e with
  | none => w
  | some (n, g) =>
    match x.nodeOf n with
    | none => w
    | some y =>
      if y.gen ≠ g ∨ w.visited.contains n then w
      else if y.state = .free then { w with visited := n :: w.visited }
      else
        let d := (chartDist x use (sumNo kind qi n) q y, n)
        { visited := n :: w.visited, cand := insertBy candLe d w.cand, best := (insertBy candLe d w.best).take beam, evals := w.evals + 1 }

/-- The walk's loop; each round removes a candidate, and a node is a candidate once. -/
def walkGo (x : VIndex) (use kind qi beam : Nat) (q : List Num) : Nat → Walk → Walk
  | 0, w => w
  | k + 1, w =>
    match w.cand with
    | [] => w
    | c :: rest =>
      if w.best.length = beam && !(w.best.getLast?.map (fun b => candLe c b)).getD true then { w with cand := rest }
      else
        let es := ((x.nodeOf c.2).map (fun n => n.edges)).getD []
        walkGo x use kind qi beam q k (es.foldl (walkEdge x use kind qi beam q) { w with cand := rest })

/-- The destinations at epoch `e` among the walk's best, nearest first, and how many distances it evaluated. -/
def chartWalk (x : VIndex) (use kind qi beam e : Nat) (q : List Num) : List (Num × Nat) × Nat :=
  match x.nodeOf x.entry with
  | none => ([], 0)
  | some n =>
    let d := (chartDist x use (sumNo kind qi n.no) q n, n.no)
    let w := walkGo x use kind qi beam q (x.nodes.length + 1) { visited := [n.no], cand := [d], best := [d], evals := 1 }
    (w.best.filter (fun b => ((x.nodeOf b.2).map (fun y => y.destAt e)).getD false), w.evals)

/-! ### Changes of the lists (R227 to R232) -/

def VIndex.modNode (x : VIndex) (n : Nat) (g : Node → Node) : VIndex :=
  { x with nodes := x.nodes.map (fun y => if y.no = n then g y else y) }

/-- Rewrites the list of a node at a new epoch without the records removed by then (log entry 62). -/
def VIndex.fold (x : VIndex) (n : Nat) : VIndex :=
  let e := x.epoch + 1
  { x with
    epoch := e
    items := x.items.map (fun i =>
      if i.inPages x.epoch ∧ i.placeAt x.epoch = n then
        (if i.removed.isSome then { i with purged := some e } else { i with folded := some (i.folded.getD e) })
      else i) }

/-- A fold of the list would change something. -/
def VIndex.foldable (x : VIndex) (n : Nat) : Bool :=
  (x.listAt n x.epoch).any (fun i => i.removed.isSome || i.inDelta x.epoch)

/-- The LIVE node nearest to a node's centroid. -/
def nearestLive (x : VIndex) (use : Nat) (m : Node) : Option Nat :=
  let l := (x.nodes.filter (fun y => y.state == .live && y.no != m.no)).map (fun y => (chartDist x use (sumNo 4 m.no y.no) (bf16s m.centroid) y, y.no))
  ((sortBy candLe l).head?).map (fun p => p.2)

/-- The merge of node `m` into `t` (R229). -/
def VIndex.merge (x : VIndex) (m t : Nat) : VIndex :=
  let e := x.epoch + 1
  let y : VIndex := { x with
    epoch := e
    items := x.items.map (fun i =>
      if i.inPages x.epoch ∧ i.placeAt x.epoch = m then
        (if i.removed.isSome then { i with purged := some e } else { i with folded := some (i.folded.getD e), places := i.places ++ [(e, t)] })
      else i) }
  y.modNode m (fun n => { n with state := .retired, retiredAt := e })

/-- The largest list on the quay moves to another quay (R231). -/
def VIndex.moveList (x : VIndex) (n q : Nat) : VIndex :=
  let e := x.epoch + 1
  let y : VIndex := { x with
    epoch := e
    items := x.items.map (fun i =>
      if i.inPages x.epoch ∧ i.placeAt x.epoch = n then { i with folded := some (i.folded.getD e) } else i) }
  y.modNode n (fun z => { z with home := q })

/-- A record's vector as its codewords give it. -/
def reconstruct (x : VIndex) (words : List (List Num)) (i : Item) : List Num :=
  (i.codes.zipIdx.map (fun p => words.getD (p.2 * x.c + p.1) [])).flatten

/-- Squared Euclidean distance in FP32. -/
def euclid (use no : Nat) (a b : List Num) : Num := exactKey 1 use no a b

/-- The farthest of a list of (slot, vector) from a point; ties to the lower slot. -/
def farthest (use no : Nat) (p : List Num) (l : List (Nat × List Num)) : Option (Nat × List Num) :=
  let d := l.zipIdx.map (fun x => (euclid use (no + x.2) p x.1.2, x.1))
  (d.foldl (fun acc x =>
    match acc with
    | none => some x
    | some y => if y.1.lt x.1 || (!(x.1.lt y.1) && decide (x.2.1 < y.2.1)) then some x else some y) none).map (fun x => x.2)

/-- The mean of vectors in FP32; a cluster that is empty keeps its seed. -/
def meanOf (use no dim : Nat) (old : List Num) (l : List (List Num)) : List Num :=
  if l.isEmpty then old
  else (List.range dim).map (fun j => fmtFp32.div (sumF32 use (no + j) (l.map (fun v => v.getD j Num.zero))) (Num.ofNat l.length))

/-- Four rounds of assignment to the nearer seed, ties to the first, and recomputation of the means. -/
def clusterGo (use dim : Nat) (l : List (Nat × List Num)) : Nat → List Num → List Num → List Nat × List Num × List Num
  | 0, a, b => ([], a, b)
  | k + 1, a, b =>
    let no := sumNo (16 + k) 0 0
    let isB (i : Nat) (v : List Num) : Bool := (euclid use (no + 2 * i + 1) v b).lt (euclid use (no + 2 * i) v a)
    let tagged := l.zipIdx.map (fun x => (x.1, isB x.2 x.1.2))
    let inB := tagged.filter (fun x => x.2)
    let inA := tagged.filter (fun x => !x.2)
    let a1 := meanOf use (sumNo (24 + k) 0 0) dim a (inA.map (fun x => x.1.2))
    let b1 := meanOf use (sumNo (32 + k) 0 0) dim b (inB.map (fun x => x.1.2))
    let r := clusterGo use dim l k a1 b1
    if k = 0 then (inB.map (fun x => x.1.1), a1, b1) else r

/-- A mean as a centroid: normalised under metric 2, rounded to BF16. -/
def centroidOf (x : VIndex) (use no : Nat) (v : List Num) : List (BitVec 16) :=
  let u := if x.metric = 2 && !(normOf use no v).isZero then unitVec use no v else v
  u.map (fun a => BitVec.ofNat 16 (fmtBf16.encode (fmtBf16.round a)))

/-- The lowest FREE node. -/
def VIndex.freeNode (x : VIndex) : Option Nat :=
  (List.range x.nodeMax).find? (fun n => ((x.nodeOf n).map (fun y => y.state == .free)).getD true)

/-- An edge names a node that is LIVE under the generation the edge holds. -/
def VIndex.edgeLive (x : VIndex) (e : Option (Nat × BitVec 12)) : Bool :=
  match e with
  | none => false
  | some (n, g) => ((x.nodeOf n).map (fun y => y.state == .live && y.gen == g)).getD false

/-- Node `m` replaces its farthest edge by one to `f` when `f` is nearer. Unused edges and edges to nodes that are not
LIVE count as farthest. Answers whether it did. -/
def linkBack (use : Nat) (f : Node) (acc : VIndex × Nat) (m : Nat) : VIndex × Nat :=
  let x := acc.1
  match x.nodeOf m with
  | none => acc
  | some y =>
    let q := bf16s y.centroid
    let ref : Option (Nat × BitVec 12) := some (f.no, f.gen)
    match y.edges.findIdx? (fun e => !x.edgeLive e) with
    | some i => (x.modNode m (fun z => { z with edges := z.edges.set i ref }), acc.2 + 1)
    | none =>
      let ds := y.edges.zipIdx.map (fun e => (((e.1.bind (fun r => x.nodeOf r.1)).map (chartDist x use (sumNo 5 m e.2) q)).getD Num.zero, e.2))
      match (sortBy candLe ds).getLast? with
      | none => acc
      | some w =>
        if (chartDist x use (sumNo 6 m 0) q f).lt w.1 then (x.modNode m (fun z => { z with edges := z.edges.set w.2 ref }), acc.2 + 1) else acc

/-- A split of node `n` into itself and the FREE node `f` (R230): the index, the edges rewritten and the walk's
evaluations. -/
def VIndex.split (x : VIndex) (use : Nat) (n : Node) (f : Nat) : VIndex × Nat × Nat :=
  let e := x.epoch + 1
  let words := x.words
  let recs := (x.visibleIn n.no).map (fun i => (i.slot, reconstruct x words i))
  let a := ((farthest use (sumNo 7 0 0) (bf16s n.centroid) recs).map (fun p => p.2)).getD []
  let b := ((farthest use (sumNo 8 0 0) a recs).map (fun p => p.2)).getD []
  let cl := clusterGo use x.dim recs 4 a b
  let gen := (((x.nodeOf f).map (fun y => y.gen)).getD 0) + 1
  let fn : Node := { no := f, state := .live, gen := gen, liveFrom := e, home := n.home, centroid := centroidOf x use (sumNo 9 0 0) cl.2.2,
                     edges := List.replicate x.degree none }
  let items := x.items.map (fun i =>
    if i.inPages x.epoch ∧ i.placeAt x.epoch = n.no then
      (if i.removed.isSome then { i with purged := some e }
       else if cl.1.contains i.slot then { i with folded := some (i.folded.getD e), places := i.places ++ [(e, f)] }
       else { i with folded := some (i.folded.getD e) })
    else i)
  let y := { x with epoch := e, items := items, nodes := fn :: x.nodes.filter (fun z => z.no != f) }
  let y1 := y.modNode n.no (fun z => { z with centroid := centroidOf x use (sumNo 10 0 0) cl.2.1 })
  let w := chartWalk y1 use 11 0 (4 * x.degree) e (bf16s fn.centroid)
  let near := ((w.1.filter (fun p => p.2 != f)).take x.degree).map (fun p => p.2)
  let edges := near.map (fun m => (y1.nodeOf m).map (fun z => (m, z.gen)))
  let fn1 : Node := { fn with edges := edges ++ List.replicate (x.degree - edges.length) none }
  let y2 := y1.modNode f (fun _ => fn1)
  let r := near.foldl (linkBack use fn1) (y2, 0)
  (r.1, r.2, w.2)

/-- An edge that a repair replaces: to a RETIRED node, or of another generation. -/
def VIndex.edgeBad (x : VIndex) (e : Option (Nat × BitVec 12)) : Bool :=
  match e with
  | none => false
  | some _ => !x.edgeLive e

/-- Fills bad edges from the nearest destinations not already among the node's edges. -/
def fillEdges (x : VIndex) : List (Option (Nat × BitVec 12)) → List Nat → List (Option (Nat × BitVec 12))
  | [], _ => []
  | e :: l, near =>
    if x.edgeBad e then
      match near with
      | [] => none :: fillEdges x l []
      | m :: rest => ((x.nodeOf m).map (fun y => (m, y.gen))) :: fillEdges x l rest
    else e :: fillEdges x l near

/-- The repair of one node (R232): the index, the edges rewritten and the evaluations. -/
def VIndex.repairNode (x : VIndex) (use : Nat) (n : Node) : VIndex × Nat × Nat :=
  let bad := (n.edges.filter x.edgeBad).length
  if n.state ≠ .live ∨ bad = 0 then (x, 0, 0)
  else
    let w := chartWalk x use 12 n.no (4 * x.degree) x.epoch (bf16s n.centroid)
    let have1 := n.edges.filterMap (fun e => if x.edgeBad e then none else e.map (fun r => r.1))
    let near := (w.1.map (fun p => p.2)).filter (fun m => m != n.no && !have1.contains m)
    (x.modNode n.no (fun z => { z with edges := fillEdges x z.edges near }), bad, w.2)

/-- A RETIRED entry node gives way to the nearest LIVE node. -/
def VIndex.repairEntry (x : VIndex) (use : Nat) : VIndex :=
  match x.nodeOf x.entry with
  | some n => if n.state = .live then x else { x with entry := (nearestLive x use n).getD x.entry }
  | none => x

/-- A whole repair. -/
def VIndex.repair (x : VIndex) (use : Nat) : VIndex × Nat × Nat :=
  let r := x.nodes.foldl (fun (acc : VIndex × Nat × Nat) n =>
    let z := acc.1.repairNode use n
    (z.1, acc.2.1 + z.2.1, acc.2.2 + z.2.2)) (x, 0, 0)
  (r.1.repairEntry use, r.2)

end Sys2Proof.Machine
end

