-- ==== Sys2Proof/Machine/Index.lean ====
section
/-! DEFINITION. The commands of group 0x04 and the automatic folds (R195 to R235). -/

namespace Sys2Proof.Machine

def IndexState.code : IndexState → Nat
  | .online => 1 | .worn => 2 | .offline => 3

/-- The index of the header's berth that INDEX_ID names. -/
def indexNamed (s : State) (f : Frame) : Option VIndex := (getIndex s (par f 0 4)).filter (fun x => x.berth == f.berth)

/-- STATE_CONFLICT unless the index is in one of the states (Table 8.7). -/
def indexIn (s : State) (f : Frame) (codes : List Nat) : Option Refuse :=
  let c := ((indexNamed s f).map (fun x => x.state.code)).getD 0
  need (codes.contains c) (conflict kIndex (par f 0 4) c)

/-- READ_ONLY_WORN for changes (R202). -/
def indexWritable (s : State) (f : Frame) : Option Refuse :=
  (indexNamed s f).bind (fun x => need (x.state != .worn) (stReadOnlyWorn, .objectState kIndex x.id 2))

/-- VECTOR (R201). -/
def vectorUnits : Nat := 2 ^ 18

/-! ### The image (R195, R196) -/

def hdrCheck (img : Bytes) (size : Nat) : Option Refuse :=
  let v (o n : Nat) : Nat := getLE img o n
  let rng (o n mn mx : Nat) : Option Refuse := need (decide (mn ≤ v o n ∧ v o n ≤ mx)) (imgBad o n mn mx)
  let dim := v 8 4
  let p := v 12 2
  let fl := v 15 1
  let lists := v 16 4
  let ib := v 48 8
  let cbLen := 2 ^ v 7 1 * dim * 2
  let ceLen := lists * dim * 2
  let chLen := lists * v 14 1 * 4
  let apart (a n b m : Nat) : Bool := decide (a + n ≤ b ∨ b + m ≤ a)
  let sec (o n : Nat) (ok : Bool) : Option Refuse := need (v o 8 % 64 == 0 && decide (v o 8 + n ≤ ib) && ok) (imgBad o 8 0 (ib - n))
  firstSome
    [ rng 0 4 0x58444E49 0x58444E49, rng 4 2 1 1, rng 6 1 0 2, need (v 7 1 == 8 || v 7 1 == 4) (imgBad 7 1 4 8), rng 8 4 16 4096,
      need (decide (1 ≤ p ∧ p ≤ 1024) && dim % p == 0 && decide (dim / p ≤ 256) && (v 7 1 == 8 || p % 2 == 0)) (imgBad 12 2 1 1024),
      rng 14 1 8 64,
      need (decide (fl < 32) && (if fl.testBit 4 then isFloatCode (fl % 16) else fl % 16 == 0)) (imgBad 15 1 0 0x1D),
      rng 16 4 1 1048576, rng 20 4 0 (lists - 1), rng 48 8 128 size,
      sec 24 cbLen true, sec 32 ceLen (apart (v 32 8) ceLen (v 24 8) cbLen),
      sec 40 chLen (apart (v 40 8) chLen (v 24 8) cbLen && apart (v 40 8) chLen (v 32 8) ceLen), rng 56 8 0 0 ]

/-- The first non-finite BF16 value of `n` from image offset `o`. -/
def badValue (img : Bytes) (o n : Nat) : Option Refuse :=
  (List.range n).findSome? (fun i => need (fmtBf16.decode (getLE img (o + 2 * i) 2)).isFin (imgBad (o + 2 * i) 2 0 0xFFFF))

/-- The edges of node `n`: no edge to itself, none twice, none at or above LISTS. -/
def edgeCheck (img : Bytes) (n : Nat) : Option Refuse :=
  let deg := getLE img 14 1
  let lists := getLE img 16 4
  let o := getLE img 40 8 + n * deg * 4
  let es := (List.range deg).map (fun i => getLE img (o + 4 * i) 4)
  es.zipIdx.findSome? (fun e =>
    need (e.1 == 0xFFFFFFFF || (e.1 != n && decide (e.1 < lists) && !(es.take e.2).contains e.1)) (imgBad (o + 4 * e.2) 4 0 (lists - 1)))

/-- The values of the image. A centroid of zero norm is named at its first value. -/
def contentCheck (use : Nat) (img : Bytes) : Option Refuse :=
  let dim := getLE img 8 4
  let lists := getLE img 16 4
  let ce := getLE img 32 8
  firstSome
    [ badValue img (getLE img 24 8) (2 ^ getLE img 7 1 * dim), badValue img ce (lists * dim),
      (if getLE img 6 1 = 2 then (List.range lists).findSome? (fun n =>
        need (!(normOf use (sumNo 40 0 n) (readElems 0xC img (ce + n * dim * 2) dim)).isZero) (imgBad (ce + n * dim * 2) 2 0 0xFFFF)) else none),
      (List.range lists).findSome? (edgeCheck img) ]

/-- The digest over bytes 0 to IMAGE_BYTES − 1 with DIGEST zero. -/
def imageDigestOk (img : Bytes) : Bool := sha3 (img.take 64 ++ zeros 64 ++ img.drop 128) == slice img 64 64

/-- A node of the image: LIVE from epoch 1, generation 0. -/
def imageNode (use : Nat) (img : Bytes) (n : Nat) : Node :=
  let dim := getLE img 8 4
  let deg := getLE img 14 1
  let v := readElems 0xC img (getLE img 32 8 + n * dim * 2) dim
  let u := if getLE img 6 1 = 2 then unitVec use (sumNo 40 0 n) v else v
  let o := getLE img 40 8 + n * deg * 4
  { no := n, state := .live, liveFrom := 1, home := n % 24, centroid := u.map (fun a => BitVec.ofNat 16 (fmtBf16.encode (fmtBf16.round a)))
    edges := (List.range deg).map (fun i => let e := getLE img (o + 4 * i) 4; if e = 0xFFFFFFFF then none else some (e, 0)) }

/-- REC_BYTES, RR_BYTES, ALLOC_GIB and S_I of an image header (R203). -/
def imageAlloc (img : Bytes) (nodeMax itemsMax : Nat) : Nat × Nat :=
  let p := getLE img 12 2
  let dim := getLE img 8 4
  let fl := getLE img 15 1
  let rec4 := recBytesOf (if getLE img 7 1 = 8 then p else p / 2)
  let rr := if fl.testBit 4 then dim * fmtWidth (fl % 16) else 0
  let c := 2 ^ getLE img 7 1
  (ceilDiv (itemsMax * (ceilDiv (5 * rec4) 4 + rr + 32) + nodeMax * 98304) (2 ^ 30) + 1,
    c * dim * 2 + p * c * 4 + nodeMax * (2 * dim + 4 * getLE img 14 1 + 32))

/-! ### INDEX_CREATE, INDEX_DELETE, INDEX_INFO -/

/-- The lowest table number that no index has (R213). -/
def freeTable (s : State) : Nat := let used := s.indexes.map (fun x => x.table); lowestFree used used.length 0

def makeIndex (s : State) (id b hold nodeMax itemsMax : Nat) (img : Bytes) : VIndex :=
  let al := imageAlloc img nodeMax itemsMax
  let dim := getLE img 8 4
  { id := id, berth := b, hold := hold, table := freeTable s, metric := getLE img 6 1, codeBits := getLE img 7 1, dim := dim,
    subspaces := getLE img 12 2, degree := getLE img 14 1, rrFmt := getLE img 15 1 % 16, rr := (getLE img 15 1).testBit 4,
    codebook := (List.range (2 ^ getLE img 7 1 * dim)).map (fun i => BitVec.ofNat 16 (getLE img (getLE img 24 8 + 2 * i) 2)),
    nodeMax := nodeMax, itemsMax := itemsMax, allocGib := al.1, sram := al.2, entry := getLE img 20 4,
    nodes := (List.range (getLE img 16 4)).map (imageNode s.fresh img) }

/-- The DIST_TABLE descriptor that R203 checks under R166 meets every limit for any image that passed R195: K = DIM ≤
4,096, N = P × C ≤ 262,144, SUB_DIM 1 to 256, CODEWORDS 16 or 256; the module lays its operands out itself. -/
def cmdIndexCreate : CmdSpec :=
  { opcode := 0x0400, cls := 2
    units := fun _ _ => vectorUnits
    check := fun _ f => firstSome [ inRange f 4 4 1 1048576, inRange f 8 8 1 (2 ^ 36), noTail f 16 ]
    objects := fun s f => holdState s f [2]
    needs := fun s _ => need (decide (s.indexes.length < 64)) (noResource 0x0400 0 1)
    uses := fun _ f => holdUses f
    depth := fun _ _ => 1
    slow := fun _ _ => true
    work := fun s a =>
      let f := a.frame
      let nodeMax := par f 4 4
      match holdNamed s f with
      | none => (s, failOut (conflict kHold (par f 0 4) 0))
      | some h =>
        match holdBytes s h 0 (min 128 h.size) with
        | .inl r => (s, failOut r)
        | .inr hd =>
          let al := imageAlloc hd nodeMax (par f 8 8)
          let early := firstSome
            [ need (decide (getLE hd 16 4 ≤ nodeMax) || decide (1048576 < getLE hd 16 4)) (badBytes 4 4 (getLE hd 16 4) 1048576),
              need (decide (s.indexes.length < 64)) (noResource 0x0400 0 1), allocCheck s f.berth (al.1 * 2 ^ 30),
              need (decide (al.2 ≤ sramFree s f.berth)) (noResource 0x0403 (sramFree s f.berth) al.2), hdrCheck hd h.size ]
          match early with
          | some r => (s, failOut r)
          | none =>
            match holdBytes s h 0 (getLE hd 48 8) with
            | .inl r => (s, failOut r)
            | .inr img =>
              match firstSome [ need (imageDigestOk img) (stDigestMismatch, .integrity kHold h.id 64), contentCheck s.fresh img ] with
              | some r => (s, failOut r)
              | none =>
                let id := newId s s.lastIndex
                (useFresh { s with indexes := s.indexes ++ [makeIndex s id f.berth h.id nodeMax (par f 8 8) img], lastIndex := id },
                  okOut (toLE 4 id ++ toLE 4 al.1) []) }

def cmdIndexDelete : CmdSpec :=
  { opcode := 0x0401, cls := 2
    units := fun _ _ => vectorUnits
    check := fun _ f => firstSome [ rsv f 4 4, noTail f 8 ]
    objects := fun s f => firstSome
      [ indexIn s f [1, 2, 3], (indexNamed s f).bind (fun x => need (!objInUse s kIndex x.id) (conflict kIndex x.id x.state.code)) ]
    depth := fun _ _ => 1
    work := fun s a => (wornUpdate { s with indexes := s.indexes.filter (fun x => x.id != par a.frame 0 4) }, okOut [] []) }

def vectorCtl (s : State) (b lo w : Nat) : Nat := bits (getBerth s b).regs.vectorControl.toNat lo w
def defaultBeam (s : State) (b : Nat) : Nat := vectorCtl s b 0 13
def deltaMax (s : State) (b : Nat) : Nat := vectorCtl s b 16 9
def foldDeleted (s : State) (b : Nat) : Nat := vectorCtl s b 25 7

def percent (a b : Nat) : Nat := if b = 0 then 0 else min 255 (100 * a / b)

def cmdIndexInfo : CmdSpec :=
  { opcode := 0x0402, cls := 0
    units := fun _ _ => vectorUnits
    check := fun _ f => firstSome [ rsv f 4 4, noTail f 8 ]
    objects := fun s f => indexIn s f [1, 2, 3]
    uses := fun _ f => { objs := [(kIndex, par f 0 4)] }
    work := fun s0 a =>
      let s := settleIndex (par a.frame 0 4) s0
      match indexNamed s a.frame with
      | none => (s, failOut (conflict kIndex (par a.frame 0 4) 0))
      | some x =>
        let pin := oldestPin s x
        (s, okOut (toLE 2 x.state.code ++ toLE 1 x.metric ++ toLE 1 x.codeBits ++ toLE 4 x.dim
          ++ toLE 4 (x.nodes.filter (fun n => n.state == .live)).length ++ toLE 4 (x.nodes.filter (fun n => n.state == .retired)).length
          ++ toLE 8 (x.items.filter (fun i => i.visible x.epoch)).length ++ toLE 8 x.epoch ++ toLE 8 pin ++ toLE 8 (x.slotsFree pin) ++ toLE 4 x.allocGib
          ++ toLE 1 (maxNat ((List.range 24).map (fun q => percent (berthTombs s x.berth q) (tombShare s x.berth))))
          ++ toLE 1 (maxNat ((List.range 24).map (fun q => percent (x.deltaPages q x.epoch) (deltaMax s x.berth)))) ++ zeros 2) []) }

/-! ### Item batches (R205, R209 to R214) -/

/-- PHASE 1 behind an earlier batch of the index. -/
def batchWait (s : State) (a : Active) : Nat :=
  if s.cmds.active.any (fun b => decide (b.id < a.id) && (b.opcode == 0x0403 || b.opcode == 0x0404) && b.objs.contains (kIndex, par a.frame 0 4)) then 1 else 3

/-- A new version of the index, journalled (R205). -/
def commitIndex (x : VIndex) (s : State) : State :=
  settleIndex x.id (modIndex x.id (fun _ => x) { s with media := { s.media with journal := s.media.journal + 1 } })

def insEncoded (f : Frame) : Bool := (par f 8 1).testBit 0
def insKeep (f : Frame) : Bool := (par f 8 1).testBit 1
def insFmt (f : Frame) : Nat := par f 9 1 % 16
def insItems (f : Frame) : DRef := parRef f 16
def insVectors (x : VIndex) (f : Frame) : Bool := !insEncoded f || x.rr

/-- Bytes of an item record (Table 8.10). -/
def itemLen (x : VIndex) (f : Frame) : Nat :=
  16 + (if insEncoded f then 8 * ceilDiv x.cb 8 else 0) + (if insVectors x f then 8 * ceilDiv (x.dim * fmtWidth (insFmt f)) 8 else 0)

/-- The code of each subspace: the nearest codeword, ties to the lower (R210). -/
def encodeVec (x : VIndex) (use i : Nat) (words : List (List Num)) (v : List Num) : List Nat :=
  (List.range x.subspaces).map (fun p =>
    let sub := (v.drop (p * x.sub)).take x.sub
    let d := (List.range x.c).map (fun j => (euclid use (sumNo 13 i (p * x.c + j)) sub (words.getD (p * x.c + j) []), j))
    (((sortBy candLe d).head?).map (fun y => y.2)).getD 0)

/-- Codes as they lie in a record (Table 8.5). -/
def readCodes (x : VIndex) (bs : Bytes) (o : Nat) : List Nat :=
  (List.range x.subspaces).map (fun k => if x.codeBits = 8 then getLE bs (o + k) 1 else bits (getLE bs (o + k / 2) 1) (4 * (k % 2)) 4)

/-- An item that a batch applies. -/
structure NewItem where
  key   : Nat
  attr  : Nat
  node  : Nat
  codes : List Nat
  vec   : Bytes
  deriving DecidableEq, Repr

/-- The node of a vector: what a walk finds; when the walk holds no destination, a LIVE node that the manual does not
name (free). -/
def homeNode (x : VIndex) (use i beam : Nat) (v : List Num) : Option Nat × Nat :=
  let w := chartWalk x use 14 i beam x.epoch v
  match w.1 with
  | d :: _ => (some d.2, w.2)
  | [] =>
    let live := x.nodes.filter (fun n => n.state == .live)
    ((live[Config.pick (use + i) % live.length]?).map (fun n => n.no), w.2)

/-- Item `i` of a batch: a refusal reason or the item, and the walk's evaluations. `seen` are the keys before it. -/
def readItem (x : VIndex) (f : Frame) (use beam i : Nat) (words : List (List Num)) (seen : List Nat) (r : Bytes) : (Nat ⊕ NewItem) × Nat :=
  let key := getLE r 0 8
  let enc := insEncoded f
  let o := 16 + (if enc then 8 * ceilDiv x.cb 8 else 0)
  let hasVec := insVectors x f
  let raw := if hasVec then readElems (insFmt f) r o x.dim else []
  let node := getLE r 12 4
  let old := x.items.any (fun y => y.key.toNat == key && y.visible x.epoch)
  let nodeOk := ((x.nodeOf node).map (fun y => y.state == .live && decide (y.liveFrom ≤ x.epoch))).getD false
  let no := sumNo 15 i 0
  let reason :=
    if seen.contains key then 1 else if insKeep f && old then 2 else if !raw.all Num.isFin then 3 else if enc && !nodeOk then 4
    else if x.metric == 2 && hasVec && (normOf use no raw).isZero then 5 else if key = padKey then 6 else 0
  if reason ≠ 0 then (.inl reason, 0)
  else
    let v := if x.metric = 2 then unitVec use no raw else raw
    let stored := if x.rr then elemBytes x.rrFmt (v.map (fun a => (convertOut x.rrFmt a).v)) else []
    if enc then (.inr { key := key, attr := getLE r 8 4, node := node, codes := readCodes x r 16, vec := stored }, 0)
    else
      let h := homeNode x use i beam v
      match h.1 with
      | none => (.inl 4, h.2)
      | some n => (.inr { key := key, attr := getLE r 8 4, node := n, codes := encodeVec x use i words v, vec := stored }, h.2)

/-- What a batch comes to: items to apply, refusals (position, reason), evaluations. -/
structure Batch where
  items   : List NewItem := []
  refused : List (Nat × Nat) := []
  evals   : Nat := 0

def readBatch (x : VIndex) (f : Frame) (use beam len : Nat) (words : List (List Num)) (bs : Bytes) : List Nat → List Nat → Batch → Batch
  | [], _, b => b
  | i :: l, seen, b =>
    let r := slice bs (i * len) len
    let z := readItem x f use beam i words seen r
    let b1 : Batch := match z.1 with
      | .inl why => { b with refused := b.refused ++ [(i, why)], evals := b.evals + z.2 }
      | .inr n => { b with items := b.items ++ [n], evals := b.evals + z.2 }
    readBatch x f use beam len words bs l (getLE r 0 8 :: seen) b1

def insBatch (s : State) (a : Active) (x : VIndex) : Batch :=
  let f := a.frame
  readBatch x f s.fresh (a.snap.getD 0 128) (itemLen x f) x.words (refData s a 0 (insItems f)) (List.range (par f 4 4)) [] {}

/-- New records per quay. -/
def newOn (x : VIndex) (b : Batch) (q : Nat) : Nat := (b.items.filter (fun n => x.homeOf n.node == q)).length

/-- A quay whose delta segment has no room for the batch's pages (R214, log entry 64). -/
def deltaFull (x : VIndex) (dmax : Nat) (b : Batch) : Bool :=
  (List.range 24).any (fun q =>
    let n := newOn x b q
    let have1 := x.deltaPages q x.epoch
    n != 0 && have1 != 0 && decide (dmax < have1 + ceilDiv n x.nr))

/-- The visible items whose keys are listed. -/
def itemsOfKeys (x : VIndex) (keys : List Nat) : List Item := x.items.filter (fun i => i.visible x.epoch && keys.contains i.key.toNat)

/-- The list of the berth's indexes on the quay that carries the most tombstones a fold would clear. -/
def worstList (s : State) (b q : Nat) : Option (Nat × Nat) :=
  let l := (s.indexes.filter (fun x => x.berth == b)).flatMap (fun x =>
    (x.nodes.filter (fun n => n.home == q)).map (fun n => (((x.listAt n.no x.epoch).filter (fun i => i.removed.isSome)).length, x.id, n.no)))
  ((l.filter (fun p => p.1 != 0)).foldl (fun acc p =>
    match acc with
    | none => some p
    | some y => if y.1 < p.1 then some p else some y) none).map (fun p => p.2)

def foldList (id n : Nat) (s : State) : State :=
  match getIndex s id with
  | none => s
  | some x => commitIndex (x.fold n) s

/-- Folds until the berth's share on the quay has room for `n` tombstones or no fold helps (R213). None runs in
BRACED. -/
def makeTombRoom (b q n : Nat) : Nat → State → State
  | 0, s => s
  | k + 1, s =>
    if berthTombs s b q + n ≤ tombShare s b ∨ s.dev.state = .braced then s
    else
      match worstList s b q with
      | none => s
      | some (id, node) => makeTombRoom b q n k (foldList id node s)

/-- Makes room on every quay for the tombstones of these items; NO_RESOURCE when some quay still lacks it. -/
def tombRoom (b : Nat) (perQuay : List Nat) (s : State) : State × Option Refuse :=
  let fuel := sumNat (s.indexes.map (fun x => x.nodes.length)) + 1
  let s1 := perQuay.zipIdx.foldl (fun st p => if p.1 = 0 then st else makeTombRoom b p.2 p.1 fuel st) s
  (s1, perQuay.zipIdx.findSome? (fun p =>
    let used := berthTombs s1 b p.2
    need (p.1 == 0 || decide (used + p.1 ≤ tombShare s1 b)) (noResource 0x0402 (tombShare s1 b - used) p.1)))

def tombsNeeded (x : VIndex) (l : List Item) : List Nat :=
  (List.range 24).map (fun q => (l.filter (fun i => x.homeOf (i.placeAt x.epoch) == q)).length)

/-- MEDIA_UE for work that needs a lost quay (R145, R225). -/
def lostQuay (s : State) (x : VIndex) (q logical : Nat) : Option Refuse :=
  need (!quayLost s q) (stMediaUe, .media x.id 3 q (BitVec.ofNat 64 logical) (BitVec.ofNat 64 q))

/-- Adds items at epoch `e`, each in the lowest free slot, whose generation rises when it is used again (R199, R213). -/
def addItems (e : Nat) : List NewItem → VIndex → VIndex
  | [], x => x
  | n :: l, x =>
    let used := x.items.map (fun i => i.slot)
    let sl := lowestFree used used.length 0
    let gen : BitVec 12 := match x.slotGens.find? (fun g => g.1 == sl) with
      | some g => g.2 + 1
      | none => 0
    let it : Item := { key := BitVec.ofNat 64 n.key, slot := sl, gen := gen, attr := BitVec.ofNat 32 n.attr, codes := n.codes, vec := n.vec, inserted := e,
                       places := [(e, n.node)] }
    addItems e l { x with items := x.items ++ [it], slotGens := (sl, gen) :: x.slotGens.filter (fun g => g.1 != sl) }

/-- Ends items at epoch `e`. -/
def removeItems (x : VIndex) (e : Nat) (l : List Item) : VIndex :=
  { x with items := x.items.map (fun i => if i.removed.isNone && l.any (fun j => j.slot == i.slot && j.gen == i.gen) then { i with removed := some e } else i) }

def refusalBytes (l : List (Nat × Nat)) : Bytes := l.flatMap (fun r => toLE 4 r.1 ++ toLE 2 r.2 ++ zeros 2)

def countEvals (b n : Nat) (s : State) : State := modBerthStats b (fun x => { x with chartEvals := satAdd 64 x.chartEvals n }) s

def insertWork (s0 : State) (a : Active) : State × WorkOut :=
  let s := settleIndex (par a.frame 0 4) s0
  match indexNamed s a.frame with
  | none => (s, failOut (conflict kIndex (par a.frame 0 4) 0))
  | some x =>
    let bt := insBatch s a x
    let s1 := countEvals x.berth bt.evals (useFresh s)
    let olds := itemsOfKeys x (bt.items.map (fun n => n.key))
    let body (e : Nat) : Bytes := toLE 8 e ++ toLE 4 bt.items.length ++ toLE 4 olds.length ++ toLE 4 bt.refused.length ++ zeros 4 ++ refusalBytes bt.refused
    if bt.items.isEmpty then (s1, okOut [] (body x.epoch))
    else
      let pin := oldestPin s x
      match firstSome
        [ need (decide (bt.items.length ≤ x.slotsFree pin)) (noResource 0x0401 (x.slotsFree pin) bt.items.length),
          need (!deltaFull x (a.snap.getD 1 64) bt) (stBraced, .none),
          (List.range 24).findSome? (fun q => if newOn x bt q = 0 && (tombsNeeded x olds).getD q 0 = 0 then none else lostQuay s x q 0xFFFFFFFF) ] with
      | some r => (s1, failOut r)
      | none =>
        let tr := tombRoom x.berth (tombsNeeded x olds) s1
        match tr.2, getIndex tr.1 x.id with
        | some r, _ => (tr.1, failOut r)
        | none, none => (tr.1, failOut (conflict kIndex x.id 0))
        | none, some y =>
          let e := y.epoch + 1
          (commitIndex (addItems e bt.items { removeItems y e olds with epoch := e }) tr.1, okOut [] (body e))

def cmdIndexInsert : CmdSpec :=
  { opcode := 0x0403, cls := 1, result := true
    units := fun _ _ => vectorUnits
    check := fun s f => firstSome
      [ inRange f 4 4 1 1048576, rsvBits f 8 1 2 6, rsvBits f 9 1 4 4,
        (match indexNamed s f with
         | none => none
         | some x => if insVectors x f then need (insFmt f == 0xC || insFmt f == 0xD) (badField 9 0 4 0xC 0xD) else bitsIn f 9 1 0 4 0 0),
        rsv f 10 6, parRefCheck s f 16 [1, 2, 3],
        (match indexNamed s f with
         | none => none
         | some x => refLength 16 (insItems f) (par f 4 4 * itemLen x f)), noTail f 48 ]
    objects := fun s f => firstSome [ indexIn s f [1, 2], indexWritable s f, refRts s f (insItems f) ]
    needs := fun s f => (indexNamed s f).bind (fun x =>
      let n := x.slotsFree (oldestPin s x)
      need (decide (par f 4 4 ≤ n)) (noResource 0x0401 n (par f 4 4)))
    size := fun _ f => 24 + 8 * par f 4 4
    uses := fun s f => { objs := [(kIndex, par f 0 4)], refs := [insItems f], sources := [insItems f], fetch := if (insItems f).kind == 3 then [(0, insItems f)] else []
                         snap := [defaultBeam s f.berth, deltaMax s f.berth] }
    wait := batchWait
    depth := fun _ _ => 1
    slow := fun _ _ => true
    done := fun s a =>
      match indexNamed s a.frame with
      | none => true
      | some x => s.dev.state == .braced || !deltaFull x (a.snap.getD 1 64) (insBatch s a x)
    work := insertWork }

def remKeys (f : Frame) : DRef := parRef f 16

def removeWork (s0 : State) (a : Active) : State × WorkOut :=
  let s := settleIndex (par a.frame 0 4) s0
  match indexNamed s a.frame with
  | none => (s, failOut (conflict kIndex (par a.frame 0 4) 0))
  | some x =>
    let n := par a.frame 4 4
    let bs := refData s a 0 (remKeys a.frame)
    let keys := (List.range n).map (fun i => getLE bs (8 * i) 8)
    let gone := itemsOfKeys x keys
    let body (e : Nat) : Bytes := toLE 8 e ++ toLE 4 gone.length ++ toLE 4 (n - gone.length)
    if gone.isEmpty then (s, okOut [] (body x.epoch))
    else
      let need1 := tombsNeeded x gone
      match (List.range 24).findSome? (fun q => if need1.getD q 0 = 0 then none else lostQuay s x q 0xFFFFFFFF) with
      | some r => (s, failOut r)
      | none =>
        let tr := tombRoom x.berth need1 s
        match tr.2, getIndex tr.1 x.id with
        | some r, _ => (tr.1, failOut r)
        | none, none => (tr.1, failOut (conflict kIndex x.id 0))
        | none, some y =>
          let e := y.epoch + 1
          (commitIndex { removeItems y e gone with epoch := e } tr.1, okOut [] (body e))

def cmdIndexRemove : CmdSpec :=
  { opcode := 0x0404, cls := 1, result := true
    units := fun _ _ => vectorUnits
    check := fun s f => firstSome
      [ inRange f 4 4 1 1048576, rsv f 8 8, parRefCheck s f 16 [1, 2, 3], refLength 16 (remKeys f) (8 * par f 4 4), noTail f 48 ]
    objects := fun s f => firstSome [ indexIn s f [1, 2], indexWritable s f, refRts s f (remKeys f) ]
    size := fun _ _ => 16
    uses := fun _ f => { objs := [(kIndex, par f 0 4)], refs := [remKeys f], sources := [remKeys f], fetch := if (remKeys f).kind == 3 then [(0, remKeys f)] else [] }
    wait := batchWait
    depth := fun _ _ => 1
    slow := fun _ _ => true
    work := removeWork }

/-! ### INDEX_SEARCH (R215 to R226, R233) -/

def seaQueries (f : Frame) : Nat := par f 4 4
def seaK (f : Frame) : Nat := par f 8 2
def seaOver (f : Frame) : Nat := par f 10 1
def seaFmt (f : Frame) : Nat := par f 11 1
def seaProbe (f : Frame) : Nat := par f 12 2
def seaRerank (f : Frame) : Nat := par f 16 2
def seaQuery (f : Frame) : DRef := parRef f 32
def seaOutput (f : Frame) : DRef := parRef f 64

/-- Bytes of one distance table. -/
def VIndex.tableBytes (x : VIndex) : Nat := x.subspaces * x.c * 2

/-- W of R215. -/
def searchSram (s : State) (f : Frame) (x : VIndex) : Nat :=
  seaQueries f * (4 * x.dim + (if s.fixed.variant = .V then 0 else x.tableBytes) + 16 * seaK f * seaOver f)

/-- FILTER (Table 8.13). -/
def passes (f : Frame) (attr : Nat) : Bool :=
  let m := attr &&& par f 20 4
  match par f 18 1 with
  | 0 => true
  | 1 => m == par f 24 4
  | 2 => m != 0
  | _ => m == 0

/-- What one query comes to. `pages` are the re-rank pages of its candidates. -/
structure QueryOut where
  best     : List Ent := []
  excluded : Nat := 0
  reranked : Nat := 0
  nan      : Nat := 0
  bad      : Bool := false
  probes   : List Nat := []
  evals    : Nat := 0
  pages    : List Nat := []

/-- A candidate with its exact rank key and its re-rank page. -/
def rerankOne (x : VIndex) (use qi : Nat) (q : List Num) (e : Ent) : Ent × Nat :=
  match x.items.find? (fun i => i.slotGen == e.slot) with
  | none => (e, 0)
  | some i => ({ e with rank := exactKey x.metric use (sumNo 17 qi i.slotGen) q (readElems x.rrFmt i.vec 0 x.dim) }, i.slot / x.rp)

/-- Steps 1 to 8 of R216 for query `qi`. -/
def searchQuery (x : VIndex) (f : Frame) (use beam e qi : Nat) (words : List (List Num)) (norms q : List Num) : QueryOut :=
  if !q.all Num.isFin || (x.metric == 2 && (normOf use (sumNo 18 qi 0) q).isZero) then { bad := true }
  else
    let eq := exactQuery x.metric use (sumNo 18 qi 0) q
    let w := chartWalk x use 19 qi beam e eq
    let probes := (w.1.take (seaProbe f)).map (fun p => p.2)
    let tab := x.distTab use qi words norms q
    let kf := seaK f * seaOver f
    let ents := (x.items.filter (fun i => i.visible e && probes.contains (i.placeAt e))).map (fun i =>
      ({ key := i.key.toNat, rank := approxKey x use qi tab i, attr := i.attr.toNat, slot := i.slotGen } : Ent))
    let merged := bestK kf ents
    let surv := merged.filter (fun n => passes f n.attr)
    let out : QueryOut := { excluded := merged.length - surv.length, nan := nanEntries ents, probes := probes, evals := w.2 }
    if seaRerank f = 0 then { out with best := surv.take (seaK f) }
    else
      let cand := (surv.take (seaRerank f)).map (rerankOne x use qi eq)
      let es := cand.map (fun c => c.1)
      { out with best := bestK (seaK f) es, reranked := cand.length, nan := out.nan + nanEntries es, pages := cand.map (fun c => c.2) }

/-- Per quay: list pages read, pairs of probe and page scored, D_q, lookups, and link bytes out and in. -/
structure QuayLoad where
  reads  : Nat := 0
  scores : Nat := 0
  d      : Nat := 0
  look   : Nat := 0
  lout   : Nat := 0
  lin    : Nat := 0

/-- Probes of one search that a quay holds at once (R219, R299). -/
def probesHeld (s : State) (b fb : Nat) : Nat :=
  max 1 (min (min 1024 (16777216 / fb)) (min (scanUnits s b * 16) (scanUnits s b * 262144 / fb)))

/-- The load of quay `q` (R219 to R222, R233, log entry 63). -/
def quayLoad (s : State) (x : VIndex) (f : Frame) (e q : Nat) (outs : List QueryOut) : QuayLoad :=
  let kf := seaK f * seaOver f
  let fb := x.tableBytes + 24 * kf
  let probes := (outs.map (fun o => o.probes)).flatten.filter (fun n => x.homeOf n == q)
  let delta := x.deltaPages q e
  let perNode := probes.eraseDups.map (fun n =>
    let np := (probes.filter (fun m => m == n)).length
    let code := x.codePages n e
    (code, ceilDiv np (probesHeld s x.berth fb) * (code + delta), np * (code + delta), np * (x.listAt n e).length * x.subspaces))
  let onQ (u : Nat) : Bool := (u + x.id) % 24 == q
  let cands := (outs.map (fun o => o.pages)).flatten.filter onQ
  let rrPages := cands.eraseDups.length
  let qs := (outs.filter (fun o => o.pages.any onQ)).length
  let t := if unitBit s 23 then x.tableBytes else 4 * x.dim
  { reads := sumNat (perNode.map (fun p => p.2.1)) + rrPages, scores := sumNat (perNode.map (fun p => p.2.2.1))
    d := (sumNat (perNode.map (fun p => p.1)) + (if probes.isEmpty then 0 else delta) + rrPages) * 98304
    look := sumNat (perNode.map (fun p => p.2.2.2)), lout := probes.length * t + qs * 4 * x.dim + cands.length * 16
    lin := probes.length * 24 * kf + cands.length * 16 }

/-- ⌊1,000 × max(T_s, T_t) ÷ T_d⌋; a quay that reads nothing has none. -/
def QuayLoad.pace (l : QuayLoad) : Nat := if l.d = 0 then 0 else max (l.look * 75 / l.d) (max l.lout l.lin * 1200 / l.d)

/-- The first probed list or re-rank page that lies on a lost quay. -/
def searchLost (s : State) (x : VIndex) (outs : List QueryOut) : Option Refuse :=
  firstSome
    [ (outs.map (fun o => o.probes)).flatten.findSome? (fun n => lostQuay s x (x.homeOf n) n),
      (outs.map (fun o => o.pages)).flatten.findSome? (fun u => lostQuay s x ((u + x.id) % 24) (2 ^ 63 + u)) ]

def queryBlock (k : Nat) (o : QueryOut) : Bytes :=
  toLE 2 o.best.length ++ toLE 2 (if o.best.length < k then stOkShort else stOk) ++ toLE 4 (clampTo 32 o.excluded) ++ toLE 4 o.reranked ++ zeros 4
    ++ entryBlock k o.best

def searchWork (s0 : State) (a : Active) : State × WorkOut :=
  let s := settleIndex (par a.frame 0 4) s0
  let f := a.frame
  match indexNamed s f with
  | none => (s, failOut (conflict kIndex (par f 0 4) 0))
  | some x =>
    let use := s.fresh
    let words := x.words
    let norms := wordNorms use words
    let data := refData s a 0 (seaQuery f)
    let len := x.dim * fmtWidth (seaFmt f)
    let nq := seaQueries f
    let k := seaK f
    let outs := (List.range nq).map (fun i => searchQuery x f use (a.snap.getD 0 128) a.pin i words norms (readElems (seaFmt f) data (i * len) x.dim))
    let s1 := useFresh s
    match searchLost s x outs with
    | some r => (s1, failOut r)
    | none =>
      let loads := (List.range 24).map (fun q => quayLoad s x f a.pin q outs)
      let reads := sumNat (loads.map (fun l => l.reads))
      let evals := sumNat (outs.map (fun o => o.evals))
      let nan := sumNat (outs.map (fun o => o.nan))
      let bad := (outs.filter (fun o => o.bad)).length
      let short := (outs.filter (fun o => decide (o.best.length < k))).length
      let head := toLE 4 nq ++ toLE 2 k ++ zeros 2 ++ toLE 8 a.pin ++ toLE 8 (s.now - a.acceptedLocal) ++ toLE 8 (maxNat (loads.map (fun l => ceilDiv (l.d * 10) 1536)))
        ++ toLE 8 reads ++ toLE 8 (sumNat (loads.map (fun l => l.scores))) ++ toLE 4 (clampTo 32 nan) ++ toLE 4 bad ++ toLE 4 short
        ++ toLE 4 (clampTo 32 (maxNat (loads.map QuayLoad.pace)))
      let body := head ++ outs.flatMap (queryBlock k)
      let s2 := modBerthStats x.berth (fun b => { b with
        queries := satAdd 64 b.queries nq, pagesRead := satAdd 64 b.pagesRead reads, chartEvals := satAdd 64 b.chartEvals evals,
        badQueries := satAdd 32 b.badQueries bad, nanScores := satAdd 32 b.nanScores nan }) s1
      let s3 := if unitBit s 23 && nq != 0 then countCrane (bits s.dev.units.toNat 0 8) nq x.sub (x.subspaces * x.c) (some { est := 0, bytes := 0, shape := 1, mode := 1 }) s2 else s2
      let out := seaOutput f
      let s4 := if out.kind = 0 then s3 else putRef f.berth out body s3
      let pl := if out.kind = 0 then body else head
      if short = 0 then (s4, okOut [] pl)
      else
        let det : Detail := .short (clampTo 32 (sumNat (outs.map (fun o => o.best.length)))) (clampTo 32 (nq * k)) (clampTo 64 (sumNat (outs.map (fun o => o.excluded)) + nan))
        (s4, { status := stOkShort, detail := det, payload := pl })

def cmdIndexSearch : CmdSpec :=
  { opcode := 0x0405, cls := 1, result := true
    units := fun _ _ => vectorUnits
    check := fun s f =>
      let k := seaK f
      firstSome
        [ inRange f 4 4 0 65536, inRange f 8 2 1 1024, inRange f 10 1 1 16, rsvBits f 11 1 4 4,
          need (seaFmt f == 0xC || seaFmt f == 0xD) (badField 11 0 4 0xC 0xD), inRange f 12 2 1 1024,
          need (par f 14 2 == 0 || decide (seaProbe f ≤ par f 14 2 ∧ par f 14 2 ≤ 4096)) (badBytes 14 2 (seaProbe f) 4096),
          (match indexNamed s f with
           | some x => if x.rr then none else inRange f 16 2 0 0
           | none => none),
          need (seaRerank f == 0 || decide (k ≤ seaRerank f ∧ seaRerank f ≤ k * seaOver f)) (badBytes 16 2 k (k * seaOver f)),
          inRange f 18 1 0 3, rsv f 19 1, (if par f 18 1 = 0 then inRange f 20 4 0 0 else none),
          (if par f 18 1 = 1 then need (par f 24 4 &&& par f 20 4 == par f 24 4) (badBytes 24 4 0 (par f 20 4)) else inRange f 24 4 0 0), rsv f 28 4,
          parRefCheck s f 32 (if seaQueries f = 0 then [0, 1, 2, 3] else [1, 2, 3]),
          (match indexNamed s f with
           | some x => refLength 32 (seaQuery f) (seaQueries f * x.dim * fmtWidth (seaFmt f))
           | none => none),
          parRefCheck s f 64 [0, 2, 3],
          (if (seaOutput f).kind = 0 then none else refLength 64 (seaOutput f) (64 + seaQueries f * (16 + 16 * k))), noTail f 96 ]
    objects := fun s f => firstSome [ indexIn s f [1, 2], refRts s f (seaQuery f), refRts s f (seaOutput f) ]
    needs := fun s f => (indexNamed s f).bind (fun x =>
      let w := searchSram s f x
      let free := sramFree s f.berth - (96 + if (seaOutput f).kind = 0 then seaQueries f * (16 + 16 * seaK f) else 0)
      firstSome [ need (decide (w ≤ free)) (noResource 0x0403 free w), scanFits s f.berth (x.tableBytes + 24 * seaK f * seaOver f) ])
    size := fun _ f => 64 + (if (seaOutput f).kind = 0 then seaQueries f * (16 + 16 * seaK f) else 0)
    uses := fun s f =>
      { objs := [(kIndex, par f 0 4)], refs := [seaQuery f, seaOutput f], sources := [seaQuery f], fetch := if (seaQuery f).kind == 3 then [(0, seaQuery f)] else []
        reserved := ((indexNamed s f).map (searchSram s f)).getD 0
        snap := [if par f 14 2 = 0 then defaultBeam s f.berth else par f 14 2], pin := ((indexNamed s f).map (fun x => x.epoch)).getD 0 }
    depth := fun _ _ => 0
    slow := fun _ _ => true
    work := searchWork }

/-! ### Folds and INDEX_REBALANCE (R227 to R232) -/

/-- The lists of an index on a quay that R227 or R214 folds now. -/
def foldsDue (s : State) (x : VIndex) (q : Nat) : List Nat :=
  let b := x.berth
  let lists := (x.nodes.filter (fun n => n.home == q && x.foldable n.no)).map (fun n => n.no)
  let waits := s.cmds.active.any (fun a => a.opcode == 0x0403 && a.phase == 3 && a.awaiting.isEmpty && a.objs.contains (kIndex, x.id)
    && deltaFull x (a.snap.getD 1 64) (insBatch s a x))
  let delta := waits || decide (75 * deltaMax s b ≤ 100 * x.deltaPages q x.epoch)
  let tomb := decide (0 < tombShare s b ∧ 75 * tombShare s b ≤ 100 * berthTombs s b q)
  lists.filter (fun n =>
    let l := x.listAt n x.epoch
    let chain := l.filter (fun i => !i.inDelta x.epoch)
    let gone := (chain.filter (fun i => i.removed.isSome)).length
    let dead := (l.filter (fun i => i.removed.isSome)).length
    (delta && l.any (fun i => i.inDelta x.epoch)) || (tomb && dead != 0) || (gone != 0 && decide (foldDeleted s b * chain.length ≤ 100 * gone)))

/-- INDEX_FOLD: the module folds the lists of a quay; in READY, and in DRAINING, where accepted batches may wait for it (R17, R214);
in P0 and P1, and outside QUIET windows (R59, R227, R315). -/
def execIndexFold (t index quay : Nat) (s0 : State) : Host.Outcome State Fault Refusal :=
  let s := setNow t s0
  if !alive s then .next s else
  match getIndex s index with
  | none => .next s
  | some x =>
    if (s.dev.state ≠ .ready ∧ s.dev.state ≠ .draining) ∨ 1 < s.power.current ∨ x.state = .offline ∨ quayLost s quay ∨ quietOn s quay then .next s
    else .next ((foldsDue s x quay).foldl (fun st n => foldList index n st) s)

/-- The progress of a rebalance, kept in the command's captured numbers: first and last epoch, folds, merges, splits,
splits skipped, moves, edges rewritten, nodes freed, and the stage. -/
structure Rebal where
  first   : Nat := 0
  last    : Nat := 0
  folds   : Nat := 0
  merges  : Nat := 0
  splits  : Nat := 0
  skipped : Nat := 0
  moves   : Nat := 0
  edges   : Nat := 0
  freed   : Nat := 0
  stage   : Nat := 0
  deriving DecidableEq, Repr

def Rebal.toList (r : Rebal) : List Nat := [r.first, r.last, r.folds, r.merges, r.splits, r.skipped, r.moves, r.edges, r.freed, r.stage]

def Rebal.ofList (l : List Nat) : Rebal :=
  { first := l.getD 0 0, last := l.getD 1 0, folds := l.getD 2 0, merges := l.getD 3 0, splits := l.getD 4 0, skipped := l.getD 5 0, moves := l.getD 6 0,
    edges := l.getD 7 0, freed := l.getD 8 0, stage := l.getD 9 0 }

def Rebal.changes (r : Rebal) : Nat := r.merges + r.splits + r.moves

/-- An epoch that the command committed. -/
def Rebal.epoch (r : Rebal) (e : Nat) : Rebal := { r with first := (if r.first = 0 then e else r.first), last := e }

/-- Node numbers with their visible items, from the smallest list. -/
def bySize (x : VIndex) : List (Nat × Node) :=
  sortBy (fun a b => decide (a.1 < b.1) || (a.1 == b.1 && decide (a.2.no ≤ b.2.no)))
    ((x.nodes.filter (fun n => n.state == .live)).map (fun n => ((x.visibleIn n.no).length, n)))

/-- The largest list, ties to the lower node number. -/
def largestOf (l : List (Nat × Node)) : Option (Nat × Node) :=
  l.foldl (fun acc p => match acc with
    | none => some p
    | some y => if y.1 < p.1 then some p else some y) none

/-- Pages of an index on a quay. -/
def pagesOn (x : VIndex) (q : Nat) : Nat :=
  sumNat ((x.nodes.filter (fun n => n.home == q)).map (fun n => x.codePages n.no x.epoch)) + x.deltaPages q x.epoch

/-- The move that R231 asks for now: the largest list of the fullest quay, and the emptiest quay. -/
def moveDue (x : VIndex) (pct : Nat) : Option (Nat × Nat) :=
  let l := (List.range 24).map (fun q => (pagesOn x q, q))
  let hi := l.foldl (fun a p => if a.1 < p.1 then p else a) (0, 0)
  let lo := l.foldl (fun a p => if p.1 < a.1 then p else a) hi
  if pct * lo.1 < 100 * (hi.1 - lo.1) then
    (largestOf ((bySize x).filter (fun p => p.2.home == hi.2))).map (fun p => (p.2.no, lo.2))
  else none

/-- One step of a rebalance that is due in the present stage: the index after it, the progress, and the evaluations of
its walks; none when the stage has nothing more to do. -/
def rebalStep (x : VIndex) (f : Frame) (use : Nat) (r : Rebal) : Option (VIndex × Rebal × Nat) :=
  let op (i : Nat) : Bool := (par f 4 1).testBit i
  let room := decide (r.changes < par f 16 4)
  match r.stage with
  | 0 =>
    if op 0 then ((x.nodes.find? (fun n => x.foldable n.no)).map (fun n => let y := x.fold n.no; (y, { (r.epoch y.epoch) with folds := r.folds + 1 }, 0))) else none
  | 1 =>
    if op 1 && room then
      ((bySize x).head?).bind (fun p =>
        if p.1 < par f 12 4 then
          (nearestLive x use p.2).map (fun t => let y := x.merge p.2.no t; (y, { (r.epoch y.epoch) with merges := r.merges + 1 }, 0))
        else none)
    else none
  | 2 =>
    if op 2 && room then
      (largestOf (bySize x)).bind (fun p =>
        if par f 8 4 < p.1 then
          x.freeNode.map (fun n => let y := x.split use p.2 n; (y.1, { (r.epoch y.1.epoch) with splits := r.splits + 1, edges := r.edges + y.2.1 }, y.2.2))
        else none)
    else none
  | 3 =>
    if op 3 && room then
      (moveDue x (par f 5 1)).map (fun m => let y := x.moveList m.1 m.2; (y, { (r.epoch y.epoch) with moves := r.moves + 1 }, 0))
    else none
  | _ => none

/-- Leaves a stage: a split stage that ends for want of a FREE node counts the lists it skips. -/
def nextStage (x : VIndex) (f : Frame) (r : Rebal) : Rebal :=
  let skip := if r.stage = 2 && (par f 4 1).testBit 2 && decide (r.changes < par f 16 4) && x.freeNode.isNone
    then ((bySize x).filter (fun p => decide (par f 8 4 < p.1))).length else 0
  { r with stage := r.stage + 1, skipped := r.skipped + skip }

/-- The next step in stages 0 to 3, through stages that have nothing to do. -/
def findStep (x : VIndex) (f : Frame) (use : Nat) : Nat → Rebal → Option (VIndex × Rebal × Nat) × Rebal
  | 0, r => (none, r)
  | k + 1, r =>
    if 4 ≤ r.stage then (none, r)
    else
      match rebalStep x f use r with
      | some z => (some z, r)
      | none => findStep x f use k (nextStage x f r)

def retiredCount (x : VIndex) : Nat := (x.nodes.filter (fun n => n.state == .retired)).length

/-- One commit of a running rebalance, when one is due; none starts in BRACED (R228). -/
def rebalCommit (s : State) (a : Active) : Option State :=
  match indexNamed s a.frame with
  | none => none
  | some x =>
    match findStep x a.frame s.fresh 5 (Rebal.ofList a.snap) with
    | (some (y, r, ev), _) =>
      let s1 := countEvals x.berth ev (commitIndex y (useFresh s))
      let freed := retiredCount y - (((getIndex s1 y.id).map retiredCount).getD 0)
      some (modActive a.id (fun b => { b with snap := ({ r with freed := r.freed + freed } : Rebal).toList }) s1)
    | (none, _) => none

/-- The repair and the result body. -/
def rebalFinish (s : State) (a : Active) : State × WorkOut :=
  match indexNamed s a.frame with
  | none => (s, failOut (conflict kIndex (par a.frame 0 4) 0))
  | some x =>
    let r := (findStep x a.frame s.fresh 5 (Rebal.ofList a.snap)).2
    let rep := if (par a.frame 4 1).testBit 4 then x.repair s.fresh else (x, 0, 0)
    let y := rep.1.settled (oldestPin s x)
    let s1 := countEvals x.berth rep.2.2 (modIndex x.id (fun _ => y) (useFresh s))
    let freed := r.freed + (retiredCount rep.1 - retiredCount y)
    let fe := if r.first = 0 then x.epoch else r.first
    let le := if r.first = 0 then x.epoch else r.last
    (s1, okOut [] (toLE 8 fe ++ toLE 8 le ++ toLE 4 r.folds ++ toLE 4 r.merges ++ toLE 4 r.splits ++ toLE 4 r.skipped ++ toLE 4 r.moves
      ++ toLE 4 (r.edges + rep.2.1) ++ toLE 4 freed ++ zeros 4))

def cmdIndexRebalance : CmdSpec :=
  { opcode := 0x0406, cls := 1, result := true
    units := fun _ _ => vectorUnits
    check := fun _ f =>
      let op (i : Nat) : Bool := (par f 4 1).testBit i
      firstSome
        [ rsvBits f 4 1 5 3, bitsIn f 4 1 0 5 1 31, (if op 3 then inRange f 5 1 5 100 else inRange f 5 1 0 0), rsv f 6 2,
          (if op 2 then inRange f 8 4 1024 (2 ^ 32 - 1) else inRange f 8 4 0 0),
          (if op 1 then (if op 2 then need (decide (4 * par f 12 4 < par f 8 4)) (badBytes 12 4 0 ((par f 8 4 - 1) / 4)) else none) else inRange f 12 4 0 0),
          inRange f 16 4 1 1048576, rsv f 20 4, noTail f 24 ]
    objects := fun s f => firstSome [ indexIn s f [1, 2], indexWritable s f ]
    size := fun _ _ => 48
    uses := fun _ f => { objs := [(kIndex, par f 0 4)], snap := [0, 0, 0, 0, 0, 0, 0, 0, 0, 0] }
    depth := fun _ _ => 1
    slow := fun _ _ => true
    step := rebalCommit
    done := fun s _ => s.dev.state != .braced
    work := rebalFinish }

end Sys2Proof.Machine
end

