-- ==== Sys2Proof/Machine/LogbookCore.lean ====
section
/-! DEFINITION. The logbook flash (chapter 15): regions and KINDs, bad sectors and spares, the operations on its banks, and the
commands of group 0x0A (R380 to R400). -/

namespace Sys2Proof.Machine

/-! ### Geometry and regions (Tables 15.1 and 15.3) -/

def logSectors : Nat := 3968
def logWords : Nat := 3968 * 512
def bankOf (sector : Nat) : Nat := sector / 992
def userFirst : Nat := 2944
def groupOf (sector : Nat) : Nat := (sector - 2944) / 128

/-- A region record: first sector, count, KIND. Copy B lies 992 sectors up. -/
def logRegions : List (Nat × Nat × Nat) :=
  let a : List (Nat × Nat × Nat) := [(0, 1, 2), (1, 3, 3), (4, 64, 3), (68, 128, 3), (196, 128, 3), (324, 8, 3), (332, 128, 4), (460, 532, 3)]
  a ++ a.map (fun r => (r.1 + 992, r.2.1, r.2.2)) ++ [(1984, 256, 3), (2240, 704, 3), (2944, 1024, 1)]

/-- USER_WP of a group. -/
def groupWp (s : State) (g : Nat) : Bool := s.regs.userWp.toNat.testBit g

/-- KIND of a logical sector (R383). -/
def sectorKind (s : State) (l : Nat) : Nat :=
  if 2944 ≤ l then (if groupWp s (groupOf l) then 2 else 1)
  else ((logRegions.find? (fun r => decide (r.1 ≤ l ∧ l < r.1 + r.2.1))).map (fun r => r.2.2)).getD 3

/-! ### Bad sectors and spares (R389, R390) -/

/-- The physical sector of a logical one. -/
def physOf (s : State) (l : Nat) : Nat :=
  ((s.logbook.mapped.find? (fun m => m.1 == l)).map (fun m => m.2)).getD (bankOf l * 1024 + (l - bankOf l * 992))

def isBadSector (s : State) (p : Nat) : Bool := s.logbook.bad.any (fun b => b.phys == p)

/-- Free spare sectors of a bank. -/
def freeLogSpares (s : State) (k : Nat) : List Nat :=
  ((List.range 32).map (fun i => k * 1024 + 992 + i)).filter (fun p => !isBadSector s p && !s.logbook.mapped.any (fun m => m.2 == p))

/-- Growth-table entries of a bank: at most 24. -/
def grownIn (s : State) (k : Nat) : Nat := (s.logbook.bad.filter (fun b => b.cause != 0 && b.phys / 1024 == k)).length

/-- A failed sector's retirement to a free spare of its bank; none when the bank has no spare (or no growth entry) left. -/
def retireSector (l cause : Nat) (s : State) : Option State :=
  let k := bankOf l
  match freeLogSpares s k with
  | [] => none
  | sp :: _ =>
    if 24 ≤ grownIn s k then none
    else
      let b : BadSector := { phys := physOf s l, cause := cause, timeS := ptpNow s / 1000000000 }
      some { s with
        logbook := { s.logbook with bad := s.logbook.bad ++ [b], mapped := (l, sp) :: s.logbook.mapped.filter (fun m => m.1 != l) }
        logLive := { s.logLive with events := s.logLive.events ||| 1 }
        lb := (if cause = 1 then { s.lb with programFails := satAdd 16 s.lb.programFails 1 } else { s.lb with eraseFails := satAdd 16 s.lb.eraseFails 1 }) }

/-- No spare is left: READ_ONLY is set. -/
def logReadOnly (s : State) : State :=
  { s with logbook := { s.logbook with readOnly := true }, logLive := { s.logLive with events := s.logLive.events ||| 2 } }

/-! ### Words -/

/-- The word is programmed. Only user words are kept: what system sectors hold in bytes the manual does not place. -/
def wordProgrammed (s : State) (a : Nat) : Bool := s.logbook.words.any (fun w => w.1 == a)

def wordValue (s : State) (a : Nat) : BitVec 64 :=
  ((s.logbook.words.find? (fun w => w.1 == a)).map (fun w => w.2)).getD (BitVec.allOnes 64)

def programWord (a : Nat) (v : BitVec 64) (s : State) : State :=
  { s with logbook := { s.logbook with words := insertBy (fun x y => decide (x.1 ≤ y.1)) (a, v) s.logbook.words } }

/-- The sector reads erased and its erase count rises. -/
def eraseSector (l : Nat) (s : State) : State :=
  let keep (a : Nat) : Bool := a / 512 != l
  let n := ((s.logbook.erases.find? (fun e => e.1 == l)).map (fun e => e.2)).getD 0
  { s with logbook := { s.logbook with
      words := s.logbook.words.filter (fun w => keep w.1), dead := s.logbook.dead.filter keep,
      erases := (l, n + 1) :: s.logbook.erases.filter (fun e => e.1 != l), intents := s.logbook.intents.filter (fun x => x != l) } }

/-! ### Operations on a bank (R382) -/

def bankOps (s : State) (k : Nat) : List BankOp := s.logLive.ops.getD k []

def modBank (k : Nat) (g : List BankOp → List BankOp) (s : State) : State :=
  { s with logLive := { s.logLive with ops := s.logLive.ops.modify k g } }

/-- The first word of a program that is not erased. -/
def firstProgrammed (s : State) (o : BankOp) : Option Nat :=
  (List.range o.total).findSome? (fun i => let a := o.sector * 512 + o.word + i; if wordProgrammed s a then some a else none)

/-- Ends the operation at the head of a bank with its command's outcome. -/
def finishOp (k : Nat) (out : WorkOut) (s : State) : State :=
  match bankOps s k with
  | [] => s
  | o :: _ =>
    let s1 := modBank k (fun l => l.drop 1) s
    match getActive s1 o.cmd with
    | some a => complete a out s1
    | none => s1

/-- The operation at the head of a bank begins: a program first checks that its words are erased, an erase writes its
intent record. Operations that cannot begin complete and let the next one begin; `n` bounds how many. -/
def beginOps (k : Nat) : Nat → State → State
  | 0, s => s
  | n + 1, s =>
    match bankOps s k with
    | [] => s
    | o :: rest =>
      if o.kind = 1 then
        (match firstProgrammed s o with
         | some a => beginOps k n (finishOp k { status := stNotErased, detail := .integrity kSector (a / 512) a } s)
         | none => modBank k (fun _ => { o with began := s.now } :: rest) s)
      else if o.kind = 2 then
        { modBank k (fun _ => { o with began := s.now } :: rest) s with
            logbook := { s.logbook with intents := o.sector :: s.logbook.intents.filter (fun x => x != o.sector) } }
      else modBank k (fun _ => { o with began := s.now } :: rest) s

/-- Accepts an operation on a bank. -/
def pushOp (k : Nat) (o : BankOp) (s : State) : State :=
  let idle := (bankOps s k).isEmpty
  let s1 := modBank k (fun l => l ++ [o]) s
  if idle then beginOps k 1 s1 else s1

/-- The next sector of an erase: on the same bank, or accepted on the next one. -/
def nextSector (k : Nat) (o : BankOp) (s : State) : State :=
  let o1 := { o with sector := o.sector + 1, left := o.left - 1 }
  if bankOf o1.sector = k then
    { modBank k (fun l => { o1 with began := o.began } :: l.drop 1) s with
        logbook := { s.logbook with intents := o1.sector :: s.logbook.intents.filter (fun x => x != o1.sector) } }
  else
    let s1 := modBank k (fun l => l.drop 1) s
    pushOp (bankOf o1.sector) o1 (beginOps k (bankOps s1 k).length s1)

/-- One word program or sector erase of the head operation has finished, after a failure on its spare. -/
def opAdvance (k : Nat) (o : BankOp) (s : State) : State :=
  if o.kind = 1 then
    let i := o.total - o.left
    let s1 := programWord (o.sector * 512 + o.word + i) (o.words.getD i 0) s
    if o.left ≤ 1 then
      let s2 := finishOp k (okOut [] []) s1
      beginOps k (bankOps s2 k).length s2
    else modBank k (fun l => { o with left := o.left - 1 } :: l.drop 1) s1
  else if o.kind = 2 then
    let s1 := eraseSector o.sector s
    if o.left ≤ 1 then
      let s2 := finishOp k (okOut [] []) s1
      beginOps k (bankOps s2 k).length s2
    else nextSector k o s1
  else
    -- system compaction: copy A in bank 0, then copy B in bank 1; the counter region has one copy in bank 2
    let s1 := modBank k (fun l => l.drop 1) s
    let s2 := beginOps k (bankOps s1 k).length s1
    if k = 0 then pushOp 1 { o with sector := o.sector + 992 } s2 else s2

/-- LOGBOOK_OPERATION_COMPLETE: a word program or sector erase finishes, or fails and is done again on a spare sector; with
no spare left the operation completes with NO_RESOURCE (R389, R390). -/
def execLogbookOperationComplete (t bank : Nat) (ok : Bool) (s0 : State) : Host.Outcome State Fault Refusal :=
  let s := setNow t s0
  if !alive s then .next s else
  match bankOps s bank with
  | [] => .next s
  | o :: _ =>
    if ok then .next (opAdvance bank o s)
    else
      match retireSector o.sector (if o.kind = 2 then 2 else 1) s with
      | some s1 => .next (opAdvance bank o s1)
      | none =>
        let s1 := finishOp bank (failOut logExhausted) (logReadOnly s)
        .next (beginOps bank (bankOps s1 bank).length s1)

/-- LOGBOOK_COMPACTION: a system region's free space falls below one sector. How much its records take the manual does
not say, so the row itself says that the region is due (log entry 85). -/
def execLogbookCompaction (t region : Nat) (s0 : State) : Host.Outcome State Fault Refusal :=
  let s := setNow t s0
  if !alive s then .next s else
  let k := if region = 8 then 2 else 0
  let first := if region = 8 then 1984 else (logRegions.getD region (0, 0, 0)).1
  let op : BankOp := { cmd := s.cmds.nextId, kind := 3, sector := first, word := 0, total := 1, left := 1, began := s.now, words := [] }
  if s.dev.state ≠ .powered ∧ 1 ≤ region ∧ region ≤ 8 ∧ region ≠ 7 ∧ !(s.logLive.ops.any (fun l => l.any (fun o => o.kind == 3))) then
    .next (pushOp k op { s with cmds := { s.cmds with nextId := s.cmds.nextId + 1 } })
  else .next s

/-! ### Commands (R394 to R400, Table 15.6) -/

def logUp (s : State) : Bool := s.dev.state == .ready || s.dev.state == .braced
def logReadable (s : State) : Bool := logUp s || s.dev.state == .dryDock

def cmdLogbookInfo : CmdSpec :=
  { opcode := 0x0A00, cls := 0
    device := fun s _ => logReadable s
    freeOk := fun s _ => s.dev.state == .dryDock
    check := fun _ f => firstSome [ rsv f 0 8, noTail f 8 ]
    work := fun s _ =>
      (s, okOut (toLE 2 logSectors ++ toLE 2 logRegions.length ++ toLE 2 s.logbook.bad.length ++ zeros 2
          ++ (List.range 4).flatMap (fun k => toLE 1 (freeLogSpares s k).length))
        (logRegions.flatMap (fun r => toLE 2 r.1 ++ toLE 2 r.2.1 ++ toLE 1 r.2.2 ++ zeros 3)
          ++ s.logbook.bad.flatMap (fun b => toLE 2 b.phys ++ toLE 1 b.cause ++ zeros 1 ++ toLE 4 b.timeS))) }

/-- The sectors that `n` words from `a` touch. -/
def wordSectors (a n : Nat) : List Nat := (List.range ((a + n - 1) / 512 - a / 512 + 1)).map (fun i => a / 512 + i)

/-- OBJECT_STATE of the first sector that is refused. -/
def sectorRefuse (s : State) (l : List Nat) (bad : Nat → Bool) : Option Refuse :=
  (l.find? (fun x => bad (sectorKind s x))).map (fun x => conflict kSector x (sectorKind s x))

/-- The status word of Table 15.2. The share of a word's program or a sector's erase that is done is not stated: PROGRESS
counts whole ones. -/
def statusWord (s : State) (k : Nat) : Nat :=
  match bankOps s k with
  | [] => 0
  | o :: rest =>
    let done := o.total - o.left
    o.kind + k * 2 ^ 2 + o.sector * 2 ^ 4 + (if o.kind = 1 then o.word + done else 0) * 2 ^ 16 + (done * 100 / max 1 o.total) * 2 ^ 25
      + clampTo 16 ((s.now - o.began) / 10000) * 2 ^ 32 + clampTo 8 rest.length * 2 ^ 48 + 0xA5 * 2 ^ 56

/-- Words of a range with their erased map; words of system sectors are free. -/
def readWords (s : State) (a n : Nat) : Bytes :=
  let user (x : Nat) : Bool := decide (2944 ≤ x / 512)
  let data := (List.range n).flatMap (fun i =>
    if user (a + i) then toLE 8 (wordValue s (a + i)).toNat else (List.range 8).map (fun j => Config.freeByte (s.fresh + 1) (8 * (a + i) + j)))
  let erased (i : Nat) : Bool := decide (i < n) && (if user (a + i) then !wordProgrammed s (a + i) else Config.choose (a + i))
  data ++ (List.range (ceilDiv n 8)).map (fun k => BitVec.ofNat 8 (sumNat ((List.range 8).map (fun j => if erased (8 * k + j) then 2 ^ j else 0))))

/-- R393: how many of the words just read were corrected, and how many system words were taken from their other copy, is free
(log entry 107). -/
def countEcc (a n : Nat) (s : State) : State :=
  let sys := ((List.range n).filter (fun i => decide ((a + i) / 512 < 2944))).length
  { s with
    logLive := { s.logLive with eccCorrected := satAdd 32 s.logLive.eccCorrected (min n (Config.amount s.fresh)) }
    lb := { s.lb with eccUe := satAdd 16 s.lb.eccUe (min sys (Config.freeWord s.fresh 107).toNat) } }

def cmdLogbookRead : CmdSpec :=
  { opcode := 0x0A01, cls := 0
    device := fun s _ => logReadable s
    freeOk := fun s _ => s.dev.state == .dryDock
    check := fun _ f => firstSome
      [ inRange f 0 4 0 (logWords - 1), inRange f 4 2 1 (min 8192 (logWords - par f 0 4)), rsv f 6 2, noTail f 8 ]
    objects := fun s f => sectorRefuse s (wordSectors (par f 0 4) (par f 4 2)) (fun k => k == 4)
    slow := fun _ _ => true
    work := fun s a =>
      let ad := par a.frame 0 4
      let n := par a.frame 4 2
      let busy := ((wordSectors ad n).map bankOf).find? (fun k => !(bankOps s k).isEmpty)
      match busy with
      | some k => (s, okOut (toLE 1 1 ++ zeros 7) (toLE 8 (statusWord s k)))
      | none =>
        match s.logbook.dead.find? (fun x => decide (ad ≤ x ∧ x < ad + n)) with
        | some x => (s, { status := stMediaUe, detail := .media (x / 512) 4 0 (BitVec.ofNat 64 x) (BitVec.ofNat 64 (physOf s (x / 512) * 512 + x % 512)) })
        | none => (useFresh (countEcc ad n s), okOut (toLE 1 0 ++ zeros 7) (readWords s ad n))
    fail := fun s _ e =>
      match e with
      | .media _ _ _ l _ => { s with logbook := { s.logbook with dead := if s.logbook.dead.contains l.toNat then s.logbook.dead else l.toNat :: s.logbook.dead } }
      | _ => s }

/-- What a running operation on the banks waits for is LOGBOOK_OPERATION_COMPLETE, never the command's own completion. -/
def dropOps (s : State) (id : Nat) : State :=
  { s with logLive := { s.logLive with ops := s.logLive.ops.map (fun l => l.filter (fun o => o.cmd != id)) } }

def cmdLogbookProgram : CmdSpec :=
  { opcode := 0x0A02, cls := 2
    device := fun s _ => logUp s
    check := fun _ f => firstSome
      [ inRange f 0 4 0 (logWords - 1), inRange f 4 2 1 (512 - par f 0 4 % 512), rsv f 6 2, noTail f 8, payloadIs f (8 * par f 4 2) ]
    objects := fun s f => sectorRefuse s [par f 0 4 / 512] (fun k => k != 1)
    needs := fun s _ => logOk s
    slow := fun _ _ => true
    start := fun s a =>
      let f := a.frame
      let n := par f 4 2
      pushOp (bankOf (par f 0 4 / 512))
        { cmd := a.id, kind := 1, sector := par f 0 4 / 512, word := par f 0 4 % 512, total := n, left := n, began := s.now
          words := (List.range n).map (fun i => BitVec.ofNat 64 (pay f (8 * i) 8)) } s
    done := fun s a => !(s.logLive.ops.any (fun l => l.any (fun o => o.cmd == a.id)))
    fail := fun s a _ => dropOps s a.id }

/-- The last sector that an erase from `l` may reach: the end of its group, or of the logbook. -/
def eraseLimit (l : Nat) : Nat := if 2944 ≤ l then 2944 + 128 * (groupOf l + 1) else logSectors

def cmdLogbookErase : CmdSpec :=
  { opcode := 0x0A03, cls := 2
    device := fun s _ => logUp s
    check := fun _ f => firstSome
      [ inRange f 0 4 0 (logSectors - 1), inRange f 4 2 1 (min 128 (eraseLimit (par f 0 4) - par f 0 4)), rsv f 6 2, noTail f 8 ]
    objects := fun s f => sectorRefuse s ((List.range (par f 4 2)).map (fun i => par f 0 4 + i)) (fun k => k != 1)
    needs := fun s _ => logOk s
    slow := fun _ _ => true
    start := fun s a =>
      let f := a.frame
      pushOp (bankOf (par f 0 4)) { cmd := a.id, kind := 2, sector := par f 0 4, word := 0, total := par f 4 2, left := par f 4 2, began := s.now, words := [] } s
    done := fun s a => !(s.logLive.ops.any (fun l => l.any (fun o => o.cmd == a.id)))
    fail := fun s a _ => dropOps s a.id }

/-- The limited-change settings: SETTING, PARAM_ID, bit, width, BUDGET, REMAIN, VALUE (Tables 15.4 and 16.6). -/
def settingRecords (s : State) : List Bytes :=
  let r (no pid lo hi budget remain v : Nat) : Bytes :=
    toLE 2 no ++ toLE 2 pid ++ toLE 1 lo ++ toLE 1 hi ++ zeros 2 ++ toLE 2 budget ++ toLE 2 remain ++ zeros 4 ++ toLE 8 v
  (List.range 8).map (fun n => r (n + 1) (0x20 + n) 0 1 16 (s.regs.portRemain.getD n 0) ((s.regs.portClass.getD n 0).toNat))
    ++ (List.range 8).map (fun g => r (g + 9) 0x0A01 g g 8 (s.regs.userWpRemain.getD g 0) (bits s.regs.userWp.toNat g 1))
    ++ [r 32 0x0B01 0 15 64 s.regs.floorRemain s.regs.floor.toNat]
    ++ (List.range 4).map (fun n => r (33 + n) 0x0B01 (24 + n) (24 + n) 1 (bits s.regs.revokeRemain.toNat n 1) (bits s.regs.revoke.toNat n 1))

def cmdLogbookSettings : CmdSpec :=
  { opcode := 0x0A04, cls := 0
    device := fun s _ => logReadable s
    freeOk := fun s _ => s.dev.state == .dryDock
    check := fun _ f => firstSome [ rsv f 0 8, noTail f 8 ]
    work := fun s _ => (s, okOut (toLE 4 (settingRecords s).length ++ zeros 4) (settingRecords s).flatten) }

/-! ### Power loss and mount (R391, R392) -/

/-- A program in progress completes its word, an erase in progress leaves its intent, queued operations are dropped. -/
def logPowerFail (s : State) : State :=
  let s1 := (List.range 4).foldl (fun st k =>
    match bankOps st k with
    | o :: _ => if o.kind = 1 then let i := o.total - o.left; programWord (o.sector * 512 + o.word + i) (o.words.getD i 0) st else st
    | [] => st) s
  { s1 with logLive := {} }

/-- Interrupted erases are repeated at mount. -/
def logMount (s : State) : State :=
  if s.logbook.intents.isEmpty then s
  else
    let s1 := s.logbook.intents.foldl (fun st l => eraseSector l st) s
    { s1 with logLive := { s1.logLive with events := s1.logLive.events ||| 8 } }

end Sys2Proof.Machine
end

