-- ==== Sys2Proof/Machine/PlanRun.lean ====
section
/-! DEFINITION. Running a plan's operations over its SRAM area (R176, R180 to R184, R186, R188): crane operations, routing,
experts on quays, attention, functions, embedding, output and transfer. -/

namespace Sys2Proof.Machine

/-! ### The running state -/

/-- A tensor in the SRAM area: address, format, elements per row, bytes from row to row. -/
structure Tensor7 where
  addr   : Nat
  fmt    : Nat
  width  : Nat
  stride : Nat
  deriving DecidableEq, Repr

/-- Traffic of one stage: weight bytes per quay, link bytes per quay in each direction, SRAM bytes, and the bound of a
transfer in ns. -/
structure Traffic where
  media : List (Nat × Nat) := []
  down  : List (Nat × Nat) := []
  up    : List (Nat × Nat) := []
  sram  : Nat := 0
  hop   : Nat := 0
  deriving DecidableEq, Repr

/-- What is constant during a run: the plan, the berth, the rows with their contexts and positions, the adapter copy
read, the token that names the run to the free values, and the module of the next part. -/
structure RunEnv where
  plan   : Plan
  berth  : Nat
  rows   : Nat
  tokens : List (Nat × Nat)
  entry  : Entry
  copy   : Nat
  use    : Nat
  next   : Option Nat := none

/-- What changes. `cranes` collects the crane operations for CRANE_STATS, `quays` the tile runs and cycles per quay. -/
structure RunSt where
  mem        : Mem
  tensors    : List Tensor7 := []
  report     : Report := {}
  runs       : List (Nat × Nat)
  selections : Nat := 0
  experts    : Nat := 0
  dropped    : Nat := 0
  nanRoute   : Nat := 0
  mediaBytes : Nat := 0
  stage      : Nat := 0
  stages     : Nat := 0
  traffic    : Traffic := {}
  bound      : Nat := 0
  cranes     : List (Nat × Nat × Nat × Nat × Option Choice) := []
  quays      : List (Nat × Nat × Nat) := []
  sent       : List Bytes := []
  out        : List (List Num) := []
  err        : Option Refuse := none

def addTo (k v : Nat) (l : List (Nat × Nat)) : List (Nat × Nat) :=
  let old := ((l.find? (fun x => x.1 == k)).map (fun x => x.2)).getD 0
  (k, old + v) :: l.filter (fun x => x.1 != k)

def valueOf (k : Nat) (l : List (Nat × Nat)) : Nat := ((l.find? (fun x => x.1 == k)).map (fun x => x.2)).getD 0

/-- How often an operation has run, and one run more (R121). -/
def RunSt.runsOf (r : RunSt) (key : Nat) : Nat := valueOf key r.runs
def RunSt.ran (r : RunSt) (key : Nat) : RunSt := { r with runs := addTo key 1 r.runs }

/-- The key of an operation of the plan: operation index, expert, projection. -/
def opKey (i expert proj : Nat) : Nat := (i * 65536 + expert) * 2 + proj

/-- The tensor at an address; `dflt` describes packed rows when nothing has been written there. -/
def RunSt.tensorAt (r : RunSt) (addr fmt width : Nat) : Tensor7 :=
  (r.tensors.find? (fun t => t.addr == addr)).getD { addr := addr, fmt := fmt, width := width, stride := width * (codeBits fmt / 8) }

def RunSt.note (r : RunSt) (t : Tensor7) : RunSt := { r with tensors := t :: r.tensors.filter (fun x => x.addr != t.addr) }

/-- Rows of a tensor, `width` elements each. -/
def RunSt.read (r : RunSt) (t : Tensor7) (width rows : Nat) : List (List Num) :=
  (List.range rows).map (fun i => readElems t.fmt (memRead r.mem (t.addr + i * t.stride) (width * (codeBits t.fmt / 8))) 0 width)

/-- Writes rows where a tensor lies, in its place when the address is known with the same format, packed otherwise. -/
def RunSt.write (r : RunSt) (addr fmt width : Nat) (rows : List (List Num)) : RunSt :=
  let t := { (r.tensorAt addr fmt width) with fmt := fmt, width := width }
  let r1 := r.note t
  { r1 with mem := writeRows fmt addr t.stride rows 0 r1.mem }

/-! ### Elementary functions in FP32 (R176) -/

def fAdd (x y : Num) : Num := fmtFp32.add x y
def fMul (x y : Num) : Num := fmtFp32.mul x y
def fDiv (x y : Num) : Num := fmtFp32.div x y
def fExp (x : Num) : Num := viaF32 Config.expF x
def oneF : Num := Num.ofNat 1

/-- σ(x). -/
def sigmoid (x : Num) : Num := fDiv oneF (fAdd oneF (fExp x.neg))
def siluF (x : Num) : Num := fMul x (sigmoid x)

/-- GELU in the tanh form: x/2 · (1 + tanh(√(2/π) · (x + 0.044715·x³))). -/
def geluF (x : Num) : Num :=
  let inner := fMul (f32 0x3F4C422A) (fAdd x (fMul (f32 0x3D372713) (fMul x (fMul x x))))
  fMul (fMul (f32 0x3F000000) x) (fAdd oneF (viaF32 Config.tanhF inner))

/-- A function of Table 7.5 that maps one row to one row. -/
def rowFunc (fn : Nat) (row : List Num) : List Num :=
  match fn with
  | 3 => row.map geluF
  | 4 => row.map siluF
  | 5 => let n := row.length / 2; List.zipWith fMul (row.take n) ((row.drop n).map siluF)
  | _ => row

def rmsNorm (use no : Nat) (eps : Num) (g row : List Num) : List Num :=
  let mean := fDiv (normSq use no row) (Num.ofNat row.length)
  let d := viaF32 Config.sqrtF (fAdd mean eps)
  List.zipWith (fun x y => fMul (fDiv x d) y) row g

/-! ### CRANE -/

/-- The adapters on an operation. -/
def adaptersOf (img : Bytes) (i : Nat) : List Nat := (List.range (recCount img 8)).filter (fun a => recField img 8 a 0 4 == i)

/-- ALPHA · (X·A)·B of one adapter, from copy `copy` (Table 7.11). -/
def adapterTerm (img : Bytes) (mem : Mem) (ad copy use k n : Nat) (x : List (List Num)) : List (List Num) :=
  let rk := recField img 8 ad 4 2
  let alpha := f32 (recField img 8 ad 8 4)
  let a := readElems 0xC (memRead mem (recField img 8 ad 16 8 + copy * 2 * k * rk) (2 * k * rk)) 0 (k * rk)
  let b := readElems 0xC (memRead mem (recField img 8 ad 24 8 + copy * 2 * rk * n) (2 * rk * n)) 0 (rk * n)
  x.zipIdx.map (fun r =>
    let mid := (List.range rk).map (fun j => sumF32 use (1000 + r.2 * (rk + n) + j) (r.1.zipIdx.map (fun v => prod32 v.1 (a.getD (v.2 * rk + j) Num.zero))))
    (List.range n).map (fun c =>
      fMul alpha (sumF32 use (1000 + r.2 * (rk + n) + rk + c) (mid.zipIdx.map (fun v => prod32 v.1 (b.getD (v.2 * n + c) Num.zero))))))

def sumRows (a b : List (List Num)) : List (List Num) := if a.isEmpty then b else List.zipWith (List.zipWith fAdd) a b

/-- The address carries a first-pass range: the last operation of the entry before `i` that wrote there is a CRANE or FUNC
operation (R114, R176). -/
def carriesRange (img : Bytes) (first i addr : Nat) : Bool :=
  match ((List.range i).filter (fun j => decide (first ≤ j))).reverse.find? (fun j => (opWrites img j).any (fun w => w.1 == addr)) with
  | some j => opKind img j == 1 || opKind img j == 5
  | none => false

/-- Bytes that the first pass of a CRANE operation reads over `rows` tokens (R114, R157). -/
def firstPass (img : Bytes) (first i rows : Nat) : Nat :=
  let d := opDesc img i
  if isUintCode d.fmtA && !carriesRange img first i d.xAddr then rows * rowBytesOf d.fmtX d.k else 0

/-- A CRANE operation. -/
def runCrane (s : State) (e : RunEnv) (i : Nat) (r : RunSt) : RunSt :=
  let img := e.plan.image
  let d := opDesc img i
  let first := firstPass img e.entry.first i e.rows
  let ch := d.choice e.rows first
  let use := e.use + i
  let t : Tensor7 := { addr := d.yAddr, fmt := d.fmtY, width := d.n, stride := d.yStride }
  let r1 := { (r.note t) with cranes := r.cranes ++ [(d.arrays, e.rows, if d.isTable then d.subDim else d.k, d.n, ch)], traffic := { r.traffic with sram := r.traffic.sram + d.bytesRead e.rows first ch } }
  if d.isTable then { r1 with mem := d.runTable r.mem e.rows use }
  else
    let key := opKey i 0 0
    let o := d.matOp r.mem e.rows (clipOf s e.berth d.clip) (shiftOf s e.berth d.shadow) (r.runsOf key) use
    let ads := adaptersOf img i
    let extra := (ads.map (fun a => adapterTerm img r.mem a e.copy use d.k d.n o.x)).foldl sumRows []
    let save (m : Mem) (a : Nat) : Mem := if e.entry.kind = 1 then writeRows d.fmtX (recField img 8 a 40 8) d.xStride o.x 0 m else m
    let w := d.finish r.mem e.rows use o.run extra
    { (r1.ran key) with mem := ads.foldl save w.1, report := r.report.add (getBerth s e.berth).regs.quantThresh o.quantised w.2 }

/-! ### ROUTE (R180) -/

/-- A selection of a row: row, expert, gate. -/
structure Pick7 where
  row    : Nat
  expert : Nat
  gate   : Num
  deriving DecidableEq, Repr

/-- Descending logit, ties to the lower expert index. -/
def logitFirst (a b : Nat × Num) : Bool := b.2.lt a.2 || (!(a.2.lt b.2) && decide (a.1 ≤ b.1))

/-- The experts and gates of one row of logits, in selection order. -/
def routeRow (use no topK gate : Nat) (logits : List Num) : List (Nat × Num) :=
  let cand := (logits.zipIdx.filter (fun x => !x.1.isNan && x.1 != .inf true)).map (fun x => (x.2, x.1))
  let sel := (sortBy logitFirst cand).take topK
  let infs := (sel.filter (fun x => x.2.isInf)).length
  if 0 < infs then sel.map (fun x => (x.1, if x.2.isInf then fDiv oneF (Num.ofNat infs) else Num.zero))
  else
    let top := ((sel.head?).map (fun x => x.2)).getD Num.zero
    let w := sel.map (fun x => (x.1, if gate = 0 then fExp (fAdd x.2 top.neg) else sigmoid x.2))
    let total := sumF32 use no (w.map (fun x => x.2))
    w.map (fun x => (x.1, fDiv x.2 total))

def selBytes (topK : Nat) (l : List (Nat × Num)) : Bytes :=
  l.flatMap (fun x => toLE 4 x.1 ++ toLE 4 (f32Bits x.2)) ++ (List.replicate (topK - l.length) (toLE 4 0xFFFFFFFF ++ zeros 4)).flatten

def runRoute (e : RunEnv) (i : Nat) (r : RunSt) : RunSt :=
  let img := e.plan.image
  let ex := opF img i 4 4
  let topK := opF img i 8 1
  let rows := r.read (r.tensorAt (opF img i 16 8) 0xD ex) ex e.rows
  let sels := rows.zipIdx.map (fun x => routeRow (e.use + i) x.2 topK (opF img i 9 1) x.1)
  let mem := sels.zipIdx.foldl (fun m x => memWrite m (opF img i 24 8 + x.2 * 8 * topK) (selBytes topK x.1)) r.mem
  { r with mem := mem, selections := r.selections + sumNat (sels.map (fun x => x.length)),
           nanRoute := r.nanRoute + (rows.filter (fun x => x.all Num.isNan)).length,
           traffic := { r.traffic with sram := r.traffic.sram + e.rows * ex * 4 } }

/-! ### EXPERT (R181, R182) -/

/-- The selections that a ROUTE operation wrote. -/
def readPicks (r : RunSt) (img : Bytes) (route rows : Nat) : List Pick7 :=
  let topK := opF img route 8 1
  (List.range rows).flatMap (fun row =>
    let bs := memRead r.mem (opF img route 24 8 + row * 8 * topK) (8 * topK)
    ((List.range topK).map (fun j => { row := row, expert := getLE bs (8 * j) 4, gate := f32 (getLE bs (8 * j + 4) 4) : Pick7 })).filter
      (fun p => p.expert != 0xFFFFFFFF))

/-- Keeps at most `n` selections: the highest gates, ties to the lower row, in ascending row order. -/
def keepPicks (n : Nat) (l : List Pick7) : List Pick7 :=
  if l.length ≤ n then l
  else
    let best := (sortBy (fun a b : Pick7 => b.gate.lt a.gate || (!(a.gate.lt b.gate) && decide (a.row ≤ b.row))) l).take n
    sortBy (fun a b : Pick7 => decide (a.row ≤ b.row)) best

/-- A replica in the assignment: its slots, its quay and the rows it has received. -/
structure Rep7 where
  no   : Nat
  up   : Nat
  down : Nat
  quay : Nat
  cost : Nat
  rows : List Pick7 := []
  deriving DecidableEq, Repr

/-- The replica with room whose quay has the fewest bytes, ties to the lower quay. -/
def bestRep (cap : Nat) (load : List (Nat × Nat)) (l : List Rep7) : Option Rep7 :=
  (sortBy (fun a b : Rep7 => decide (valueOf a.quay load < valueOf b.quay load ∨ (valueOf a.quay load = valueOf b.quay load ∧ a.quay ≤ b.quay)))
    (l.filter (fun r => decide (r.rows.length < cap)))).head?

/-- R181's loop; `n` bounds the groups. -/
def assignRows (cap : Nat) : Nat → List Pick7 → List Rep7 → List (Nat × Nat) → List Rep7 × List (Nat × Nat)
  | 0, _, reps, load => (reps, load)
  | n + 1, rows, reps, load =>
    if rows.isEmpty then (reps, load)
    else
      match bestRep cap load reps with
      | none => (reps, load)
      | some r =>
        let k := min (min 64 rows.length) (cap - r.rows.length)
        let load1 := if r.rows.isEmpty then addTo r.quay r.cost load else load
        assignRows cap n (rows.drop k) (reps.map (fun x => if x.no = r.no then { x with rows := x.rows ++ rows.take k } else x)) load1

/-- The replicas of an expert. -/
def repsOf (img : Bytes) (rec : Nat) : List Rep7 :=
  (List.range 4).filterMap (fun j => (replicaSlots img rec j).map (fun p =>
    { no := j, up := p.1, down := p.2, quay := (slotRec img p.1).quay, cost := (slotRec img p.1).bytes + (slotRec img p.2).bytes }))

/-- The hold bytes a slot is bound to, or the error that reading them gives (R140). -/
def slotBytes (s : State) (p : Plan) (slot : Nat) : Refuse ⊕ Bytes :=
  match p.bindings.find? (fun x => x.1 == slot) with
  | none => .inr []
  | some (_, h, off) =>
    match getHold s h with
    | none => .inr []
    | some hd => holdBytes s hd off (slotRec p.image slot).bytes

/-- The product of one projection on one quay. -/
def quayOp (img : Bytes) (slot : Nat) (bs : Bytes) (fmtA clip shift runs use : Nat) (x range : List (List Num)) : MatOp :=
  let t := slotRec img slot
  { n := t.n, x := x, range := range, fmtA := fmtA, fmtW := t.fmt, sw := f32 t.sw
    codes := (List.range (t.k - t.outs)).map (fun k => (List.range t.n).map (fun n => tileCode t bs k n))
    outs := slotOuts img t, outW := (List.range t.outs).map (fun i => (List.range t.n).map (fun n => outlierWeight t bs i n))
    clip := clip, shift := shift, runs := runs, use := use }

/-- Column groups of 64 tokens (R131). -/
def groupsOf (m : Nat) : Nat := ceilDiv m 64

/-- Bytes of one token's activations in quay SRAM (R134). -/
def actTok (t : Slot7) (fmtA shift : Nat) : Nat := ceilDiv ((t.k - t.outs) * codeBits fmtA) 8 + 2 * (if shift = 0 then t.outs else t.k)

/-- Bytes of an expansion table. -/
def expTable (fmtA : Nat) : Nat := if isUintCode fmtA then 2 * 2 ^ codeBits fmtA else 0

/-- A of R134. -/
def actBytes (t : Slot7) (fmtA shift m o : Nat) : Nat := m * actTok t fmtA shift + expTable fmtA + 16384 * groupsOf m + 2 * m * 64 * o

/-- Counts one projection's traffic and tile runs on its quay. -/
def countQuayRun (img : Bytes) (slot fmtA shift m o : Nat) (r : RunSt) : RunSt :=
  let t := slotRec img slot
  let tiles := nPad t.n / 64 * (kPad t.k t.outs / 16) * groupsOf m
  { r with mediaBytes := r.mediaBytes + t.bytes, quays := r.quays ++ [(t.quay, tiles, tiles * codeBits t.fmt)]
           traffic := { r.traffic with media := addTo t.quay t.bytes r.traffic.media, down := addTo t.quay (m * actTok t fmtA shift + expTable fmtA) r.traffic.down,
                                       up := addTo t.quay (m * t.n * o) r.traffic.up } }

/-- Converts a row to the activation format; integer formats are quantised later from the rows as they are. -/
def toActFormat (fmtA : Nat) (row : List Num) : List Num :=
  if isUintCode fmtA then row else row.map (fun v => if v.isFin then (convertOut fmtA v).v else v)

/-- One projection of one expert over its replicas: rows per replica in, rows per replica out in the link format. -/
def projection (s : State) (e : RunEnv) (i expert proj : Nat) (slots : List Nat) (xs : List (List (List Num))) (r : RunSt) :
    List (List (List Num)) × RunSt :=
  let img := e.plan.image
  let fmtA := opF img i 12 1
  let fmid := opF img i 13 1
  let shift := shiftOf s e.berth (opF img i 15 1)
  let key := opKey i expert proj
  let use := e.use + key
  let ins := xs.map (fun x => x.map (toActFormat fmtA))
  let bad := slots.findSome? (fun sl => match slotBytes s e.plan sl with | .inl b => some b | .inr _ => none)
  match bad with
  | some b => (xs, { r with err := some b })
  | none =>
    let bytesOf (sl : Nat) : Bytes := match slotBytes s e.plan sl with | .inl _ => [] | .inr b => b
    let ops := (List.zip slots ins).map (fun p => quayOp img p.1 (bytesOf p.1) fmtA (clipOf s e.berth (opF img i 16 2)) shift (r.runsOf key) use p.2 ins.flatten)
    let outs := ops.map MatOp.run
    let conv := outs.map (fun o => convertRows fmid o.sums)
    let c := (List.zip outs conv).foldl (fun acc x => acc.plus (x.1.counts.withOut x.2.2)) ({} : OpCounts)
    let counts := { c with shadow := shadowPpm use (outs.flatMap (fun o => o.pairs)) }
    let r1 := (List.zip slots ins).foldl (fun acc p => countQuayRun img p.1 fmtA shift p.2.length (codeBits fmid / 8) acc) (r.ran key)
    (conv.map (fun x => x.1), { r1 with report := r1.report.add (getBerth s e.berth).regs.quantThresh true counts })

/-- One expert: gather, both projections, the function between them. Answers the rows to combine: row, gate, values. -/
def runExpert (s : State) (e : RunEnv) (i expert : Nat) (x : List (List Num)) (picks : List Pick7) (r : RunSt) :
    List (Nat × Num × List Num) × RunSt :=
  let img := e.plan.image
  let cap := opF img i 18 2
  let reps := repsOf img (opF img i 8 4 + expert)
  let kept := keepPicks (cap * reps.length) picks
  let asg := assignRows cap kept.length kept reps r.traffic.media
  let used := asg.1.filter (fun p => !p.rows.isEmpty)
  let r0 := { r with dropped := r.dropped + (picks.length - kept.length), experts := r.experts + used.length }
  let xs := used.map (fun p => p.rows.map (fun q => x.getD q.row []))
  let up := projection s e i expert 0 (used.map (fun p => p.up)) xs r0
  if up.2.err.isSome then ([], up.2) else
  let mid := up.1.map (fun rows => rows.map (fun row => (rowFunc (opF img i 14 1) row).map (fun v => (convertOut 0xC v).v)))
  let dn := projection s e i expert 1 (used.map (fun p => p.down)) mid up.2
  if dn.2.err.isSome then ([], dn.2) else
  ((List.zip used dn.1).flatMap (fun p => (List.zip p.1.rows p.2).map (fun q => (q.1.row, q.1.gate, q.2))), dn.2)

/-- The experts of a list, in ascending index. -/
def runExperts (s : State) (e : RunEnv) (i : Nat) (x : List (List Num)) (picks : List Pick7) :
    List Nat → List (Nat × Num × List Num) → RunSt → List (Nat × Num × List Num) × RunSt
  | [], acc, r => (acc, r)
  | ex :: l, acc, r =>
    if r.err.isSome then (acc, r) else
    let mine := picks.filter (fun p => p.expert == ex)
    if mine.isEmpty then runExperts s e i x picks l acc r
    else
      let o := runExpert s e i ex x mine r
      runExperts s e i x picks l (acc ++ o.1) o.2

def runExpertOp (s : State) (e : RunEnv) (i : Nat) (r : RunSt) : RunSt :=
  let img := e.plan.image
  let w := expertWidth img i
  let x := r.read (r.tensorAt (opF img i 24 8) 0xC w) w e.rows
  let picks := readPicks r img (opF img i 4 4) e.rows
  let o := runExperts s e i x picks (List.range (expertCount img i)) [] r
  if o.2.err.isSome then o.2
  else
    let ya := opF img i 32 8
    let y := o.2.read (o.2.tensorAt ya 0xD w) w e.rows
    let ys := y.zipIdx.map (fun row =>
      let terms := o.1.filter (fun t => t.1 == row.2)
      if terms.isEmpty then row.1
      else row.1.zipIdx.map (fun v => sumF32 (e.use + i) (row.2 * w + v.2) (v.1 :: terms.map (fun t => fMul t.2.1 (t.2.2.getD v.2 Num.zero)))))
    o.2.write ya 0xD w ys

/-! ### ATTEND -/

/-- Where a context's layer keeps a position (R183). -/
def ctxAt (img : Bytes) (c layer pos : Nat) : Nat := imgCtxAddr img + ((c * imgLayers img + layer) * imgMaxPos img + pos) * imgPosBytes img

def softmax (use no : Nat) (l : List Num) : List Num :=
  let top := l.foldl (fun a b => a.maxOf b) (l.headD Num.zero)
  let w := l.map (fun v => fExp (fAdd v top.neg))
  let total := sumF32 use no w
  w.map (fun v => fDiv v total)

/-- One query head of one row over positions 0 to `pos`. -/
def attendHead (use no : Nat) (scale : Num) (q : List Num) (keys vals : List (List Num)) : List Num :=
  let n := keys.length
  let sc := keys.zipIdx.map (fun k => fMul scale (sumF32 use (no * (2 * n + q.length + 2) + k.2) (List.zipWith prod32 q k.1)))
  let w := softmax use (no * (2 * n + q.length + 2) + n) sc
  (List.range q.length).map (fun d =>
    sumF32 use (no * (2 * n + q.length + 2) + n + 1 + d) ((List.zip w vals).map (fun p => fMul p.1 (p.2.getD d Num.zero))))

def runAttend (e : RunEnv) (i : Nat) (r : RunSt) : RunSt :=
  let img := e.plan.image
  let h := opF img i 4 2
  let kv := opF img i 6 2
  let hd := opF img i 8 2
  let layer := opF img i 10 2
  let fmt := opF img i 12 1
  let eb := codeBits fmt / 8
  let news := r.read (r.tensorAt (opF img i 32 8) 0xC (2 * kv * hd)) (2 * kv * hd) e.rows
  let mem := (List.zip news e.tokens).foldl (fun m x => memWrite m (ctxAt img x.2.1 layer x.2.2) (elemBytes fmt (x.1.map (fun v => (convertOut fmt v).v)))) r.mem
  let qs := r.read (r.tensorAt (opF img i 24 8) 0xC (h * hd)) (h * hd) e.rows
  let part (c pos off : Nat) : List Num := readElems fmt (memRead mem (ctxAt img c layer pos + off * eb) (hd * eb)) 0 hd
  let outs := (List.zip qs e.tokens).zipIdx.map (fun x =>
    let q := x.1.1
    let c := x.1.2.1
    let ps := List.range (x.1.2.2 + 1)
    ((List.range h).flatMap (fun hh =>
      let g := hh * kv / h
      attendHead (e.use + i) (x.2 * h + hh) (f32 (opF img i 16 4)) ((q.drop (hh * hd)).take hd)
        (ps.map (fun p => part c p (g * hd))) (ps.map (fun p => part c p ((kv + g) * hd))))).map (fun v => (convertOut 0xC v).v))
  let r1 := { r with mem := mem, traffic := { r.traffic with sram := r.traffic.sram + sumNat (e.tokens.map (fun (t : Nat × Nat) => (t.2 + 1) * imgPosBytes img)) } }
  r1.write (opF img i 40 8) 0xC (h * hd) outs

/-! ### FUNC, EMBED, OUTPUT, TRANSFER -/

def runFunc (e : RunEnv) (i : Nat) (r : RunSt) : RunSt :=
  let img := e.plan.image
  let fn := opF img i 4 1
  let fmt := opF img i 5 1
  let w := opF img i 8 4
  let ya := opF img i 24 8
  let x := r.read (r.tensorAt (opF img i 16 8) fmt w) w e.rows
  let ys :=
    if fn = 1 then List.zipWith (List.zipWith fAdd) x (r.read (r.tensorAt ya fmt w) w e.rows)
    else if fn = 2 then
      let g := readElems 0xD (memRead r.mem (opF img i 32 8) (4 * w)) 0 w
      x.zipIdx.map (fun row => rmsNorm (e.use + i) row.2 (f32 (opF img i 12 4)) g row.1)
    else x.map (rowFunc fn)
  r.write ya fmt (midWidth fn w) (ys.map (fun row => row.map (fun v => (convertOut fmt v).v)))

/-- Row `t` of an embedding slot: its N codes, scaled by s_w. -/
def embedRow (mem : Mem) (t : Slot7) (id : Nat) : List Num :=
  let bs := memRead mem (t.addr + id * rowBytesOf t.fmt t.n) (rowBytesOf t.fmt t.n)
  (List.range t.n).map (fun j => (convertOut 0xC (fMul (f32 t.sw) (decodeWeight t.fmt (streamCode bs (codeBits t.fmt) j)))).v)

def runEmbed (e : RunEnv) (i : Nat) (r : RunSt) : RunSt :=
  let img := e.plan.image
  let t := slotRec img (opF img i 4 4)
  let ids := (List.range e.rows).map (fun j => getLE (memRead r.mem (e.entry.inAddr + 4 * j) 4) 0 4)
  r.write (opF img i 8 8) 0xC t.n (ids.map (embedRow r.mem t))

def runOutput (s : State) (e : RunEnv) (i : Nat) (r : RunSt) : RunSt :=
  let w := e.entry.outWidth
  let c := convertRows e.entry.outFmt (r.read (r.tensorAt (opF e.plan.image i 8 8) 0xD w) w e.rows)
  { r with out := c.1, report := r.report.add (getBerth s e.berth).regs.quantThresh false c.2 }

/-- T_b of sending `bytes` to a module (Table 1.12). -/
def hopBound (s : State) (dest : Option Nat) (bytes : Nat) : Nat :=
  (dest.map (fun m => linkNs s [m] bytes + routeHops s m * hopNs)).getD 0

def runTransfer (s : State) (e : RunEnv) (i : Nat) (r : RunSt) : RunSt :=
  let w := opF e.plan.image i 4 4
  let a := opF e.plan.image i 8 8
  let stride := ((r.tensors.find? (fun t => t.addr == a)).map (fun t => t.stride)).getD w
  { r with sent := (List.range e.rows).map (fun j => memRead r.mem (a + j * stride) w), traffic := { r.traffic with hop := r.traffic.hop + hopBound s e.next (e.rows * w) } }

/-! ### Stages and their bound (R176, R188) -/

/-- Rate of the stacked or planar SRAM in GB/s. -/
def sramRate (s : State) : Nat := if s.fixed.variant = .X then 32000 else 16000

/-- `bytes` at a rate of `n / d` GB/s, in ns rounded up. -/
def timeNs (bytes n d : Nat) : Nat := ceilDiv (bytes * d) n

/-- The terms of a stage: media, link, SRAM. -/
def stageTerms (s : State) (t : Traffic) : Nat × Nat × Nat :=
  (timeNs (maxNat (t.media.map (fun x => x.2))) 1536 10, timeNs (max (maxNat (t.down.map (fun x => x.2))) (maxNat (t.up.map (fun x => x.2)))) 128 1,
    timeNs t.sram (sramRate s) 1)

/-- X_br ÷ 1,024 GB/s: where the module places operands is its own choice (free). -/
def bridgeNs (use : Nat) (t : Traffic) : Nat := timeNs (Config.amount use % (t.sram + 1)) 1024 1

def closeStage (s : State) (use : Nat) (r : RunSt) : RunSt :=
  let t : Nat × Nat × Nat := stageTerms s r.traffic
  { r with bound := r.bound + max r.traffic.hop (max (max t.1 t.2.1) (max t.2.2 (bridgeNs (use + r.stages) r.traffic))), traffic := {} }

def runOp (s : State) (e : RunEnv) (i : Nat) (r : RunSt) : RunSt :=
  match opKind e.plan.image i with
  | 1 => runCrane s e i r
  | 2 => runExpertOp s e i r
  | 3 => runRoute e i r
  | 4 => runAttend e i r
  | 5 => runFunc e i r
  | 6 => runEmbed e i r
  | 7 => runOutput s e i r
  | _ => runTransfer s e i r

/-- The operations of an entry in order; the run stops at the stage of an operation that fails (R186). -/
def runOps (s : State) (e : RunEnv) : List Nat → RunSt → RunSt
  | [], r => closeStage s e.use r
  | i :: l, r =>
    if r.err.isSome then r
    else
      let st := opStage e.plan.image i
      let r1 := if r.stages = 0 then { r with stage := st, stages := 1 }
        else if r.stage = st then r
        else { (closeStage s e.use r) with stage := st, stages := r.stages + 1 }
      runOps s e l (runOp s e i r1)

/-- Bytes of one input row. -/
def inputWidth (en : Entry) : Nat := if en.inKind = 0 then 4 else en.inWidth * (codeBits en.inFmt / 8)

/-- Input rows lie at IN_ADDR with the stride of the crane operation that reads them there, packed otherwise. -/
def inputStride (p : Plan) (en : Entry) : Nat :=
  let rd := (List.range (recCount p.image 3)).find? (fun i => opKind p.image i == 1 && (opDesc p.image i).xAddr == en.inAddr && decide (en.first ≤ i ∧ i ≤ en.last))
  (rd.map (fun i => (opDesc p.image i).xStride)).getD (inputWidth en)

def placeInput (p : Plan) (en : Entry) (data : Bytes) (rows : Nat) : Mem :=
  (List.range rows).foldl (fun m i => memWrite m (en.inAddr + i * inputStride p en) (slice data (i * inputWidth en) (inputWidth en))) p.mem

/-- A whole run of an entry. -/
def runEntry (s : State) (e : RunEnv) (data : Bytes) : RunSt :=
  let t : Tensor7 := { addr := e.entry.inAddr, fmt := e.entry.inFmt, width := e.entry.inWidth, stride := inputStride e.plan e.entry }
  let r0 : RunSt := { mem := placeInput e.plan e.entry data e.rows, runs := e.plan.runs, tensors := if e.entry.inKind = 1 then [t] else [] }
  if e.rows = 0 then r0
  else runOps s e ((List.range (recCount e.plan.image 3)).filter (fun i => decide (e.entry.first ≤ i ∧ i ≤ e.entry.last))) r0

/-- The units' statistics take a run: crane operations, tile runs and the stalls, whose lengths are free. -/
def countRun (r : RunSt) (s : State) : State :=
  let s1 := r.cranes.foldl (fun st c => countCrane c.1 c.2.1 c.2.2.1 c.2.2.2.1 c.2.2.2.2 st) s
  r.quays.foldl (fun st q => useFresh (modQuay q.1 (fun x =>
    { x with tiles := satAdd 64 x.tiles q.2.1, arrayBusy := satAdd 64 x.arrayBusy q.2.2, mediaStall := satAdd 32 x.mediaStall (Config.amount st.fresh),
             linkStall := satAdd 32 x.linkStall (Config.elapsed st.fresh) }) st)) s1

end Sys2Proof.Machine
end

