-- ==== Sys2Proof/Machine/Plans.lean ====
section
/-! DEFINITION. The commands of group 0x03: plans, runs, estimates, contexts and adapter training (Table 7.1, R171 to
R191). -/

namespace Sys2Proof.Machine

/-! ### Plans as objects (Table 7.8) -/

def PlanState.code : PlanState → Nat
  | .loaded => 1 | .binding => 2 | .bound => 3

/-- The plan of the header's berth that PLAN_ID names. -/
def planNamed (s : State) (f : Frame) : Option Plan := (getPlan s (par f 0 4)).filter (fun p => p.berth == f.berth)

/-- STATE_CONFLICT unless the plan is in one of the states. -/
def planIn (s : State) (f : Frame) (codes : List Nat) : Option Refuse :=
  let c := ((planNamed s f).map (fun p => p.state.code)).getD 0
  need (codes.contains c) (conflict kPlan (par f 0 4) c)

def planUses (f : Frame) : Uses := { objs := [(kPlan, par f 0 4)] }

/-- Units of the group (R171): PLAN, and ADAPT for adapter commands. -/
def planUnits : Nat := 2 ^ 16
def adaptUnits : Nat := 2 ^ 16 + 2 ^ 17

/-! ### PLAN_LOAD, PLAN_DELETE, PLAN_INFO -/

def cmdPlanLoad : CmdSpec :=
  { opcode := 0x0300, cls := 1
    units := fun _ _ => planUnits
    check := fun s f => firstSome
      [ parRefCheck s f 0 [1, 2, 3], need (decide (256 ≤ (parRef f 0).length ∧ (parRef f 0).length ≤ 1073741824)) (badBytes 16 8 256 1073741824), noTail f 32 ]
    objects := fun s f => refRts s f (parRef f 0)
    uses := fun _ f => { refs := [parRef f 0], sources := [parRef f 0], fetch := if (parRef f 0).kind == 3 then [(0, parRef f 0)] else [] }
    depth := fun _ _ => 2
    work := fun s a =>
      let b := a.frame.berth
      let img := refData s a 0 (parRef a.frame 0)
      match imageCheck s b img (parRef a.frame 0).length with
      | some r => (s, failOut r)
      | none =>
        if 64 ≤ s.plans.length then (s, failOut (noResource 0x0302 0 1))
        else
          let id := newId s s.lastPlan
          let p : Plan := { id := id, berth := b, image := img, size := imgSram img, lengths := List.replicate (imgContexts img) 0 }
          (useFresh { s with plans := s.plans ++ [p], lastPlan := id }, okOut (toLE 4 id) []) }

def cmdPlanDelete : CmdSpec :=
  { opcode := 0x0303, cls := 1
    units := fun _ _ => planUnits
    check := fun _ f => firstSome [ rsv f 4 4, noTail f 8 ]
    objects := fun s f => planIn s f [1]
    work := fun s a => ({ s with plans := s.plans.filter (fun p => p.id != par a.frame 0 4) }, okOut [] []) }

/-- Accepted commands that use the plan, `skip` apart. -/
def planActive (s : State) (id skip : Nat) : Nat := (s.cmds.active.filter (fun a => a.id != skip && a.objs.contains (kPlan, id))).length

def cmdPlanInfo : CmdSpec :=
  { opcode := 0x0304, cls := 0
    units := fun _ _ => planUnits
    check := fun _ f => firstSome [ rsv f 4 4, noTail f 8 ]
    objects := fun s f => planIn s f [1, 2, 3]
    work := fun s a =>
      match planNamed s a.frame with
      | none => (s, failOut (conflict kPlan (par a.frame 0 4) 0))
      | some p => (s, okOut (toLE 2 p.state.code ++ toLE 1 (imgParts p.image) ++ toLE 1 (imgPart p.image) ++ toLE 4 (planActive s p.id a.id)
          ++ toLE 8 (imgSram p.image) ++ toLE 8 p.steps ++ setId p.image) []) }

/-! ### PLAN_BIND and PLAN_UNBIND (R178, R179) -/

def bindCount (f : Frame) : Nat := par f 4 4
def bindPeers (f : Frame) : Nat := par f 8 4

/-- Binding `i` of the payload: slot, hold, offset. -/
def bindingAt (f : Frame) (i : Nat) : Nat × Nat × Nat := (pay f (16 * i) 4, pay f (16 * i + 4) 4, pay f (16 * i + 8) 8)

def bindingsOf (f : Frame) : List (Nat × Nat × Nat) := (List.range (bindCount f)).map (bindingAt f)

/-- Peer record `i`: module, plan. -/
def peerAt (f : Frame) (i : Nat) : Nat × Nat :=
  let o := 16 * bindCount f + 8 * i
  (pay f o 2, pay f (o + 4) 4)

def peersOf (f : Frame) : List (Nat × Nat) := (List.range (bindPeers f)).map (peerAt f)

/-- The hold of the berth that a binding names. -/
def bindHold (s : State) (f : Frame) (h : Nat) : Option Hold := (getHold s h).filter (fun x => x.berth == f.berth)

/-- The checks on binding `i` of a plan's image. -/
def bindingCheck (s : State) (f : Frame) (img : Bytes) (i : Nat) : Option Refuse :=
  let b := bindingAt f i
  let t := slotRec img b.1
  firstSome
    [ need (decide (b.1 < recCount img 1) && !((bindingsOf f).take i).any (fun x => x.1 == b.1)) (badBytes (payLoc f (16 * i)) 4 0 (recCount img 1 - 1)),
      (match bindHold s f b.2.1 with
       | none => none
       | some h => firstSome
          [ need (t.sram || h.quay == t.quay) (badBytes (payLoc f (16 * i + 4)) 4 0 (2 ^ 32 - 1)),
            need (b.2.2 % 4096 == 0 && decide (b.2.2 + t.bytes ≤ h.size)) (badBytes (payLoc f (16 * i + 8)) 8 0 (h.size - t.bytes)) ]) ]

/-- The largest A of R134 over the projections of the plan's EXPERT operations at CAPACITY rows. -/
def planAct (s : State) (b : Nat) (img : Bytes) : Nat :=
  maxNat ((List.range (recCount img 3)).map (fun i =>
    if opKind img i = 2 then
      let fmtA := opF img i 12 1
      let sh := shiftOf s b (opF img i 15 1)
      let o := codeBits (opF img i 13 1) / 8
      maxNat ((List.range (expertCount img i)).flatMap (fun e =>
        (repsOf img (opF img i 8 4 + e)).flatMap (fun r => [r.up, r.down].map (fun sl => actBytes (slotRec img sl) fmtA sh (opF img i 18 2) o))))
    else 0))

/-- A peer part is BOUND and of the same set: on this module as its plan shows, elsewhere only when the module is reachable
and says so (free: another module's state). -/
def peerBound (s : State) (img : Bytes) (i : Nat) (p : Nat × Nat) : Bool :=
  if p.1 = moduleNo s then ((getPlan s p.2).map (fun q => q.state == .bound && setId q.image == setId img)).getD false
  else decide (routePorts s p.1 ≠ []) && Config.choose (s.fresh + i)

/-- The SRAM area at binding: CONST, then every WHERE 1 slot from its hold. -/
def bindSlots (s : State) (img : Bytes) : List (Nat × Nat × Nat) → Mem → Refuse ⊕ Mem
  | [], m => .inr m
  | (slot, h, off) :: l, m =>
    let t := slotRec img slot
    if !t.sram then bindSlots s img l m
    else
      match getHold s h with
      | none => bindSlots s img l m
      | some hd =>
        match holdBytes s hd off t.bytes with
        | .inl r => .inl r
        | .inr bs => bindSlots s img l (memWrite m t.addr bs)

def constMem (img : Bytes) : Mem := memWrite [] 0 (slice img (sectionOf img 6).off (sectionOf img 6).count)

/-- Back to LOADED with the area freed. -/
def unbindPlan (id : Nat) (s : State) : State :=
  modPlan id (fun p => { p with state := .loaded, mem := [], bindings := [], peers := [], steps := 0, copy := 0, lengths := List.replicate (imgContexts p.image) 0 }) s

def cmdPlanBind : CmdSpec :=
  { opcode := 0x0301, cls := 1
    units := fun _ _ => planUnits
    check := fun s f => firstSome
      [ (match planNamed s f with
         | none => none
         | some p => firstSome
            [ inRange f 4 4 (recCount p.image 1) (recCount p.image 1),
              (if imgPart p.image = 0 ∧ 1 < imgParts p.image then inRange f 8 4 (imgParts p.image - 1) (imgParts p.image - 1) else inRange f 8 4 0 0) ]),
        rsv f 12 4, noTail f 16, payloadIs f (16 * bindCount f + 8 * bindPeers f),
        (match planNamed s f with
         | none => none
         | some p => (List.range (bindCount f)).findSome? (bindingCheck s f p.image)),
        (List.range (bindPeers f)).findSome? (fun i =>
          firstSome [ payIn f (16 * bindCount f + 8 * i) 2 0 4095, payIn f (16 * bindCount f + 8 * i + 2) 2 0 0 ]) ]
    objects := fun s f => firstSome
      [ planIn s f [1],
        (bindingsOf f).findSome? (fun b =>
          match bindHold s f b.2.1 with
          | none => some (conflict kHold b.2.1 0)
          | some h => need h.isSealed (conflict kHold b.2.1 (holdCode h))) ]
    needs := fun s f =>
      match planNamed s f with
      | none => none
      | some p =>
        let act := actUnits s f.berth * 262144
        firstSome
          [ need (decide (imgSram p.image ≤ sramFree s f.berth)) (noResource 0x0300 (sramFree s f.berth) (imgSram p.image)),
            need (decide (planAct s f.berth p.image ≤ act)) (noResource 0x0301 act (planAct s f.berth p.image)),
            need ((peersOf f).zipIdx.all (fun x => peerBound s p.image x.2 x.1)) (noResource 0x0303 0 (bindPeers f)) ]
    uses := fun _ f => { objs := (kPlan, par f 0 4) :: (bindingsOf f).map (fun b => (kHold, b.2.1)) }
    take := fun s a => modPlan (par a.frame 0 4) (fun p => { p with state := .binding, bindings := bindingsOf a.frame, peers := peersOf a.frame }) (useFresh s)
    depth := fun _ _ => 1
    slow := fun _ _ => true
    work := fun s a =>
      match planNamed s a.frame with
      | none => (s, failOut (conflict kPlan (par a.frame 0 4) 0))
      | some p =>
        match bindSlots s p.image p.bindings (constMem p.image) with
        | .inl r => (unbindPlan p.id s, failOut r)
        | .inr m =>
          -- the copy writes the area in whole words, so its poisoned words become valid (R373)
          let s1 := { s with mem := { s.mem with poisoned := s.mem.poisoned.filter (fun w => Config.planOf w != some p.id) } }
          (modPlan p.id (fun p => { p with state := .bound, mem := m, lengths := List.replicate (imgContexts p.image) 0, steps := 0, copy := 0 }) s1, okOut [] [])
    fail := fun s a _ => unbindPlan (par a.frame 0 4) s }

/-- Part 0 of the set, on another module, is BOUND (its state is free here). -/
def headBound (s : State) (p : Plan) : Bool := imgPart p.image != 0 && Config.choose s.fresh

def cmdPlanUnbind : CmdSpec :=
  { opcode := 0x0302, cls := 1
    units := fun _ _ => planUnits
    check := fun _ f => firstSome [ rsv f 4 4, noTail f 8 ]
    objects := fun s f => firstSome
      [ planIn s f [3], need (!objInUse s kPlan (par f 0 4)) (conflict kPlan (par f 0 4) 3),
        need (!((planNamed s f).map (headBound s)).getD false) (conflict kPlan (par f 0 4) 3) ]
    work := fun s a => (unbindPlan (par a.frame 0 4) (useFresh s), okOut [] []) }

/-! ### Rows and contexts (R183, R184) -/

/-- The references of PLAN_RUN and ADAPT_STEP. -/
def inputRef (f : Frame) : DRef := parRef f 16
def tokensRef (f : Frame) : DRef := parRef f 48
def outputRef (f : Frame) : DRef := parRef f 80

def runRows (f : Frame) : Nat := par f 4 4
def runEntryOf (p : Plan) (f : Frame) : Entry := entryRec p.image (par f 8 2)

/-- The bytes of the token records of a run: from its data reference, or from a WORK message. -/
def tokenBytes (s : State) (a : Active) : Bytes :=
  if a.origin.isSome then a.frame.payload.drop 12 else refData s a 1 (tokensRef a.frame)

/-- (context, position) of each row. -/
def tokensIn (bs : Bytes) (rows : Nat) : List (Nat × Nat) := (List.range rows).map (fun i => (getLE bs (8 * i) 2, getLE bs (8 * i + 4) 4))

/-- BAD_PARAM of R185: reference `ref`, byte offset `off`. -/
def dataBad (ref off n mn mx : Nat) : Refuse := (stBadParam, .field (0x40000000 + ref * 0x01000000 + off) 0 0 (8 * n - 1) mn mx)

/-- The position a row must carry: one more than the row before it of the same context, or at most LENGTH. -/
def tokenRow (p : Plan) (l : List (Nat × Nat)) (bs : Bytes) (i : Nat) : Option Refuse :=
  let x := l.getD i (0, 0)
  let prev := ((l.take i).filter (fun y => y.1 == x.1)).getLast?
  let lo := (prev.map (fun y => y.2 + 1)).getD 0
  let hi := min ((prev.map (fun y => y.2 + 1)).getD (p.lengths.getD x.1 0)) (imgMaxPos p.image - 1)
  firstSome
    [ need (decide (x.1 < imgContexts p.image)) (dataBad 1 (8 * i) 2 0 (imgContexts p.image - 1)),
      need (getLE bs (8 * i + 2) 2 == 0) (dataBad 1 (8 * i + 2) 2 0 0),
      need (decide (lo ≤ x.2 ∧ x.2 ≤ hi)) (dataBad 1 (8 * i + 4) 4 lo hi) ]

/-- What breaks R183 or R185 in the data a run has fetched. -/
def runDataCheck (p : Plan) (en : Entry) (rows : Nat) (input tokens : Bytes) : Option Refuse :=
  firstSome
    [ (if en.inKind = 0 then (List.range rows).findSome? (fun i =>
        need (decide (getLE input (4 * i) 4 < en.vocab)) (dataBad 0 (4 * i) 4 0 (en.vocab - 1))) else none),
      (if imgContexts p.image = 0 then none
       else (List.range rows).findSome? (tokenRow p (tokensIn tokens rows) tokens)) ]

/-- LENGTHs after a run: the last position + 1 on success, the first position otherwise. -/
def newLengths (ok : Bool) (toks : List (Nat × Nat)) (old : List Nat) : List Nat :=
  old.zipIdx.map (fun x =>
    let mine := toks.filter (fun t => t.1 == x.2)
    match (if ok then mine.getLast? else mine.head?) with
    | some t => if ok then t.2 + 1 else t.2
    | none => x.1)

/-- The contexts a command names, as far as they are known before it fetches anything; none stands for all of them. -/
def contextsOf (s : State) (a : Active) : Option (List Nat) :=
  if a.opcode = 0x0307 then some ((List.range (par a.frame 6 2)).map (fun i => par a.frame 4 2 + i))
  else
    let n := runRows a.frame
    let k := (tokensRef a.frame).kind
    if a.origin.isSome ∨ k ≤ 2 ∨ a.fetched.any (fun x => x.1 == 1) then some ((tokensIn (tokenBytes s a) n).map (fun x => x.1)) else none

def namesContexts (op : Nat) : Bool := op == 0x0305 || op == 0x0310 || op == 0x0307

def shareContext (x y : Option (List Nat)) : Bool :=
  match x, y with
  | some a, some b => a.any b.contains
  | some a, none => !a.isEmpty
  | none, some b => !b.isEmpty
  | none, none => true

/-- PHASE 1 behind an earlier command of the same plan on a common context (R184), or, for a training step, behind an
earlier one of the plan (R190). -/
def planWait (s : State) (a : Active) : Nat :=
  if s.cmds.active.any (fun b => decide (b.id < a.id) && par b.frame 0 4 == par a.frame 0 4 && b.frame.berth == a.frame.berth && namesContexts b.opcode
      && ((a.opcode == 0x0310 && b.opcode == 0x0310) || shareContext (contextsOf s a) (contextsOf s b))) then 1 else 3

def cmdContextClear : CmdSpec :=
  { opcode := 0x0307, cls := 1
    units := fun _ _ => planUnits
    check := fun s f =>
      match planNamed s f with
      | none => noTail f 8
      | some p => firstSome [ inRange f 4 2 0 (imgContexts p.image - 1), inRange f 6 2 0 (imgContexts p.image - par f 4 2), noTail f 8 ]
    objects := fun s f => planIn s f [3]
    uses := fun _ f => planUses f
    wait := planWait
    work := fun s a =>
      let lo := par a.frame 4 2
      let n := par a.frame 6 2
      (modPlan (par a.frame 0 4) (fun p => { p with lengths := p.lengths.zipIdx.map (fun x => if lo ≤ x.2 ∧ x.2 < lo + n then 0 else x.1) }) s, okOut [] []) }

/-! ### PLAN_RUN (Table 7.9, R185 to R187) -/

def elemWidth (fmt : Nat) : Nat := codeBits fmt / 8

def inputBytes (en : Entry) (rows : Nat) : Nat := rows * (if en.inKind = 0 then 4 else en.inWidth * elemWidth en.inFmt)
def outputBytes (en : Entry) (rows : Nat) : Nat := rows * en.outWidth * elemWidth en.outFmt

/-- ENTRY, ROWS and the INPUT and TOKENS references of PLAN_RUN (`kind` 0) and ADAPT_STEP (`kind` 1). -/
def rowsCheck (s : State) (f : Frame) (kind : Nat) : Option Refuse :=
  match planNamed s f with
  | none => inRange f 4 4 0 4096
  | some p =>
    let en := runEntryOf p f
    let ctx := decide (0 < imgContexts p.image)
    firstSome
      [ need (imgPart p.image == 0) (badBytes 0 4 0 (2 ^ 32 - 1)), inRange f 4 4 0 en.maxRows,
        need (decide (par f 8 2 < recCount p.image 4) && en.kind == kind) (badBytes 8 2 0 (recCount p.image 4 - 1)), rsv f 10 6,
        parRefCheck s f 16 [1, 2, 3], refLength 16 (inputRef f) (inputBytes en (runRows f)),
        parRefCheck s f 48 (if ctx then [1, 2, 3] else [0]), (if ctx then refLength 48 (tokensRef f) (8 * runRows f) else none) ]

def runFetch (l : List (Nat × DRef)) : List (Nat × DRef) := l.filter (fun x => x.2.kind == 3)

/-- Table 7.10 up to the report. -/
def runBody (en : Entry) (rows stages elapsed bound sels experts dropped nan : Nat) (media : Nat) (rep : Report) : Bytes :=
  toLE 4 rows ++ toLE 4 en.outWidth ++ toLE 1 en.outFmt ++ zeros 3 ++ toLE 4 stages ++ toLE 8 elapsed ++ toLE 8 bound ++ toLE 8 sels
    ++ toLE 4 (clampTo 32 experts) ++ toLE 4 (clampTo 32 dropped) ++ toLE 4 (clampTo 32 nan) ++ zeros 4 ++ toLE 8 media ++ rep.bytes

/-- The berth's PLAN_STATS take a completed run (Table 7.13). -/
def countPlanRun (b rows : Nat) (r : RunSt) (s : State) : State :=
  modBerthStats b (fun x =>
    { x with planRuns := satAdd 64 x.planRuns 1, planRows := satAdd 64 x.planRows rows, selections := satAdd 64 x.selections r.selections,
             dropped := satAdd 32 x.dropped r.dropped, nanRoute := satAdd 32 x.nanRoute r.nanRoute }) s

/-- The environment of a run of a command. -/
def envOf (s : State) (a : Active) (p : Plan) : RunEnv :=
  let rows := runRows a.frame
  { plan := p, berth := a.frame.berth, rows := rows, tokens := if imgContexts p.image = 0 then [] else tokensIn (tokenBytes s a) rows,
    entry := runEntryOf p a.frame, copy := a.snap.headD p.copy, use := s.fresh * 2 ^ 40
    next := if a.origin.isSome then (if getLE a.frame.payload 8 2 = 0xFFFF then none else some (getLE a.frame.payload 8 2)) else (p.peers.head?).map (fun x => x.1) }

/-- The plan after a run: its memory, the counts of its operations, its contexts. -/
def settleRun (a : Active) (e : RunEnv) (r : RunSt) (ok : Bool) (s : State) : State :=
  let s1 := modPlan e.plan.id (fun p => { p with mem := r.mem, runs := r.runs, lengths := newLengths ok e.tokens p.lengths }) s
  let s2 := countRun r (useFresh s1)
  addTotals a.frame.berth r.report s2

/-- The bytes of the output rows. -/
def outRows (en : Entry) (r : RunSt) : Bytes := (r.out.map (elemBytes en.outFmt)).flatten

/-- One run on this module: the state after it, the run, and the refusal of its data or its error. -/
def runHere (s : State) (a : Active) (p : Plan) (input : Bytes) : State × RunSt × Option Refuse :=
  let e := envOf s a p
  match runDataCheck p e.entry e.rows input (tokenBytes s a) with
  | some r => (s, { mem := p.mem, runs := p.runs }, some r)
  | none =>
    let r := runEntry s e input
    (settleRun a e r r.err.isNone s, r, r.err)

/-- The result body of this module's own part. -/
def bodyOf (s : State) (a : Active) (p : Plan) (r : RunSt) : Bytes :=
  runBody (runEntryOf p a.frame) (runRows a.frame) r.stages (s.now - a.acceptedLocal) r.bound r.selections r.experts r.dropped r.nanRoute r.mediaBytes r.report

/-- Delivers the output rows and gives the work's outcome. -/
def finishRun (s : State) (a : Active) (p : Plan) (r : RunSt) : State × WorkOut :=
  let en := runEntryOf p a.frame
  let s1 := countPlanRun a.frame.berth (runRows a.frame) r s
  let rows := outRows en r
  let o := outputRef a.frame
  let s2 := if o.kind = 0 then s1 else putRef a.frame.berth o rows s1
  (s2, alarmOut s2 a.frame.berth r.report (okOut [] (bodyOf s2 a p r ++ (if o.kind = 0 then rows else []))))

/-! #### Plan sets (R187) -/

/-- WORK for part `i` of a set: the parameter block with the part's own PLAN_ID; its part of the payload names the
module before it and the one after it (log entry 61), then the token records. -/
def sendPart (s0 : State) (a : Active) (mods : List (Nat × Nat)) (i : Nat) (s : State) : State :=
  let m := mods.getD i (0, 0)
  let prev := if i = 0 then moduleNo s else (mods.getD (i - 1) (0, 0)).1
  let next := ((mods[i + 1]?).map (fun x => x.1)).getD 0xFFFF
  sendWork m.1 a.opcode a.frame.berth a.frame.tag.toNat (toLE 4 m.2 ++ (padTo 112 a.frame.params).drop 4)
    (peerPrefix prev [next] ++ tokenBytes s0 a) s

/-- Part 0 of a set runs its own operations and sends the rows on; the outcome waits for the other parts. -/
def startSet (s : State) (a : Active) : State :=
  match planNamed s a.frame with
  | none => s
  | some p =>
    if imgParts p.image ≤ 1 ∨ a.origin.isSome ∨ runRows a.frame = 0 then s
    else
      let h := runHere s a p (refData s a 0 (inputRef a.frame))
      match h.2.2 with
      | some r => modActive a.id (fun a => { a with out := some (failOut r) }) h.1
      | none =>
        let body := bodyOf h.1 a p h.2.1
        let s1 := modActive a.id (fun a => { a with out := some (alarmOut h.1 a.frame.berth h.2.1.report (okOut [] body)), hawser := true }) h.1
        let w : FleetWork := { cmd := a.id, waiting := p.peers.map (fun x => x.1) }
        let s2 := { s1 with hawser := { s1.hawser with works := s1.hawser.works ++ [w] } }
        let s3 := (List.range p.peers.length).foldl (fun st i => sendPart s a p.peers i st) s2
        match p.peers.head? with
        | some x => openFlow a.id x.1 a.frame.berth 0 h.2.1.sent.flatten s3
        | none => s3

/-- A member of a set waits for its rows. -/
def startMember (s : State) (a : Active) : State :=
  match planNamed s a.frame with
  | none => s
  | some p =>
    let n := inputBytes (runEntryOf p a.frame) (runRows a.frame)
    let st : FleetStep := { sends := [], recvs := [(getLE a.frame.payload 0 2, 0, n)], add := false }
    let w : FleetWork := { cmd := a.id, steps := if n = 0 then [] else [st], sent := true }
    modActive a.id (fun a => { a with hawser := true }) { s with hawser := { s.hawser with works := s.hawser.works ++ [w] } }

/-- The sum of the 4- or 8-byte fields of two bodies that count, at the offsets of Table 7.10. -/
def addBody (x y : Bytes) : Bytes :=
  let add (o n : Nat) (acc : Bytes) : Bytes := putBytes acc o (toLE n (clampTo (8 * n) (getLE x o n + getLE y o n)))
  let rep := [(64, 4), (68, 4), (72, 8), (80, 8), (88, 4), (92, 4), (96, 4), (100, 4), (104, 4), (108, 4), (112, 4), (116, 2), (118, 2)]
  let sums := ([(12, 4), (24, 8), (32, 8), (40, 4), (44, 4), (48, 4), (56, 8)] ++ rep).foldl (fun acc (f : Nat × Nat) => add f.1 f.2 acc) (x.take 128)
  let sh := worseShadow (getLE x 120 4) (getLE y 120 4)
  let first := if getLE x 124 2 = 0 then getLE y 124 2 else getLE x 124 2
  putBytes (putBytes sums 120 (toLE 4 sh)) 124 (toLE 2 first)

/-- The outcome of a set's run at part 0: counters of all parts, the rows of the last (R187). -/
def finishSet (s : State) (a : Active) (p : Plan) (own : WorkOut) : State × WorkOut :=
  match fleetFailure s a.id with
  | some o => (s, o)
  | none =>
    let rs := ((getWork s a.id).map (fun w => w.results)).getD []
    let body := rs.foldl (fun acc r => addBody acc (r.2.drop 32)) own.payload
    let last := ((p.peers.getLast?).bind (fun x => rs.find? (fun r => r.1 == x.1))).map (fun r => r.2)
    let rows := (last.getD []).drop 160
    let alarm := if own.status = stQuantAlarm then some own.detail else (rs.find? (fun r => getLE r.2 0 2 == stQuantAlarm)).map (fun r => readDetail r.2)
    let s1 := modBerthStats a.frame.berth (fun x => { x with
      planRuns := satAdd 64 x.planRuns 1, planRows := satAdd 64 x.planRows (runRows a.frame), selections := satAdd 64 x.selections (getLE body 32 8)
      dropped := satAdd 32 x.dropped (getLE body 44 4), nanRoute := satAdd 32 x.nanRoute (getLE body 48 4) }) s
    let o := outputRef a.frame
    let head := putBytes body 4 (slice (last.getD []) 36 5)
    let out := okOut [] (head ++ (if o.kind = 0 then rows else []))
    (if o.kind = 0 then s1 else putRef a.frame.berth o rows s1,
      match alarm with
      | some d => { out with status := stQuantAlarm, detail := d }
      | none => out)

/-- The member's own part at its completion: its rows go on to the next part, its body and output rows to the origin. -/
def finishMember (s : State) (a : Active) (p : Plan) : State × WorkOut :=
  let n := inputBytes (runEntryOf p a.frame) (runRows a.frame)
  let input := ((getWork s a.id).map (fun w => memRead w.buf 0 n)).getD []
  let h := runHere s a p input
  match h.2.2 with
  | some r => (h.1, failOut r)
  | none =>
    let next := getLE a.frame.payload 8 2
    let s1 := if next = 0xFFFF then h.1 else openFlow a.id next a.frame.berth 0 h.2.1.sent.flatten h.1
    (s1, alarmOut s1 a.frame.berth h.2.1.report (okOut [] (bodyOf s1 a p h.2.1 ++ outRows (runEntryOf p a.frame) h.2.1)))

/-- The contexts a failed run leaves (R183). -/
def failRun (s : State) (a : Active) : State :=
  modPlan (par a.frame 0 4) (fun p => { p with lengths := newLengths false (if imgContexts p.image = 0 then [] else tokensIn (tokenBytes s a) (runRows a.frame)) p.lengths }) s

/-- The quay arrays are on only in P0; crane arrays also in P1 (Table 2.12). -/
def runDepth (s : State) (f : Frame) : Nat :=
  match planNamed s f with
  | none => 1
  | some p => if (List.range (recCount p.image 3)).any (fun i => opKind p.image i == 2) then 0 else 1

def cmdPlanRun : CmdSpec :=
  { opcode := 0x0305, cls := 1, result := true
    units := fun _ _ => planUnits
    check := fun s f => firstSome
      [ rowsCheck s f 0, parRefCheck s f 80 [0, 2, 3],
        (match planNamed s f with
         | none => none
         | some p => if (outputRef f).kind = 0 then none else refLength 80 (outputRef f) (outputBytes (runEntryOf p f) (runRows f))), noTail f 112 ]
    objects := fun s f => firstSome [ planIn s f [3], refRts s f (inputRef f), refRts s f (tokensRef f), refRts s f (outputRef f) ]
    size := fun s f =>
      match planNamed s f with
      | none => 128
      | some p => 128 + (if (outputRef f).kind = 0 then outputBytes (runEntryOf p f) (runRows f) else 0)
    uses := fun s f =>
      { objs := [(kPlan, par f 0 4)], refs := if isMember f then [] else [inputRef f, tokensRef f, outputRef f]
        sources := if isMember f then [] else [inputRef f, tokensRef f], fetch := if isMember f then [] else runFetch [(0, inputRef f), (1, tokensRef f)]
        snap := ((planNamed s f).map (fun p => [p.copy])).getD [] }
    take := fun s a => if ((planNamed s a.frame).map (fun p => decide (1 < imgParts p.image))).getD false then modActive a.id (fun a => { a with hawser := true }) s else s
    wait := planWait
    depth := runDepth
    slow := fun _ _ => true
    start := fun s a => if a.origin.isSome then startMember s a else if (runFetch [(0, inputRef a.frame), (1, tokensRef a.frame)]).isEmpty then startSet s a else s
    arrived := fun s a => startSet s a
    done := fun s a =>
      match getWork s a.id with
      | none => true
      | some w => if a.origin.isSome then w.steps.isEmpty || (fleetFailure s a.id).isSome else fleetDone s a.id
    work := fun s a =>
      match planNamed s a.frame with
      | none => (s, failOut (conflict kPlan (par a.frame 0 4) 0))
      | some p =>
        if a.origin.isSome then
          (match fleetFailure s a.id with
           | some o => (failRun s a, o)
           | none => finishMember s a p)
        else
          match a.out with
          | some o => if isSuccess o.status || o.status == stQuantAlarm then finishSet s a p o else (s, o)
          | none =>
            let h := runHere s a p (refData s a 0 (inputRef a.frame))
            match h.2.2 with
            | some r => (h.1, failOut r)
            | none => finishRun h.1 a p h.2.1
    fail := fun s a _ => failRun s a
    memberParams := 112
    memberCheck := fun s f => planIn s f [3] }

/-! ### PLAN_ESTIMATE (R188) -/

/-- An EXPERT operation's load on one quay: weight bytes, and link bytes to and from the quay. In MODE 0 every expert is
selected with p = 1 − (1 − TOP_K ÷ E)^ROWS, its bytes divided equally among its replicas, and the ROWS × TOP_K selected rows
spread evenly over the experts. In MODE 1 each selection is a distinct expert, on the quay that holds the most of the
layer's experts. -/
structure EstLoad where
  media : Nat := 0
  down  : Nat := 0
  up    : Nat := 0
  deriving DecidableEq, Repr

def EstLoad.plus (x y : EstLoad) : EstLoad := { media := x.media + y.media, down := x.down + y.down, up := x.up + y.up }

/-- Link bytes of the two projections of a replica: for the expansion tables, and for each row down and up. -/
def linkParts (s : State) (b : Nat) (img : Bytes) (i : Nat) (r : Rep7) : Nat × Nat × Nat :=
  let fmtA := opF img i 12 1
  let sh := shiftOf s b (opF img i 15 1)
  let o := codeBits (opF img i 13 1) / 8
  let u := slotRec img r.up
  let d := slotRec img r.down
  (2 * expTable fmtA, actTok u fmtA sh + actTok d fmtA sh, (u.n + d.n) * o)

/-- MODE 0 on quay `q`, in twelfths so that up to four replicas share without a remainder. -/
def meanLoad (s : State) (b : Nat) (img : Bytes) (i rows q : Nat) : EstLoad :=
  let ex := expertCount img i
  let k := opF img (opF img i 4 4) 8 1
  let den := ex ^ rows
  let num := den - (ex - k) ^ rows
  let mine := (List.range ex).flatMap (fun e =>
    let reps := repsOf img (opF img i 8 4 + e)
    (reps.filter (fun r => r.quay == q)).map (fun r => (12 / max 1 reps.length, r)))
  let total (g : Rep7 → Nat) : Nat := sumNat (mine.map (fun x => x.1 * g x.2))
  let often (v : Nat) : Nat := ceilDiv (v * num) (12 * max 1 den)
  let perRow (v : Nat) : Nat := ceilDiv (v * rows * k) (12 * max 1 ex)
  { media := often (total (fun r => r.cost))
    down := often (total (fun r => (linkParts s b img i r).1)) + perRow (total (fun r => (linkParts s b img i r).2.1))
    up := perRow (total (fun r => (linkParts s b img i r).2.2)) }

/-- The replicas of an EXPERT operation's experts on a quay. -/
def expertsOn (img : Bytes) (i q : Nat) : List Rep7 :=
  (List.range (expertCount img i)).filterMap (fun e => (repsOf img (opF img i 8 4 + e)).find? (fun r => r.quay == q))

/-- MODE 1 on quay `q`: the costliest of the quay's experts, one row each, when it is the quay that holds the most. -/
def worstLoad (s : State) (b : Nat) (img : Bytes) (i rows q : Nat) : EstLoad :=
  let k := opF img (opF img i 4 4) 8 1
  let best := (List.range 24).foldl (fun acc x => if (expertsOn img i acc).length < (expertsOn img i x).length then x else acc) 0
  if q ≠ best then {}
  else
    let l := (sortBy (fun (x y : Rep7) => decide (y.cost ≤ x.cost)) (expertsOn img i q)).take (rows * k)
    { media := sumNat (l.map (fun r => r.cost))
      down := sumNat (l.map (fun r => (linkParts s b img i r).1 + (linkParts s b img i r).2.1))
      up := sumNat (l.map (fun r => (linkParts s b img i r).2.2)) }

/-- SRAM bytes of an operation with M = ROWS and `ctx` positions already in each context. -/
def estSram (img : Bytes) (first i rows ctx : Nat) : Nat :=
  match opKind img i with
  | 1 =>
    let d := opDesc img i
    let extra := firstPass img first i rows
    d.bytesRead rows extra (d.choice rows extra)
  | 4 => rows * (ctx + 1) * imgPosBytes img
  | _ => 0

/-- The terms of one stage: media, link, SRAM, bridge and transfer. -/
structure EstTerms where
  media  : Nat
  link   : Nat
  sram   : Nat
  bridge : Nat
  hop    : Nat
  deriving DecidableEq, Repr

def EstTerms.bound (t : EstTerms) : Nat := max t.hop (max (max t.media t.link) (max t.sram t.bridge))

def estStage (s : State) (b : Nat) (p : Plan) (first : Nat) (ops : List Nat) (rows mode ctx use : Nat) : EstTerms :=
  let img := p.image
  let ex := ops.filter (fun i => opKind img i == 2)
  let load (q : Nat) : EstLoad := (ex.map (fun i => if mode = 0 then meanLoad s b img i rows q else worstLoad s b img i rows q)).foldl EstLoad.plus {}
  let loads := (List.range 24).map load
  let sram := sumNat (ops.map (fun i => estSram img first i rows ctx))
  let sent := sumNat ((ops.filter (fun i => opKind img i == 8)).map (fun i => rows * opF img i 4 4))
  { media := timeNs (maxNat (loads.map (fun l => l.media))) 1536 10, link := timeNs (maxNat (loads.map (fun l => max l.down l.up))) 128 1
    sram := timeNs sram (sramRate s) 1, bridge := timeNs (Config.amount use % (sram + 1)) 1024 1
    hop := if sent = 0 then 0 else hopBound s ((p.peers.head?).map (fun x => x.1)) sent }

def estBody (terms : List EstTerms) (rows : Nat) : Bytes :=
  let sum (g : EstTerms → Nat) : Nat := sumNat (terms.map g)
  let b := sum EstTerms.bound
  toLE 8 (sum (fun t => t.media)) ++ toLE 8 (sum (fun t => t.link)) ++ toLE 8 (sum (fun t => t.sram)) ++ toLE 8 (sum (fun t => t.bridge))
    ++ toLE 8 b ++ toLE 4 terms.length ++ toLE 4 (f32Bits (fmtFp32.div (Num.ofNat (rows * 1000000000)) (Num.ofNat b)))

def cmdPlanEstimate : CmdSpec :=
  { opcode := 0x0306, cls := 0
    units := fun _ _ => planUnits
    check := fun s f =>
      match planNamed s f with
      | none => noTail f 16
      | some p => firstSome
          [ inRange f 4 2 0 (recCount p.image 4 - 1), inRange f 6 1 0 1, rsv f 7 1, inRange f 8 4 0 (entryRec p.image (par f 4 2)).maxRows,
            inRange f 12 4 0 (imgMaxPos p.image), noTail f 16 ]
    objects := fun s f => planIn s f [1, 3]
    work := fun s a =>
      match planNamed s a.frame with
      | none => (s, failOut (conflict kPlan (par a.frame 0 4) 0))
      | some p =>
        let f := a.frame
        let en := entryRec p.image (par f 4 2)
        let ops := (List.range (recCount p.image 3)).filter (fun i => decide (en.first ≤ i ∧ i ≤ en.last))
        let stages := (ops.map (opStage p.image)).eraseDups
        let terms := stages.map (fun st => estStage s f.berth p en.first (ops.filter (fun i => opStage p.image i == st)) (par f 8 4) (par f 6 1) (par f 12 4) (s.fresh + st))
        (useFresh s, okOut (estBody terms (par f 8 4)) []) }

/-! ### Adapter training (R189, R190) -/

def adRank (img : Bytes) (i : Nat) : Nat := recField img 8 i 4 2
def adK (img : Bytes) (i : Nat) : Nat := (opDesc img (recField img 8 i 0 4)).k
def adN (img : Bytes) (i : Nat) : Nat := (opDesc img (recField img 8 i 0 4)).n
/-- Weights of an adapter: RANK × (K + N). -/
def adCount (img : Bytes) (i : Nat) : Nat := adRank img i * (adK img i + adN img i)
def adState (img : Bytes) (i : Nat) : Nat := recField img 8 i 32 8

/-- Master weights, A then B, of an adapter. -/
def adMaster (m : Mem) (img : Bytes) (i : Nat) : Bytes := memRead m (adState img i) (4 * adCount img i)

def adaptersAll (img : Bytes) : List Nat := List.range (recCount img 8)

/-- Writes the BF16 copy `c` of an adapter from its master weights. -/
def adCopy (img : Bytes) (i c : Nat) (m : Mem) : Mem :=
  let w := readElems 0xD (adMaster m img i) 0 (adCount img i)
  let na := adRank img i * adK img i
  let nb := adRank img i * adN img i
  memWrite (memWrite m (recField img 8 i 16 8 + c * 2 * na) (elemBytes 0xC ((w.take na).map fmtBf16.round)))
    (recField img 8 i 24 8 + c * 2 * nb) (elemBytes 0xC ((w.drop na).map fmtBf16.round))

/-- One AdamW update with decoupled decay: (w, m, v, g) to (w', m', v'), at step `t`. -/
def adamStep (lr b1 b2 eps decay : Num) (t : Nat) (w m v g : Num) : Num × Num × Num :=
  let pow (b : Num) : Num := (List.replicate t b).foldl fMul oneF
  let m1 := fAdd (fMul b1 m) (fMul (fAdd oneF b1.neg) g)
  let v1 := fAdd (fMul b2 v) (fMul (fAdd oneF b2.neg) (fMul g g))
  let mh := fDiv m1 (fAdd oneF (pow b1).neg)
  let vh := fDiv v1 (fAdd oneF (pow b2).neg)
  let up := fAdd (fDiv mh (fAdd (viaF32 Config.sqrtF vh) eps)) (fMul decay w)
  (fAdd w (fMul lr up).neg, m1, v1)

/-- An adapter's update from gradients `g`, and its other BF16 copy. -/
def adUpdate (img : Bytes) (i copy t : Nat) (lr b1 b2 eps decay : Num) (g : List Num) (m : Mem) : Mem :=
  let n := adCount img i
  let st := adState img i
  let rd (k : Nat) : List Num := readElems 0xD (memRead m (st + 4 * n * k) (4 * n)) 0 n
  let upd := (List.zip (List.zip (rd 0) (rd 1)) (List.zip (rd 2) g)).map (fun x => adamStep lr b1 b2 eps decay t x.1.1 x.1.2 x.2.1 x.2.2)
  let wr (k : Nat) (l : List Num) (mem : Mem) : Mem := memWrite mem (st + 4 * n * k) (elemBytes 0xD l)
  adCopy img i copy (wr 2 (upd.map (fun x => x.2.2)) (wr 1 (upd.map (fun x => x.2.1)) (wr 0 (upd.map (fun x => x.1)) m)))

/-- The gradient of adapter `i`, weight `j`: the manual names the loss and not how a compiled plan differentiates it, so
its value is free (log entry 42). -/
def gradient (use i j : Nat) : Num := f32 (Config.freeWord (use + 1 + i) j).toNat

/-- Cross-entropy of one row of logits against a target. -/
def rowLoss (use no : Nat) (l : List Num) (target : Nat) : Num :=
  let top := l.foldl (fun a b => a.maxOf b) (l.headD Num.zero)
  let total := sumF32 use no (l.map (fun v => fExp (fAdd v top.neg)))
  fAdd (viaF32 Config.logF total) (fAdd top (l.getD target Num.zero).neg)

def targetsRef (f : Frame) : DRef := parRef f 80

/-- The work of a training step whose data is in order. -/
def adaptWork (s : State) (a : Active) (p : Plan) (targets : Bytes) : State × WorkOut :=
  let f := a.frame
  let h := runHere s a p (refData s a 0 (inputRef f))
  match h.2.2 with
  | some r => (h.1, failOut r)
  | none =>
    let s1 := h.1
    let r := h.2.1
    let img := p.image
    let use := s.fresh * 2 ^ 40
    let rows := ((List.range (runRows f)).map (fun i => (i, getLE targets (4 * i) 4))).filter (fun x => x.2 != 0xFFFFFFFF)
    let cnt := rows.length
    let loss := fDiv (sumF32 use 0 (rows.map (fun x => rowLoss use (1 + x.1) (r.out.getD x.1 []) x.2))) (Num.ofNat cnt)
    let gs := (adaptersAll img).map (fun i => (List.range (adCount img i)).map (gradient use i))
    let norm := viaF32 Config.sqrtF (sumF32 use 500000 (gs.flatten.map (fun g => fMul g g)))
    let q (o : Nat) : Num := f32 (par f o 4)
    let clip := q 132
    let scaled := if clip.lt norm then gs.map (fun l => l.map (fun g => fMul g (fDiv clip norm))) else gs
    let body := bodyOf s1 a p r
    let s2 := countPlanRun f.berth (runRows f) r (useFresh s1)
    if cnt = 0 then
      (s2, alarmOut s2 f.berth r.report (okOut [] (body ++ zeros 4 ++ toLE 4 0 ++ zeros 4 ++ zeros 4 ++ toLE 8 p.steps)))
    else
      let step := p.steps + 1
      let upd (mem : Mem) (i : Nat) : Mem := adUpdate img i (1 - p.copy) step (q 112) (q 116) (q 120) (q 124) (q 128) (scaled.getD i []) mem
      let s3 := modPlan p.id (fun p => { p with mem := (adaptersAll img).foldl upd p.mem, steps := step, copy := 1 - p.copy }) s2
      (s3, alarmOut s3 f.berth r.report (okOut []
        (body ++ toLE 4 (f32Bits loss) ++ toLE 4 cnt ++ toLE 4 (f32Bits norm) ++ zeros 4 ++ toLE 8 step)))

def cmdAdaptStep : CmdSpec :=
  { opcode := 0x0310, cls := 1, result := true
    units := fun _ _ => adaptUnits
    check := fun s f => firstSome
      [ rowsCheck s f 1, parRefCheck s f 80 [1, 2, 3], refLength 80 (targetsRef f) (4 * runRows f), rsv f 136 4, noTail f 140 ]
    objects := fun s f => firstSome [ planIn s f [3], refRts s f (inputRef f), refRts s f (tokensRef f), refRts s f (targetsRef f) ]
    size := fun _ _ => 152
    uses := fun s f =>
      { objs := [(kPlan, par f 0 4)], refs := [inputRef f, tokensRef f, targetsRef f], sources := [inputRef f, tokensRef f, targetsRef f],
        fetch := runFetch [(0, inputRef f), (1, tokensRef f), (2, targetsRef f)], snap := ((planNamed s f).map (fun p => [p.copy])).getD [] }
    wait := planWait
    depth := runDepth
    slow := fun _ _ => true
    work := fun s a =>
      match planNamed s a.frame with
      | none => (s, failOut (conflict kPlan (par a.frame 0 4) 0))
      | some p =>
        let en := runEntryOf p a.frame
        let tg := refData s a 2 (targetsRef a.frame)
        let bad := (List.range (runRows a.frame)).findSome? (fun i =>
          let v := getLE tg (4 * i) 4
          need (decide (v < en.vocab) || v == 0xFFFFFFFF) (dataBad 2 (4 * i) 4 0 (en.vocab - 1)))
        match bad with
        | some r => (s, failOut r)
        | none => adaptWork s { a with snap := [p.copy] } p tg
    fail := fun s a _ => failRun s a }

def cmdAdaptExport : CmdSpec :=
  { opcode := 0x0311, cls := 1, result := true
    units := fun _ _ => adaptUnits
    check := fun s f => firstSome
      [ rsv f 4 4, parRefCheck s f 8 [0, 2, 3],
        (match planNamed s f with
         | none => none
         | some p => if (parRef f 8).kind = 0 then none else refLength 8 (parRef f 8) (sumNat ((adaptersAll p.image).map (fun i => 4 * adCount p.image i)))),
        noTail f 40 ]
    objects := fun s f => firstSome [ planIn s f [3], refRts s f (parRef f 8) ]
    size := fun s f =>
      match planNamed s f with
      | none => 8
      | some p => 8 + (if (parRef f 8).kind = 0 then sumNat ((adaptersAll p.image).map (fun i => 4 * adCount p.image i)) else 0)
    uses := fun _ f => { planUses f with refs := [parRef f 8] }
    depth := fun _ _ => 2
    slow := fun _ _ => true
    work := fun s a =>
      match planNamed s a.frame with
      | none => (s, failOut (conflict kPlan (par a.frame 0 4) 0))
      | some p =>
        let data := (adaptersAll p.image).flatMap (adMaster p.mem p.image)
        let r := parRef a.frame 8
        (putRef a.frame.berth r data s, okOut [] (toLE 8 data.length ++ (if r.kind = 0 then data else []))) }

/-- Adapter `i` back at its initial values: A from CONST, B and both moments zero (R190). -/
def adReset (img : Bytes) (m : Mem) (i : Nat) : Mem :=
  let na := adRank img i * adK img i
  let nb := adRank img i * adN img i
  let a := memRead (constMem img) (recField img 8 i 16 8) (2 * na)
  let m1 := memWrite (memWrite m (recField img 8 i 16 8) a) (recField img 8 i 16 8 + 2 * na) a
  let m2 := memClear m1 (recField img 8 i 24 8) (4 * nb)
  memWrite (memClear m2 (adState img i) (12 * (na + nb))) (adState img i) (elemBytes 0xD (readElems 0xC a 0 na))

def cmdAdaptReset : CmdSpec :=
  { opcode := 0x0312, cls := 1
    units := fun _ _ => adaptUnits
    check := fun _ f => firstSome [ rsv f 4 4, noTail f 8 ]
    objects := fun s f => planIn s f [3]
    uses := fun _ f => planUses f
    depth := fun _ _ => 2
    work := fun s a => (modPlan (par a.frame 0 4) (fun p => { p with mem := (adaptersAll p.image).foldl (adReset p.image) p.mem, copy := 0 }) s, okOut [] []) }

end Sys2Proof.Machine
end

