-- ==== Sys2Proof/Machine/VaultCore.lean ====
section
/-! DEFINITION. What the vault is made of: checkpoints and their chains of versions, digests, manifests, space, intake,
consolidation and retirement (R255 to R268, R273 to R276, R282, R289). -/

namespace Sys2Proof.Machine

def CkptState.code : CkptState → Nat
  | .openC => 1 | .committing => 2 | .captured => 3 | .consolidated => 4 | .broken => 5 | .retired => 0

/-- VAULT_CONTROL bits of a berth. -/
def vaultCtl (s : State) (b lo w : Nat) : Nat := bits (getBerth s b).regs.vaultControl.toNat lo w

/-! ### Checkpoints -/

/-- Checkpoints that are not NONE. -/
def Vault.live (v : Vault) : List Ckpt := v.ckpts.filter (fun c => c.state != .retired)

def Vault.ckpt (v : Vault) (id : Nat) : Option Ckpt := v.ckpts.find? (fun c => c.id == id)

def Vault.modCkpt (v : Vault) (id : Nat) (g : Ckpt → Ckpt) : Vault := { v with ckpts := v.ckpts.map (fun c => if c.id = id then g c else c) }

def modCkpt (b id : Nat) (g : Ckpt → Ckpt) (s : State) : State := modVault b (fun v => v.modCkpt id g) s

def Ckpt.usable (c : Ckpt) : Bool := c.state == .captured || c.state == .consolidated

/-- The one with the highest CKPT_ID. -/
def newestOf (l : List Ckpt) : Option Ckpt :=
  l.foldl (fun acc c => match acc with
    | none => some c
    | some d => if d.id < c.id then some c else some d) none

def oldestOf (l : List Ckpt) : Option Ckpt :=
  l.foldl (fun acc c => match acc with
    | none => some c
    | some d => if c.id < d.id then some c else some d) none

/-- The newest CAPTURED or CONSOLIDATED checkpoint. -/
def Vault.newest (v : Vault) : Option Ckpt := newestOf (v.ckpts.filter Ckpt.usable)

def Ckpt.tensor (c : Ckpt) (name : BitVec 64) : Option Tensor := c.tensors.find? (fun t => t.name == name)

/-- The checkpoint that the header's berth and CKPT_ID name. -/
def ckptNamed (s : State) (f : Frame) : Option Ckpt :=
  ((getVault s f.berth).bind (fun v => v.ckpt (par f 0 4))).filter (fun c => c.state != .retired)

/-- STATE_CONFLICT unless the checkpoint is in one of the states. -/
def ckptIn (s : State) (f : Frame) (codes : List Nat) : Option Refuse :=
  let c := ((ckptNamed s f).map (fun c => c.state.code)).getD 0
  need (codes.contains c) (conflict kCkpt (par f 0 4) c)

/-- The berth has a vault (R252). -/
def hasVault (s : State) (f : Frame) : Option Refuse := need (getVault s f.berth).isSome conflictNone

/-- Accepted commands of the berth that use a checkpoint. -/
def ckptInUse (s : State) (b id : Nat) : Bool := s.cmds.active.any (fun a => a.frame.berth == b && a.objs.contains (kCkpt, id))

/-! ### Rows, forms and bytes (R257, R264, R265) -/

def Tensor.rows (t : Tensor) : Nat := if t.rowBytes = 0 then 0 else t.bytes / t.rowBytes

/-- Bytes that a stored version takes. -/
def Tensor.stored (t : Tensor) : Nat :=
  if t.form = 1 then t.bytes + 16 * t.rows
  else if t.form = 2 then ceilDiv t.rows 8 + t.changed * t.rowBytes + 16 * t.rows
  else 0

def Tensor.full (t : Tensor) : Nat := t.bytes + 16 * t.rows

def manifestLen (n : Nat) : Nat := 128 + 128 * n

def Tensor.received (t : Tensor) : Nat := sumNat (t.got.map (fun g => g.2))

/-- A SAME tensor takes no intake; the others have received every byte. -/
def Tensor.complete (t : Tensor) : Bool := t.mode == 3 || decide (t.bytes ≤ t.received)

/-- The first 16 bytes of the row's SHA3-512 (R264). -/
def rowPrint (m : Mem) (rowBytes i : Nat) : Bytes := (sha3 (memRead m (i * rowBytes) rowBytes)).take 16

/-- Row `i` differs from the parent's. -/
def rowChanged (t : Tensor) (parent : Mem) (i : Nat) : Bool := rowPrint t.data t.rowBytes i != rowPrint parent t.rowBytes i

/-- Every byte of row `i` has been received. -/
def rowReceived (t : Tensor) (i : Nat) : Bool :=
  decide (t.rowBytes ≤ sumNat (t.got.map (fun g => min (g.1 + g.2) ((i + 1) * t.rowBytes) - max g.1 (i * t.rowBytes))))

/-- The version a tensor's PARENT names. -/
def Vault.parentVer (v : Vault) (t : Tensor) : Option Tensor := (v.ckpt t.parent).bind (fun c => c.tensor t.name)

/-- The tensor as it is stored at commit: all rows changed makes it FULL, none SAME (R265). -/
def finalTensor (v : Vault) (t : Tensor) : Tensor :=
  if t.form = 2 then
    match v.parentVer t with
    | none => t
    | some p =>
      let ch := (List.range t.rows).filter (rowChanged t p.data)
      if ch.length = t.rows then { t with form := 1, chain := 0, parent := 0, changed := 0, frac := some (t.rows, t.rows) }
      else if ch.isEmpty then { t with form := 3, chain := p.chain, changed := 0, data := p.data, frac := some (0, t.rows) }
      else
        let merged := ch.foldl (fun m i => memWrite (memClear m (i * t.rowBytes) t.rowBytes) (i * t.rowBytes) (memRead t.data (i * t.rowBytes) t.rowBytes)) p.data
        { t with chain := p.chain + 1, changed := ch.length, data := merged, frac := some (ch.length, t.rows) }
  else t

/-- Bytes programmed for a tensor of an OPEN capture so far. -/
def openBytes (v : Vault) (t : Tensor) : Nat :=
  if t.form = 1 then t.received + (if t.complete then 16 * t.rows else 0)
  else if t.form = 2 then
    match v.parentVer t with
    | none => t.received
    | some p => if t.complete then (finalTensor v t).stored else ((List.range t.rows).filter (fun i => rowReceived t i && rowChanged t p.data i)).length * t.rowBytes
  else 0

/-! ### Chains and space -/

/-- The checkpoints that the version of a tensor needs, besides its own; TLC copies need none. -/
def chainOf (v : Vault) : Nat → Ckpt → Tensor → List Nat
  | 0, _, _ => []
  | k + 1, c, t =>
    if c.tlc || t.form == 1 then []
    else
      match v.ckpt t.parent with
      | none => []
      | some p =>
        match p.tensor t.name with
        | none => []
        | some pt => p.id :: chainOf v k p pt

def Vault.chain (v : Vault) (c : Ckpt) (t : Tensor) : List Nat := chainOf v (v.ckpts.length + 1) c t

/-- Some checkpoint that is not NONE needs this version. -/
def Vault.needs (v : Vault) (id : Nat) (name : BitVec 64) : Bool :=
  v.live.any (fun c => c.tensors.any (fun t => t.name == name && (v.chain c t).contains id))

/-- Frees retired checkpoints that no chain needs (R274, R277, R281). -/
def Vault.gc (v : Vault) (braced : Bool) : Vault :=
  { v with ckpts := v.ckpts.filter (fun c => c.state != .retired || (c.deferred && braced) || c.tensors.any (fun t => v.needs c.id t.name)) }

def Vault.retire (v : Vault) (id : Nat) : Vault := v.modCkpt id (fun c => { c with state := .retired, kept := false, pinned := false })

/-- pSLC bytes in use. -/
def pslcUsed (s : State) (v : Vault) : Nat :=
  let one (c : Ckpt) : Nat :=
    if c.tlc then 0
    else match c.state with
      | .retired =>
        if c.deferred && s.dev.state == .braced then c.stored + sumNat (c.tensors.map (openBytes v))
        else sumNat ((c.tensors.filter (fun t => v.needs c.id t.name)).map Tensor.stored)
      | .openC => sumNat (c.tensors.map (openBytes v))
      | .committing => sumNat (c.tensors.map (openBytes v)) + manifestLen c.tensors.length
      | .captured => c.stored + manifestLen c.tensors.length
      | .consolidated => 0
      | .broken => if c.stored = 0 then sumNat (c.tensors.map (openBytes v)) else c.stored + manifestLen c.tensors.length
  sumNat (v.ckpts.map one)

/-- TLC bytes in use: each copy once, and the manifests. -/
def tlcUsed (v : Vault) : Nat :=
  let keep := v.ckpts.filter (fun c => c.tlc)
  let vers := keep.flatMap (fun c => (c.tensors.filter (fun t => c.state != .retired || v.needs c.id t.name)).map (fun t => ((t.name, t.copy), t.full)))
  sumNat (vers.eraseDups.map (fun x => x.2)) + sumNat ((keep.filter (fun c => c.state != .retired)).map (fun c => manifestLen c.tensors.length))

/-- Bytes that wait in staging for free pSLC (R260, R262). -/
def stagingFill (s : State) (v : Vault) : Nat := pslcUsed s v - v.pslc

/-! ### Digests and manifests (R263, Tables 10.7, 10.8) -/

/-- The SHA3-512 of each MiB. -/
def chunkDigests : Nat → Bytes → Bytes
  | 0, _ => []
  | k + 1, bs => sha3 (bs.take 1048576) ++ chunkDigests k (bs.drop 1048576)

def digestOf (bs : Bytes) : Bytes := sha3 (toLE 8 bs.length ++ chunkDigests (ceilDiv bs.length 1048576) bs)

def tensorDigest (t : Tensor) : BitVec 512 := BitVec.ofNat 512 (ofLE (digestOf (memRead t.data 0 t.bytes)))

def entryBytes8 (t : Tensor) : Bytes :=
  toLE 8 t.name.toNat ++ toLE 8 t.bytes ++ toLE 8 t.offset ++ toLE 4 t.rowBytes ++ toLE 1 t.form ++ toLE 1 t.fmt ++ toLE 1 t.chain ++ zeros 1
    ++ toLE 8 (if t.form = 2 then t.changed else 0) ++ toLE 4 t.parent ++ zeros 4 ++ toLE 64 t.digest.toNat ++ zeros 16

/-- The manifest of a checkpoint, its DIGEST included. -/
def manifestOf (c : Ckpt) : Bytes :=
  let head := toLE 4 0x4D544C56 ++ toLE 2 1 ++ zeros 2 ++ toLE 4 c.id ++ toLE 4 c.tensors.length ++ toLE 8 c.step ++ toLE 8 c.commitTime ++ toLE 8 c.intake
    ++ toLE 8 c.stored ++ zeros 16
  let rest := c.tensors.flatMap entryBytes8
  head ++ sha3 (head ++ zeros 64 ++ rest) ++ rest

def manifestDigest (m : Bytes) : Bytes := slice m 64 64

def manifestOk (m : Bytes) : Bool := sha3 (m.take 64 ++ zeros 64 ++ m.drop 128) == manifestDigest m

/-! ### Notices -/

/-- VAULT_EVENT (R289). -/
def vaultEvent (b ev id step : Nat) (s : State) : State :=
  if vaultCtl s b 49 1 = 1 then berthNotice b 0x0681 (toLE 2 ev ++ zeros 2 ++ toLE 4 id ++ toLE 8 step ++ toLE 8 (ptpNow s)) [] s else s

/-- Event 6 when pSLC use passes 90 %. -/
def checkLow (b : Nat) (s : State) : State :=
  match getVault s b with
  | none => s
  | some v =>
    let low := decide (9 * v.pslc < 10 * pslcUsed s v)
    let s1 := modVault b (fun v => { v with low90 := low }) s
    if low && !v.low90 then vaultEvent b 6 ((v.newest.map (fun c => c.id)).getD 0) ((v.newest.map (fun c => c.step)).getD 0) s1 else s1

def modVstats (b : Nat) (g : VaultStats → VaultStats) (s : State) : State := modBerth b (fun x => { x with vstats := g x.vstats }) s

def digestFail (b : Nat) (s : State) : State := modVstats b (fun x => { x with digestFails := satAdd 16 x.digestFails 1 }) s

/-! ### Lost quays (R145, R262) -/

/-- A LOST quay that holds a chunk of the checkpoint's stored data: chunk c lies on quay (c + CKPT_ID) mod 24. -/
def ckptLost (s : State) (c : Ckpt) : Option Nat :=
  (List.range (min 24 (ceilDiv c.stored 1048576))).findSome? (fun i => let q := (i + c.id) % 24; if quayLost s q then some q else none)

/-- MEDIA_UE of a tensor whose chain needs a LOST quay; LOGICAL is its intake offset. -/
def tensorLost (s : State) (v : Vault) (c : Ckpt) (t : Tensor) : Option Refuse :=
  ((c.id :: v.chain c t).findSome? (fun id => (v.ckpt id).bind (ckptLost s))).map (fun q =>
    (stMediaUe, .media c.id 2 q (BitVec.ofNat 64 t.offset) (BitVec.ofNat 64 q)))

/-! ### Intake (R258 to R262) -/

/-- What a write brings to one tensor: its bytes within the tensor, as (offset, bytes). -/
def tensorPart (t : Tensor) (off : Nat) (data : Bytes) : Option (Nat × Bytes) :=
  let lo := max off t.offset
  let hi := min (off + data.length) (t.offset + t.bytes)
  if t.mode = 3 ∨ hi ≤ lo then none else some (lo - t.offset, slice data (lo - off) (hi - lo))

def overlaps (t : Tensor) (p : Nat × Bytes) : Bool := t.got.any (fun g => decide (g.1 < p.1 + p.2.length ∧ p.1 < g.1 + g.2))

def putPart (t : Tensor) (off : Nat) (data : Bytes) : Tensor :=
  match tensorPart t off data with
  | none => t
  | some p => { t with data := memWrite t.data p.1 p.2, got := (p.1, p.2.length) :: t.got }

/-- A write into the intake region of an OPEN or BROKEN capture: nothing when it is discarded for want of staging. A write
to a BROKEN capture, or one that covers received bytes, changes nothing received. -/
def intakeWrite (b id off : Nat) (data : Bytes) (port : Nat) (s : State) : Option State :=
  match getVault s b with
  | none => some s
  | some v =>
    match v.ckpt id with
    | none => some s
    | some c =>
      let n := sumNat (c.tensors.map (fun t => ((tensorPart t off data).map (fun p => p.2.length)).getD 0))
      let counted := modVstats b (fun x => { x with hostBytes := satAdd 64 x.hostBytes n }) s
      if c.state ≠ .openC then some counted
      else if c.tensors.any (fun t => ((tensorPart t off data).map (overlaps t)).getD false) then
        some (modVstats b (fun x => { x with overlaps := satAdd 16 x.overlaps 1 }) (modCkpt b id (fun c => { c with state := .broken }) counted))
      else if s.dev.state ≠ .braced ∧ v.staging < stagingFill s v + n ∧ stagingFill s v ≠ 0 then
        none
      else
        let c1 := { c with
          tensors := c.tensors.map (fun t => putPart t off data), intake := c.intake + n, firstWrite := some (c.firstWrite.getD s.now)
          ports := if c.ports.contains port then c.ports else port :: c.ports }
        let s1 := modCkpt b id (fun _ => c1) counted
        match getVault s1 b with
        | none => some s1
        | some v1 =>
          if s.dev.state = .braced ∧ stagingFill s1 v1 ≠ 0 then some (modCkpt b id (fun c => { c with state := .broken }) s1)
          else some (checkLow b s1)

/-- A discard for want of staging counts its millisecond. -/
def stagingDiscard (b : Nat) (s : State) : State :=
  let ms := s.now / 1000000
  match getVault s b with
  | none => s
  | some v =>
    if v.fullMs = some ms then s
    else modVstats b (fun x => { x with stagingFull := satAdd 16 x.stagingFull 1 }) (modVault b (fun v => { v with fullMs := some ms }) s)

/-- The immediate value names a tensor that is complete: its digest is final now (R261). -/
def intakeImm (b id imm : Nat) (s : State) : State :=
  modCkpt b id (fun c => { c with tensors := c.tensors.zipIdx.map (fun x =>
    if x.2 = imm ∧ x.1.mode ≠ 3 ∧ x.1.complete ∧ !x.1.digested then { x.1 with digest := tensorDigest x.1, digested := true } else x.1) }) s

/-! ### Commit (R266, R282) -/

/-- The tensors with their digests over the bytes received; a SAME tensor has its parent's. -/
def withDigests (c : Ckpt) : Ckpt :=
  { c with tensors := c.tensors.map (fun t => if t.mode = 3 ∨ t.digested then t else { t with digest := tensorDigest t, digested := true }) }

/-- The checkpoint as its manifest gives it. -/
def sealCkpt (s : State) (v : Vault) (c : Ckpt) : Ckpt :=
  let d := withDigests c
  let ts := d.tensors.map (finalTensor v)
  let e : Ckpt := { d with tensors := ts, state := .captured, commitTime := ptpNow s, stored := sumNat (ts.map Tensor.stored) }
  { e with manifest := manifestOf e }

/-! ### Retirement and consolidation (R274 to R276) -/

/-- Retires the oldest of the listed checkpoints until at most `keep` are left; those in use stay. -/
def retireDown (s : State) (b keep : Nat) (own : Ckpt → Bool) : Nat → Vault → Vault
  | 0, v => v
  | k + 1, v =>
    let l := v.ckpts.filter (fun c => c.state == .consolidated && own c && !c.kept && !c.pinned)
    if l.length ≤ keep then v
    else
      match oldestOf (l.filter (fun c => !ckptInUse s b c.id)) with
      | none => v
      | some c => retireDown s b keep own k (v.retire c.id)

/-- R276 after a consolidation or a receipt; local checkpoints and replicas apart. -/
def applyKeep (s : State) (b : Nat) (v : Vault) : Vault :=
  let keep := vaultCtl s b 96 8
  let v1 := retireDown s b keep (fun c => !c.replica) v.ckpts.length v
  (retireDown s b keep (fun c => c.replica) v1.ckpts.length v1).gc (s.dev.state == .braced)

/-- Retires further checkpoints, oldest first, until `need` more bytes of TLC fit. -/
def makeTlcRoom (s : State) (b more : Nat) (own : Ckpt → Bool) : Nat → Vault → Vault
  | 0, v => v
  | k + 1, v =>
    if tlcUsed v + more ≤ v.tlc then v
    else
      match oldestOf (v.ckpts.filter (fun c => c.state == .consolidated && own c && !c.kept && !c.pinned && !ckptInUse s b c.id)) with
      | none => v
      | some c => makeTlcRoom s b more own k ((v.retire c.id).gc (s.dev.state == .braced))

/-- The TLC copy that a tensor's latest version already is. -/
def tlcCopy (v : Vault) : Nat → Tensor → Option Nat
  | 0, _ => none
  | k + 1, t =>
    if t.form ≠ 3 then none
    else
      match v.ckpt t.parent with
      | none => none
      | some p =>
        match p.tensor t.name with
        | none => none
        | some pt => if p.tlc then some pt.copy else tlcCopy v k pt

/-- A tensor in FULL form in TLC. -/
def consTensor (v : Vault) (id : Nat) (t : Tensor) : Tensor :=
  { t with form := 1, chain := 0, parent := 0, changed := 0, copy := (tlcCopy v (v.ckpts.length + 1) t).getD id }

def consCkpt (v : Vault) (c : Ckpt) : Ckpt :=
  let ts := c.tensors.map (consTensor v c.id)
  let e : Ckpt := { c with tensors := ts, state := .consolidated, tlc := true, stored := sumNat (ts.map Tensor.full) }
  { e with manifest := manifestOf e }

/-- The newest CAPTURED checkpoint below `limit`. -/
def newestCaptured (v : Vault) (limit : Option Nat) : Option Ckpt :=
  newestOf (v.ckpts.filter (fun c => c.state == .captured && (limit.map (fun l => decide (c.id < l))).getD true))

end Sys2Proof.Machine
end

