-- ==== Sys2Proof/Machine/Vault.lean ====
section
/-! DEFINITION. The vault's commands and its own activity (R252 to R283, R289). Replication stands in Repl. -/

namespace Sys2Proof.Machine

/-- VAULT (R252). -/
def vaultUnits : Nat := 2 ^ 19

/-- BAD_PARAM naming a field of list data: its body offset when the list lies in the payload, and 0x40000000 plus its
offset otherwise (log entry 65). -/
def listBad (f : Frame) (r : DRef) (off n mn mx : Nat) : Refuse :=
  (stBadParam, .field (if r.kind = 1 then payLoc f (r.offset + off) else 0x40000000 + off) 0 0 (8 * n - 1) mn mx)

/-! ### VAULT_CREATE, VAULT_DELETE, VAULT_INFO -/

def cmdVaultCreate : CmdSpec :=
  { opcode := 0x0600, cls := 2
    units := fun _ _ => vaultUnits
    brace := fun _ _ => true
    check := fun _ f =>
      let mult (o k mn mx : Nat) : Option Refuse := need (par f o 8 % k == 0 && decide (mn ≤ par f o 8 ∧ par f o 8 ≤ mx)) (badBytes o 8 mn mx)
      firstSome [ mult 0 37446746112 37446746112 7489349222400, mult 8 (2 ^ 30) (2 ^ 30) 131941395333120, mult 16 (2 ^ 20) 268435456 8589934592, noTail f 24 ]
    objects := fun s f => need (getVault s f.berth).isNone conflictNone
    needs := fun s f => firstSome
      [ allocCheck s f.berth (par f 8 8 + 3 * par f 0 8),
        need (decide (par f 16 8 ≤ sramFree s f.berth)) (noResource 0x0600 (sramFree s f.berth) (par f 16 8)) ]
    depth := fun _ _ => 1
    work := fun s a =>
      let f := a.frame
      let v : Vault := { berth := f.berth, pslc := par f 0 8, tlc := par f 8 8, staging := par f 16 8, consAt := ptpNow s }
      ({ s with vaults := s.vaults ++ [v] }, okOut (toLE 4 (ceilDiv (par f 8 8 + 3 * par f 0 8) (2 ^ 30))) []) }

def openCkpts (v : Vault) : List Ckpt := v.ckpts.filter (fun c => c.state == .openC || c.state == .committing)

/-- Replication is configured, as sender or receiver. -/
def Vault.replicates (v : Vault) : Bool := v.send.state != .off || v.recv.isSome

/-- An accepted command of the group uses the berth's vault. -/
def vaultInUse (s : State) (b : Nat) : Bool :=
  s.cmds.active.any (fun a => a.frame.berth == b && decide (0x0602 ≤ a.opcode ∧ a.opcode ≤ 0x0611))

def cmdVaultDelete : CmdSpec :=
  { opcode := 0x0601, cls := 2
    units := fun _ _ => vaultUnits
    brace := fun _ _ => true
    check := fun _ f => firstSome [ rsv f 0 8, noTail f 8 ]
    objects := fun s f =>
      match getVault s f.berth with
      | none => some conflictNone
      | some v => firstSome
          [ (openCkpts v).head?.map (fun c => conflict kCkpt c.id c.state.code), need (!v.replicates && !vaultInUse s f.berth) conflictNone ]
    depth := fun _ _ => 1
    work := fun s a =>
      let s1 := (((getVault s a.frame.berth).map (fun v => v.ckpts)).getD []).foldl (fun st c => dropRegion c.rkey st) s
      (wornUpdate { s1 with vaults := s.vaults.filter (fun v => v.berth != a.frame.berth) }, okOut [] []) }

def cmdVaultInfo : CmdSpec :=
  { opcode := 0x0602, cls := 0
    units := fun _ _ => vaultUnits
    check := fun _ f => firstSome [ rsv f 0 8, noTail f 8 ]
    objects := hasVault
    work := fun s a =>
      match getVault s a.frame.berth with
      | none => (s, failOut conflictNone)
      | some v =>
        let cons := newestOf (v.ckpts.filter (fun c => c.state == .consolidated))
        (s, okOut (toLE 8 v.pslc ++ toLE 8 (pslcUsed s v) ++ toLE 8 v.tlc ++ toLE 8 (tlcUsed v) ++ toLE 8 v.staging
          ++ toLE 4 ((v.newest.map (fun c => c.id)).getD 0) ++ toLE 4 ((cons.map (fun c => c.id)).getD 0) ++ toLE 8 ((v.newest.map (fun c => c.step)).getD 0)
          ++ toLE 8 (v.consAt + vaultCtl s v.berth 64 16 * 1000000000) ++ toLE 4 v.live.length ++ toLE 2 (openCkpts v).length ++ zeros 2) []) }

/-! ### VAULT_PLAN (R271) -/

def cmdVaultPlan : CmdSpec :=
  { opcode := 0x0603, cls := 0
    units := fun _ _ => vaultUnits
    check := fun _ f => firstSome
      [ inRange f 0 4 1000 3600000000, inRange f 4 4 1 65535, inRange f 8 1 1 8, rsv f 9 7,
        need (if par f 40 8 = 0 then par f 32 8 == 0 else par f 32 8 % par f 40 8 == 0) (badBytes 40 8 0 (par f 32 8)),
        inRange f 48 4 0 1000000, rsv f 52 4, noTail f 56 ]
    objects := hasVault
    work := fun s a =>
      let f := a.frame
      let stepUs := par f 0 4
      let ports := par f 8 1
      let fb := par f 16 8
      let dr := par f 40 8
      let db := par f 32 8
      let cons := vaultCtl s f.berth 64 16
      let changed := ceilDiv (dr * par f 48 4) 1000000
      let vh := fb + db
      let vw := fb + 16 * par f 24 8 + changed * (if dr = 0 then 0 else db / dr) + ceilDiv dr 8 + 16 * dr
      let vc := fb + 16 * par f 24 8 + db + 16 * dr
      let x := max (vh * 10) (vw * ports)
      let cap := ceilDiv (11 * x) (5000 * ports)
      let c := ceilDiv cap (1000 * stepUs)
      let i : Int := (par f 4 4 : Int) - c
      let ok := decide ((c : Int) ≤ i)
      let per := i.toNat * stepUs
      let wa := vw * 8640 * 1000000
      let wd := per * 1560281088
      let ca := vc * 86400
      let cd := cons * 4680843264
      let free (k : Nat) : Nat := Config.amount (s.fresh + k)
      let host := if per = 0 then free 0 else 2 * x / (ports * per)
      let ps := if per = 0 then free 1 else roundUp ((ceilDiv (cons * 1000000) per + 1) * vw) 37446746112
      let wear := if per = 0 then free 2 else 1000 * (wa * cd + ca * wd) / (wd * cd * 32760)
      (useFresh s, okOut (toLE 1 (if ok then 1 else 0) ++ zeros 3 ++ toLE 4 (if ok then i.toNat else 0) ++ toLE 4 (clampTo 32 c) ++ toLE 4 (clampTo 32 host)
        ++ toLE 8 (clampTo 64 cap) ++ toLE 8 (clampTo 64 vh) ++ toLE 8 (clampTo 64 vw) ++ toLE 8 (clampTo 64 vc) ++ toLE 8 (clampTo 64 ps)
        ++ toLE 8 (clampTo 64 ((vaultCtl s f.berth 96 8 + 1) * vc)) ++ toLE 4 (clampTo 32 wear) ++ zeros 4) []) }

/-! ### VAULT_BEGIN (R256, R257) -/

structure Decl where
  name  : Nat
  bytes : Nat
  row   : Nat
  mode  : Nat
  fmt   : Nat
  ppm   : Nat
  host  : Nat
  deriving DecidableEq, Repr

def declAt (bs : Bytes) (i : Nat) : Decl :=
  let o := 96 * i
  { name := getLE bs o 8, bytes := getLE bs (o + 8) 8, row := getLE bs (o + 16) 4, mode := getLE bs (o + 20) 1, fmt := getLE bs (o + 21) 1,
    ppm := getLE bs (o + 24) 4, host := getLE bs (o + 32) 64 }

def beginList (f : Frame) : DRef := parRef f 16
def beginCount (f : Frame) : Nat := par f 8 4

def declsOf (s : State) (f : Frame) : List Decl :=
  let bs := refDataNow s f (beginList f)
  (List.range (beginCount f)).map (declAt bs)

/-- The fields of declaration `i`. -/
def declCheck (f : Frame) (bs : Bytes) (all : List Decl) (i : Nat) : Option Refuse :=
  let d := declAt bs i
  let bad (o n mn mx : Nat) : Refuse := listBad f (beginList f) (96 * i + o) n mn mx
  firstSome
    [ need (!(all.take i).any (fun e => e.name == d.name)) (bad 0 8 0 (2 ^ 64 - 1)),
      (if d.mode = 3 then need (d.bytes == 0) (bad 8 8 0 0) else need (decide (1 ≤ d.bytes ∧ d.bytes ≤ 2 ^ 40)) (bad 8 8 1 (2 ^ 40))),
      (if d.mode = 3 then need (d.row == 0) (bad 16 4 0 0) else need (d.row == 0 || (decide (d.row ≤ 16777216) && d.bytes % d.row == 0)) (bad 16 4 0 16777216)),
      need (decide (d.mode ≤ 3)) (bad 20 1 0 3), need (getLE bs (96 * i + 22) 2 == 0) (bad 22 2 0 0),
      need (decide (d.ppm ≤ 1000000)) (bad 24 4 0 1000000), need (getLE bs (96 * i + 28) 4 == 0) (bad 28 4 0 0) ]

def declBytes (l : List Decl) : Nat := sumNat (l.map (fun d => d.bytes))

def beginCheck (s : State) (f : Frame) : Option Refuse :=
  let v := getVault s f.berth
  let bs := refDataNow s f (beginList f)
  let l := declsOf s f
  let top := ((v.map (fun v => v.live)).getD []).foldl (fun m c => max m (c.step + 1)) 0
  firstSome
    [ need (decide (top ≤ par f 0 8)) (badBytes 0 8 top (2 ^ 64 - 1)), inRange f 8 4 1 65536, rsv f 12 4, parRefCheck s f 16 [1, 2, 3],
      refLength 16 (beginList f) (96 * beginCount f), noTail f 48, (List.range (beginCount f)).findSome? (declCheck f bs l),
      need (decide (declBytes l ≤ 2 ^ 44)) (badBytes 8 4 1 65536),
      v.bind (fun v => l.zipIdx.findSome? (fun x =>
        need (x.1.mode != 3 || (v.newest.bind (fun c => c.tensor (BitVec.ofNat 64 x.1.name))).isSome) (listBad f (beginList f) (96 * x.2 + 20) 1 0 2))) ]

/-- A version whose chain lies in no BROKEN checkpoint. -/
def soundVersion (v : Vault) (c : Ckpt) (t : Tensor) : Bool :=
  (c.id :: v.chain c t).all (fun id => ((v.ckpt id).map (fun c => c.state != .broken)).getD false)

/-- The parent of R257. -/
def parentFor (v : Vault) (d : Decl) : Option (Ckpt × Tensor) :=
  v.newest.bind (fun c => (c.tensor (BitVec.ofNat 64 d.name)).bind (fun t =>
    if soundVersion v c t ∧ t.bytes = d.bytes ∧ t.rowBytes = d.row then some (c, t) else none))

/-- MODE 2 gives DELTA; a tensor without rows has none (log entry 66). -/
def deltaOk (s : State) (b : Nat) (v : Vault) (d : Decl) : Bool :=
  d.row != 0 && ((parentFor v d).map (fun p => decide (p.2.chain < vaultCtl s b 80 6))).getD false

/-- The rows changed and the rows of the tensor's most recent DELTA version, as the newest checkpoint that holds the
tensor keeps them. -/
def history (v : Vault) (name : Nat) : Option (Nat × Nat) :=
  let n : BitVec 64 := BitVec.ofNat 64 name
  (newestOf (v.ckpts.filter (fun c => c.usable && (c.tensor n).isSome))).bind (fun c => (c.tensor n).bind (fun t => t.frac))

/-- The expected change is below DELTA_FRAC %. -/
def changesLittle (s : State) (b : Nat) (v : Vault) (d : Decl) : Bool :=
  match history v d.name with
  | some (ch, rows) => decide (100 * ch < vaultCtl s b 86 7 * rows)
  | none => decide (d.ppm < vaultCtl s b 86 7 * 10000)

def formFor (s : State) (b : Nat) (v : Vault) (d : Decl) : Nat :=
  if d.mode = 3 then 3
  else if d.mode = 1 then 1
  else if d.mode = 2 then (if deltaOk s b v d then 2 else 1)
  else if d.row ≠ 0 ∧ vaultCtl s b 112 16 * 2 ^ 20 ≤ d.bytes ∧ deltaOk s b v d ∧ changesLittle s b v d then 2 else 1

/-- The tensors of a capture, with intake offsets from `next`. -/
def beginTensors (s : State) (b : Nat) (v : Vault) : List Decl → Nat → List Tensor
  | [], _ => []
  | d :: l, next =>
    let form := formFor s b v d
    let name : BitVec 64 := BitVec.ofNat 64 d.name
    if form = 3 then
      let p := v.newest.bind (fun c => (c.tensor name).map (fun t => (c, t)))
      let t : Tensor := match p with
        | some (c, t) => { t with mode := 3, form := 3, fmt := d.fmt, changed := 0, parent := c.id, host := BitVec.ofNat 512 d.host, got := [], digested := true, copy := 0 }
        | none => { name := name, bytes := 0, offset := 0, rowBytes := 0, mode := 3, form := 3, fmt := d.fmt }
      t :: beginTensors s b v l next
    else
      let par1 := if form = 2 then ((parentFor v d).map (fun p => p.1.id)).getD 0 else 0
      let t : Tensor := { name := name, bytes := d.bytes, offset := next, rowBytes := d.row, mode := d.mode, form := form, fmt := d.fmt, parent := par1,
                          host := BitVec.ofNat 512 d.host, frac := history v d.name }
      t :: beginTensors s b v l (roundUp (next + d.bytes) 4096)

def regionBytes (ts : List Tensor) : Nat := maxNat ((ts.filter (fun t => t.mode != 3)).map (fun t => t.offset + t.bytes))

/-- V_w as if every tensor with intake were FULL (log entry 66). -/
def storeBytes (l : List Decl) : Nat := sumNat (l.map (fun d => d.bytes + (if d.row = 0 then 0 else 16 * (d.bytes / d.row)))) + manifestLen l.length

def tensorRecord (t : Tensor) : Bytes := toLE 8 (if t.mode = 3 then 2 ^ 64 - 1 else t.offset) ++ toLE 1 t.form ++ zeros 7

def cmdVaultBegin : CmdSpec :=
  { opcode := 0x0604, cls := 1
    units := fun _ _ => vaultUnits
    brace := fun s f =>
      match getVault s f.berth with
      | none => false
      | some v => (beginCheck s f).isNone && decide (v.pslc - pslcUsed s v < storeBytes (declsOf s f))
    check := beginCheck
    objects := fun s f => firstSome [ hasVault s f, refRts s f (beginList f) ]
    needs := fun s f =>
      match getVault s f.berth with
      | none => none
      | some v =>
        let st := storeBytes (declsOf s f)
        firstSome
          [ need (decide ((openCkpts v).length < 2)) (noResource 0x0603 0 1), need (decide (v.live.length < 1024)) (noResource 0x0602 0 1),
            need (decide (st ≤ v.pslc)) (noResource 0x0601 v.pslc st), need (decide ((regionsOf s f.berth).length < 256)) (noResource 7 0 1) ]
    uses := fun _ f => { refs := [beginList f], sources := [beginList f] }
    depth := fun _ _ => 2
    work := fun s a =>
      let f := a.frame
      let b := f.berth
      match getVault s b with
      | none => (s, failOut conflictNone)
      | some v =>
        let l := declsOf s f
        let ts := beginTensors s b v l 0
        let id := newId s v.lastId
        let rg := addRegion b 0 (regionBytes ts) true false (.intake id) (useFresh s)
        let c : Ckpt := { id := id, step := par f 0 8, state := .openC, tensors := ts, rkey := rg.2 }
        let s1 := modVault b (fun v => { v with ckpts := v.ckpts ++ [c], lastId := id, lastBegin := some (c.step, a.accepted), dueSent := false }) rg.1
        (s1, okOut (toLE 4 id ++ toLE 4 rg.2.toNat ++ toLE 8 (regionBytes ts) ++ toLE 8 (storeBytes l)) (ts.flatMap tensorRecord)) }

/-! ### VAULT_COMMIT and VAULT_CANCEL (R266 to R270) -/

def ckptUses (f : Frame) : Uses := { objs := [(kCkpt, par f 0 4)] }

/-- ⌈V_h ÷ (n_p × 50 GB/s)⌉ or ⌈V_w ÷ 500 GB/s⌉ in ns, the larger (R268, Table 1.12). -/
def captureBound (c : Ckpt) (vw : Nat) : Nat := max (ceilDiv c.intake (50 * max 1 c.ports.length)) (ceilDiv vw 500)

/-- GAP_STEPS (R270). -/
def gapSteps (s : State) (b : Nat) (v : Vault) (c : Ckpt) (elapsed : Nat) : Nat :=
  let us := vaultCtl s b 16 32
  if us = 0 then 0
  else match v.prevStep with
    | none => 0
    | some p => clampTo 32 (c.step - p + ceilDiv elapsed (1000 * us))

/-- A commit's bookkeeping: counters, the gap of R270 and event 1. -/
def afterCommit (b : Nat) (c : Ckpt) (elapsed gap : Nat) (s : State) : State :=
  let s1 := modVstats b (fun x => { x with captures := satAdd 32 x.captures 1, pslcBytes := satAdd 64 x.pslcBytes (c.stored + manifestLen c.tensors.length) }) s
  let s2 := modVault b (fun v => { v with prevStep := some c.step, lastElapsed := elapsed }) s1
  let loss := vaultCtl s b 0 16
  let s3 := if loss ≠ 0 ∧ loss < gap then
      vaultEvent b 1 c.id c.step (modVstats b (fun x => { x with boundMissed := satAdd 16 x.boundMissed 1 }) s2) else s2
  checkLow b s3

def breakCkpt (b id : Nat) (s : State) : State := modCkpt b id (fun c => { c with state := .broken }) s

def commitWork (s : State) (a : Active) : State × WorkOut :=
  let b := a.frame.berth
  let id := par a.frame 0 4
  match getVault s b with
  | none => (s, failOut conflictNone)
  | some v =>
    match v.ckpt id with
    | none => (s, failOut (conflict kCkpt id 0))
    | some c =>
      if stagingFill s v ≠ 0 then (breakCkpt b id s, { status := stBraced, detail := .none })
      else
        let d := withDigests c
        match d.tensors.find? (fun t => t.host != 0 && t.host != t.digest) with
        | some t => (breakCkpt b id s, failOut (stDigestMismatch, .integrity kCkpt id t.offset))
        | none =>
          match c.tensors.findSome? (fun t => if t.form = 2 then (v.parentVer t).bind (fun _ => ((v.chain c t).findSome? (fun p => (v.ckpt p).bind (ckptLost s))).map (fun q => (t, q))) else none) with
          | some (t, q) => (breakCkpt b id s, failOut (stMediaUe, .media id 2 q (BitVec.ofNat 64 t.offset) (BitVec.ofNat 64 q)))
          | none =>
            let e := sealCkpt s v c
            let elapsed := s.now - (c.firstWrite.getD a.acceptedLocal)
            let gap := gapSteps s b v c elapsed
            let vw := e.stored + manifestLen e.tensors.length
            let count (k : Nat) : Nat := (e.tensors.filter (fun t => t.form == k)).length
            let s1 := modCkpt b id (fun _ => e) { s with media := { s.media with journal := s.media.journal + 1 } }
            let s2 := if s.dev.state = .braced then mapCheckpoint s1 else s1
            (afterCommit b e elapsed gap s2,
              okOut [] (toLE 4 id ++ toLE 4 e.tensors.length ++ toLE 8 e.step ++ toLE 8 elapsed ++ toLE 8 (captureBound c vw) ++ toLE 8 c.intake ++ toLE 8 vw
                ++ toLE 4 (count 1) ++ toLE 4 (count 2) ++ toLE 4 (count 3) ++ toLE 4 gap ++ manifestDigest e.manifest))

def cmdVaultCommit : CmdSpec :=
  { opcode := 0x0605, cls := 1, result := true
    units := fun _ _ => vaultUnits
    check := fun _ f => firstSome [ rsv f 4 4, noTail f 8 ]
    objects := fun s f => firstSome
      [ hasVault s f, ckptIn s f [1],
        (ckptNamed s f).bind (fun c => need (c.tensors.all Tensor.complete) (conflict kCkpt c.id 1)) ]
    size := fun _ _ => 128
    uses := fun _ f => ckptUses f
    take := fun s a =>
      match ckptNamed s a.frame with
      | none => s
      | some c => modCkpt a.frame.berth c.id (fun c => { c with state := .committing }) (dropRegion c.rkey s)
    depth := fun _ _ => 1
    slow := fun _ _ => true
    done := fun s a => s.dev.state == .braced || ((getVault s a.frame.berth).map (fun v => stagingFill s v == 0)).getD true
    work := commitWork
    fail := fun s a _ => breakCkpt a.frame.berth (par a.frame 0 4) s }

def cmdVaultCancel : CmdSpec :=
  { opcode := 0x0606, cls := 1
    units := fun _ _ => vaultUnits
    check := fun _ f => firstSome [ rsv f 4 4, noTail f 8 ]
    objects := fun s f => firstSome [ hasVault s f, ckptIn s f [1, 5] ]
    uses := fun _ f => ckptUses f
    depth := fun _ _ => 1
    work := fun s a =>
      match ckptNamed s a.frame with
      | none => (s, failOut (conflict kCkpt (par a.frame 0 4) 0))
      | some c =>
        let br := s.dev.state == .braced
        (modVault a.frame.berth (fun v => ((v.modCkpt c.id (fun c => { c with deferred := br })).retire c.id).gc br) (dropRegion c.rkey s), okOut [] []) }

/-! ### Lists and manifests (R278) -/

def ckptRecord (c : Ckpt) : Bytes :=
  toLE 4 c.id ++ toLE 1 c.state.code ++ toLE 1 ((if c.kept then 1 else 0) + (if c.replica then 2 else 0) + (if c.acked then 4 else 0)) ++ zeros 2
    ++ toLE 8 c.step ++ toLE 8 c.commitTime ++ toLE 8 c.stored

def cmdVaultList : CmdSpec :=
  { opcode := 0x0607, cls := 1, result := true
    units := fun _ _ => vaultUnits
    check := fun _ f => firstSome [ rsv f 0 8, noTail f 8 ]
    objects := hasVault
    size := fun s f => 8 + 32 * ((getVault s f.berth).map (fun v => v.live.length)).getD 0
    work := fun s a =>
      match getVault s a.frame.berth with
      | none => (s, failOut conflictNone)
      | some v =>
        let l := sortBy (fun (x y : Ckpt) => decide (x.id ≤ y.id)) v.live
        (s, okOut [] (toLE 4 l.length ++ zeros 4 ++ l.flatMap ckptRecord)) }

/-- The manifest that was programmed, or for a capture that broke before, what the checkpoint holds (log entry 67). -/
def manifestNow (c : Ckpt) : Bytes := if c.manifest.isEmpty then manifestOf c else c.manifest

def cmdVaultManifest : CmdSpec :=
  { opcode := 0x0608, cls := 1, result := true
    units := fun _ _ => vaultUnits
    check := fun _ f => firstSome [ rsv f 4 4, noTail f 8 ]
    objects := fun s f => firstSome [ hasVault s f, ckptIn s f [3, 4, 5] ]
    size := fun s f => ((ckptNamed s f).map (fun c => manifestLen c.tensors.length)).getD 0
    uses := fun _ f => ckptUses f
    depth := fun _ _ => 1
    slow := fun _ _ => true
    work := fun s a =>
      match ckptNamed s a.frame with
      | none => (s, failOut (conflict kCkpt (par a.frame 0 4) 0))
      | some c => (s, okOut [] (manifestNow c)) }

/-! ### VAULT_RESTORE and VAULT_VERIFY (R279, R280) -/

def restoreCount (f : Frame) : Nat := par f 4 4
def restoreAll (f : Frame) : DRef := parRef f 16
def restoreList (f : Frame) : DRef := parRef f 48

/-- Entry `i` of the list: name and destination. -/
def restoreEntry (bs : Bytes) (i : Nat) : Nat × DRef := (getLE bs (48 * i) 8, readRef bs (48 * i + 16))

/-- A destination held in list data, checked as R73 checks one in the command. -/
def restoreEntryCheck (s : State) (f : Frame) (c : Ckpt) (bs : Bytes) (i : Nat) : Option Refuse :=
  let e := restoreEntry bs i
  let bad (o n mn mx : Nat) : Refuse := listBad f (restoreList f) (48 * i + o) n mn mx
  let r := e.2
  let reg := regionOf s f.berth r.rkey
  firstSome
    [ need (c.tensor (BitVec.ofNat 64 e.1)).isSome (bad 0 8 0 (2 ^ 64 - 1)), need (getLE bs (48 * i + 8) 8 == 0) (bad 8 8 0 0),
      need (r.kind == 2 || r.kind == 3) (bad 16 1 2 3), need (r.kind == 3 || r.qpn == 0) (bad 17 3 0 0),
      need (r.kind != 3 || (qpOf s f.berth r.qpn).isSome) (bad 17 3 0 0xFFFFFF), need (r.kind != 2 || reg.isSome) (bad 20 4 0 0xFFFFFFFF),
      (if r.kind = 2 then reg.bind (fun g => need (decide (r.offset + r.length ≤ g.length)) (bad 24 8 0 (g.length - r.length))) else none),
      (c.tensor (BitVec.ofNat 64 e.1)).bind (fun t => need (r.length == t.bytes) (bad 32 8 t.bytes t.bytes)), need (getLE bs (48 * i + 40) 8 == 0) (bad 40 8 0 0) ]

def layoutEnd (c : Ckpt) : Nat := maxNat (c.tensors.map (fun t => t.offset + t.bytes))

def restoreCheck (s : State) (f : Frame) : Option Refuse :=
  let n := restoreCount f
  firstSome
    [ inRange f 4 4 0 65536, rsv f 8 8, parRefCheck s f 16 (if n = 0 then [2, 3] else [0]),
      (if n = 0 then (ckptNamed s f).bind (fun c => refAtLeast 16 (restoreAll f) (layoutEnd c)) else none),
      parRefCheck s f 48 (if n = 0 then [0] else [1, 2, 3]), (if n = 0 then none else refLength 48 (restoreList f) (48 * n)), noTail f 80,
      (if n = 0 then none else (ckptNamed s f).bind (fun c => let bs := refDataNow s f (restoreList f); (List.range n).findSome? (restoreEntryCheck s f c bs))) ]

/-- Where each tensor goes, in manifest order; `bs` is the list that admission read (R73). -/
def restoreDests (f : Frame) (bs : Bytes) (c : Ckpt) : List (Tensor × DRef) :=
  if restoreCount f = 0 then c.tensors.map (fun t => (t, { restoreAll f with offset := (restoreAll f).offset + t.offset, length := t.bytes }))
  else
    let l := (List.range (restoreCount f)).map (restoreEntry bs)
    c.tensors.flatMap (fun t => (l.filter (fun e => e.1 == t.name.toNat)).map (fun e => (t, e.2)))

/-- What R279 finds wrong with a tensor. -/
def tensorFault (s : State) (v : Vault) (c : Ckpt) (t : Tensor) : Option Refuse :=
  match tensorLost s v c t with
  | some r => some r
  | none => need (tensorDigest t == t.digest) (stDigestMismatch, .integrity kCkpt c.id t.offset)

/-- The destination of a failing tensor, and of every one after it, holds undefined bytes: free ones. -/
def scramble (b use : Nat) : List (Tensor × DRef) → State → State
  | [], s => s
  | (t, r) :: l, s =>
    if r.kind = 2 then scramble b (use + 1) l (putRef b r ((List.range t.bytes).map (Config.freeByte use)) s) else scramble b (use + 1) l s

/-- Writes tensors in order until one fails. -/
def restoreGo (b : Nat) (v : Vault) (c : Ckpt) : List (Tensor × DRef) → State → State × Option Refuse
  | [], s => (s, none)
  | (t, r) :: l, s =>
    match tensorFault s v c t with
    | some e => (scramble b s.fresh ((t, r) :: l) s, some e)
    | none => restoreGo b v c l (putRef b r (memRead t.data 0 t.bytes) s)

/-- A digest that fails breaks the checkpoint and counts. -/
def digestBreak (b id : Nat) (r : Refuse) (s : State) : State :=
  if r.1 = stDigestMismatch then digestFail b (breakCkpt b id s) else s

def restoreWork (s : State) (a : Active) : State × WorkOut :=
  let f := a.frame
  let b := f.berth
  match getVault s b, ckptNamed s f with
  | some v, some c =>
    if !manifestOk c.manifest then
      let r : Refuse := (stDigestMismatch, .integrity kCkpt c.id 64)
      (digestBreak b c.id r s, failOut r)
    else
      let l := restoreDests f (keptBytes a.snap) c
      let z := restoreGo b v c l s
      match z.2 with
      | some r => (useFresh (digestBreak b c.id r z.1), failOut r)
      | none =>
        (z.1, okOut [] (toLE 4 c.id ++ toLE 4 l.length ++ toLE 8 c.step ++ toLE 8 (sumNat (l.map (fun x => x.1.bytes))) ++ toLE 8 (s.now - a.acceptedLocal)
          ++ manifestDigest c.manifest))
  | _, _ => (s, failOut (conflict kCkpt (par f 0 4) 0))

/-- The references that a restore's list holds, or its own. -/
def restoreRefs (s : State) (f : Frame) : List DRef :=
  [restoreAll f, restoreList f] ++ (if restoreCount f = 0 then [] else let bs := refDataNow s f (restoreList f); (List.range (restoreCount f)).map (fun i => (restoreEntry bs i).2))

def cmdVaultRestore : CmdSpec :=
  { opcode := 0x0609, cls := 1, result := true
    units := fun _ _ => vaultUnits
    check := restoreCheck
    objects := fun s f => firstSome [ hasVault s f, ckptIn s f [3, 4], (restoreRefs s f).findSome? (refRts s f) ]
    size := fun _ _ => 96
    uses := fun s f => { objs := [(kCkpt, par f 0 4)], refs := restoreRefs s f, sources := [restoreList f], snap := keepBytes (refDataNow s f (restoreList f)) }
    depth := fun _ _ => 1
    slow := fun _ _ => true
    work := restoreWork }

def verifyWork (s : State) (a : Active) : State × WorkOut :=
  let f := a.frame
  let b := f.berth
  match getVault s b, ckptNamed s f with
  | some v, some c =>
    let faults : List (Nat × Refuse) := c.tensors.zipIdx.filterMap (fun x => (tensorFault s v c x.1).map (fun r => (x.2, r)))
    let man : Option Refuse := need (manifestOk c.manifest) (stDigestMismatch, .integrity kCkpt c.id 64)
    let first : Option Refuse := match man, faults with
      | some r, _ => some r
      | none, x :: _ => some x.2
      | none, [] => none
    let body := toLE 4 c.id ++ toLE 4 c.tensors.length ++ toLE 8 (sumNat (c.tensors.map (fun t => t.bytes))) ++ toLE 4 faults.length
      ++ toLE 4 (((faults.head?).map (fun (x : Nat × Refuse) => x.1)).getD 0xFFFFFFFF)
    (match first with
     | none => (s, okOut [] body)
     | some r =>
       let s1 := breakCkpt b c.id s
       let s2 := if r.1 = stDigestMismatch ∨ faults.any (fun (x : Nat × Refuse) => x.2.1 == stDigestMismatch) then digestFail b s1 else s1
       (s2, { status := r.1, detail := r.2, payload := body }))
  | _, _ => (s, failOut (conflict kCkpt (par f 0 4) 0))

def cmdVaultVerify : CmdSpec :=
  { opcode := 0x060A, cls := 1, result := true
    units := fun _ _ => vaultUnits
    check := fun _ f => firstSome [ rsv f 4 4, noTail f 8 ]
    objects := fun s f => firstSome [ hasVault s f, ckptIn s f [3, 4] ]
    size := fun _ _ => 24
    uses := fun _ f => ckptUses f
    depth := fun _ _ => 1
    slow := fun _ _ => true
    work := verifyWork }

/-! ### VAULT_KEEP and VAULT_DROP (R277) -/

def cmdVaultKeep : CmdSpec :=
  { opcode := 0x060C, cls := 1
    units := fun _ _ => vaultUnits
    brace := fun _ _ => true
    check := fun _ f => firstSome [ inRange f 4 1 0 1, rsv f 5 3, noTail f 8 ]
    objects := fun s f => firstSome [ hasVault s f, ckptIn s f [4] ]
    uses := fun _ f => ckptUses f
    work := fun s a => (modCkpt a.frame.berth (par a.frame 0 4) (fun c => { c with kept := par a.frame 4 1 == 1 }) s, okOut [] []) }

def cmdVaultDrop : CmdSpec :=
  { opcode := 0x060D, cls := 1
    units := fun _ _ => vaultUnits
    brace := fun _ _ => true
    check := fun _ f => firstSome [ rsv f 4 4, noTail f 8 ]
    objects := fun s f => firstSome
      [ hasVault s f, ckptIn s f [3, 4, 5],
        (ckptNamed s f).bind (fun c =>
          need ((((getVault s f.berth).bind Vault.newest).map (fun n => n.id)) != some c.id && !ckptInUse s f.berth c.id) (conflict kCkpt c.id c.state.code)) ]
    depth := fun _ _ => 1
    work := fun s a =>
      match ckptNamed s a.frame with
      | none => (s, failOut (conflict kCkpt (par a.frame 0 4) 0))
      | some c => (modVault a.frame.berth (fun v => (v.retire c.id).gc false) (dropRegion c.rkey s), okOut [] []) }

/-! ### Consolidation (R273 to R276) -/

/-- VAULT_CONSOLIDATE commands of the berth that wait for the next consolidation, or for running `x`. -/
def consWaiters (s : State) (b : Nat) (x : Nat) : List Nat :=
  (s.cmds.active.filter (fun a => a.frame.berth == b && a.opcode == 0x060B && a.phase == 3 && a.out.isNone && a.snap.getD 0 0 == x)).map (fun a => a.id)

def modActives (ids : List Nat) (g : Active → Active) (s : State) : State := ids.foldl (fun st i => modActive i g st) s

/-- Ends the waiting requests with this checkpoint. -/
def servedBy (ids : List Nat) (ck : Nat) (s : State) : State :=
  modActives ids (fun a => { a with out := some (okOut [] (toLE 4 ck ++ zeros 4 ++ toLE 8 (s.now - a.acceptedLocal))) }) s

def consDue (s : State) (v : Vault) : Bool :=
  decide (v.consAt + vaultCtl s v.berth 64 16 * 1000000000 ≤ ptpNow s) || decide (3 * v.pslc < 4 * pslcUsed s v) || !(consWaiters s v.berth 0).isEmpty

/-- Starts the consolidation of a checkpoint. -/
def consStart (b : Nat) (c : Ckpt) (s : State) : State :=
  modActives (consWaiters s b 0) (fun a => { a with snap := [c.id] })
    (modVault b (fun v => { v with consRunning := some (c.id, s.now), consAt := ptpNow s, noTlc := false }) s)

/-- Ends a consolidation that failed: X becomes BROKEN, and the next older CAPTURED checkpoint follows (R275). -/
def consFailed (b : Nat) (v : Vault) (c : Ckpt) (s : State) : State :=
  let s1 := vaultEvent b 3 c.id c.step (digestFail b (modVault b (fun v => { v with consRunning := none }) (breakCkpt b c.id s)))
  let ids := consWaiters s b c.id
  match newestCaptured v (some c.id) with
  | some d => consStart b d (modActives ids (fun a => { a with snap := [0] }) s1)
  | none => servedBy ids 0 s1

/-- A consolidation whose checkpoint has become NONE ends; the requests it would have served wait for the next. -/
def consAbandon (b id : Nat) (s : State) : State :=
  modActives (consWaiters s b id) (fun a => { a with snap := [0] }) (modVault b (fun v => { v with consRunning := none }) s)

/-- Replication pins what the peer has not acknowledged (R288). -/
def pinNew (v : Vault) (id : Nat) : Vault :=
  if v.send.state = .off then v else v.modCkpt id (fun c => { c with pinned := !c.replica && !c.acked && !v.send.skippedIds.contains c.id })

/-- While replication is DOWN, a backlog above REPL_BACKLOG unpins its oldest checkpoint (R288). -/
def trimBacklog (s : State) (b : Nat) (v : Vault) : Vault :=
  let l := v.ckpts.filter (fun c => c.state == .consolidated && c.pinned)
  if v.send.state = .down ∧ vaultCtl s b 104 8 < l.length then
    match oldestOf l with
    | none => v
    | some c => { (v.modCkpt c.id (fun c => { c with pinned := false })) with send := { v.send with skipped := satAdd 32 v.send.skipped 1, skippedIds := c.id :: v.send.skippedIds } }
  else v

/-- Steps 1 to 5 of R274 and R276. -/
def consFinish (b : Nat) (v : Vault) (c : Ckpt) (s : State) : State :=
  if (c.tensors.findSome? (tensorFault s v c)).isSome then consFailed b v c s
  else
    let e := consCkpt v c
    let more := sumNat ((e.tensors.filter (fun t => t.copy == c.id)).map Tensor.full) + manifestLen e.tensors.length
    let v1 := makeTlcRoom s b more (fun c => !c.replica) v.ckpts.length v
    if v1.tlc < tlcUsed v1 + more then
      let s1 := modVault b (fun _ => { v1 with noTlc := true }) s
      if v.noTlc then s1 else vaultEvent b 6 c.id c.step s1
    else
      let ids := consWaiters s b c.id
      let v2 := pinNew (v1.modCkpt c.id (fun _ => e)) c.id
      let old := v2.ckpts.filter (fun d => d.state == .captured && decide (d.id < c.id))
      let v3 := old.foldl (fun w d => w.retire d.id) v2
      let v4 := trimBacklog s b { (applyKeep s b (v3.gc false)) with consRunning := none, noTlc := false }
      let s1 := modVault b (fun _ => v4) { s with media := { s.media with journal := s.media.journal + 1 } }
      let s2 := modVstats b (fun x => { x with consolidations := satAdd 32 x.consolidations 1 }) s1
      checkLow b (vaultEvent b 2 c.id c.step (servedBy ids c.id s2))

/-- CONSOLIDATION: starts a consolidation that is due, or ends the one that runs. It runs in READY, and in DRAINING, where
accepted requests may wait for it (R17), in P0 and P1, outside QUIET windows (R315); in BRACED none starts and none passes
step 4. -/
def consolidationStep (b : Nat) (s : State) : State :=
  match getVault s b with
  | none => s
  | some v =>
    if (s.dev.state ≠ .ready ∧ s.dev.state ≠ .draining) ∨ 1 < s.power.current ∨ (List.range 24).any (quietOn s) then s
    else
      match v.consRunning with
      | some (id, _) =>
        (match v.ckpt id with
         | none => consAbandon b id s
         | some c => if c.state = .captured then consFinish b v c s else if c.state = .broken then consFailed b v c s else consAbandon b id s)
      | none =>
        if !consDue s v then s
        else
          match newestCaptured v none with
          | some c => consStart b c s
          | none => servedBy (consWaiters s b 0) 0 s

def cmdVaultConsolidate : CmdSpec :=
  { opcode := 0x060B, cls := 1, result := true
    units := fun _ _ => vaultUnits
    brace := fun _ _ => true
    check := fun _ f => firstSome [ rsv f 0 8, noTail f 8 ]
    objects := hasVault
    size := fun _ _ => 16
    uses := fun _ _ => { snap := [0] }
    depth := fun _ _ => 1
    slow := fun _ _ => true
    start := fun s a =>
      match getVault s a.frame.berth with
      | some v => if (newestCaptured v none).isNone && v.consRunning.isNone then servedBy [a.id] 0 (modActive a.id (fun b => { b with phase := 3 }) s) else s
      | none => s
    done := fun _ a => a.out.isSome
    work := fun s a => (s, a.out.getD (okOut [] (zeros 16))) }

/-! ### CAPTURE_DUE (R272) -/

/-- The time at which the next capture is due. -/
def captureDueAt (s : State) (b : Nat) (v : Vault) (at0 : Nat) : Nat :=
  let us := vaultCtl s b 16 32
  let c := ceilDiv v.lastElapsed (1000 * us)
  at0 + vaultCtl s b 0 16 * us * 1000 - c * us * 1000

/-- The first start of a VAULT slot of the berth at or after a time. -/
def vaultSlotAt (s : State) (b due : Nat) : Option Nat :=
  let tb := s.tide.active
  let l := (tb.entries.filter (fun e => e.vaultSlot && e.owner == b)).map (fun e =>
    let first := tb.phase + e.start
    if due ≤ first then first else first + ceilDiv (due - first) tb.cycle * tb.cycle)
  match l with
  | [] => none
  | x :: r => some (r.foldl min x)

/-- CAPTURE_DUE: once per capture interval, with ALIGN, STEP_US and LOSS_STEPS set. -/
def captureDue (b : Nat) (s : State) : State :=
  match getVault s b with
  | none => s
  | some v =>
    match v.lastBegin with
    | none => s
    | some (step, at0) =>
      if v.dueSent ∨ vaultCtl s b 48 1 = 0 ∨ vaultCtl s b 16 32 = 0 ∨ vaultCtl s b 0 16 = 0 then s
      else
        let due := captureDueAt s b v at0
        let when1 := (vaultSlotAt s b due).getD due
        if when1 ≤ ptpNow s then
          berthNotice b 0x0680 (toLE 8 step ++ toLE 8 due) [] (modVault b (fun v => { v with dueSent := true }) s)
        else s

/-! ### Power loss and mounting (R282, R283) -/

/-- The flush programs the manifest and commit record of a COMMITTING checkpoint whose data is all programmed. -/
def vaultFlush (s : State) : State :=
  s.vaults.foldl (fun st v =>
    (v.ckpts.filter (fun c => c.state == .committing)).foldl (fun st c =>
      match getVault st v.berth with
      | none => st
      | some w => if stagingFill st w = 0 && c.tensors.all (fun t => t.host == 0 || t.host == ((withDigests c).tensor t.name).elim 0 (fun x => x.digest)) then
        modVault v.berth (fun x => { x with prevStep := some c.step }) (modCkpt v.berth c.id (fun _ => sealCkpt st w c) st) else st) st) s

/-- What a power loss leaves: no OPEN or COMMITTING checkpoint, no running consolidation, no replication. -/
def vaultLose (v : Vault) : Vault :=
  let w := (openCkpts v).foldl (fun w c => w.retire c.id) v
  { (w.gc false) with consRunning := none, noTlc := false, send := {}, recv := none, ckpts := ((w.gc false).ckpts.map (fun c => { c with pinned := false })) }

/-- A checkpoint whose manifest fails at mount becomes BROKEN (R283). -/
def vaultMountBroken (l : List (Nat × Nat)) (s : State) : State :=
  l.foldl (fun st x =>
    match (getVault st x.1).bind (fun v => v.ckpt x.2) with
    | some c => if c.usable then digestFail x.1 (breakCkpt x.1 x.2 st) else st
    | none => st) s

end Sys2Proof.Machine
end

