-- ==== Sys2Proof/Machine/Repl.lean ====
section
/-! DEFINITION. Replication of checkpoints (R284 to R288): the commands, the sender's stream, the receiver's records and
acknowledgements. -/

namespace Sys2Proof.Machine

/-! ### The memory of the vault's own regions -/

def sideMem (s : State) (b index : Nat) : Mem := ((s.rdma.side.find? (fun x => x.1 == b && x.2.1 == index)).map (fun x => x.2.2)).getD []

def setSide (b index : Nat) (m : Mem) (s : State) : State :=
  let others := s.rdma.side.filter (fun x => !(x.1 == b && x.2.1 == index))
  { s with rdma := { s.rdma with side := (if m.isEmpty then others else (b, index, m) :: others) } }

/-- A region ends, and what it held with it. -/
def dropSide (rkey : BitVec 32) (s : State) : State :=
  match getRegion s rkey with
  | none => s
  | some r => dropRegion rkey (setSide r.berth r.index [] s)

def qpRts (s : State) (qpn : BitVec 24) : Bool := ((getQp s qpn).map (fun q => q.state == .rts)).getD false

/-! ### The sender -/

def modSend (b : Nat) (g : ReplSend → ReplSend) (s : State) : State := modVault b (fun v => { v with send := g v.send }) s

/-- The queue pair in use. -/
def ReplSend.inUse (r : ReplSend) : BitVec 24 := if r.alt then r.altQpn else r.qpn

/-- The checkpoint that later ones may refer to: the one last acknowledged, while it is still held. -/
def refCkpt (v : Vault) : Option Ckpt :=
  if v.send.refZero ∨ v.send.lastAcked = 0 then none else (v.ckpt v.send.lastAcked).filter (fun c => c.usable)

/-- REF_CKPT holds the same NAME_ID with an equal digest. -/
def referenced (r : Option Ckpt) (t : Tensor) : Bool :=
  ((r.bind (fun c => c.tensor t.name)).map (fun p => p.digest == t.digest)).getD false

/-- The stream of a checkpoint: its manifest, then the bytes of the tensors that are not referenced (R286). -/
def streamOf (v : Vault) (c : Ckpt) : Bytes :=
  c.manifest ++ (c.tensors.filter (fun t => !referenced (refCkpt v) t)).flatMap (fun t => memRead t.data 0 t.bytes)

/-- A record of Table 13 written by one RDMA WRITE with immediate. -/
def sendRecord (v : Vault) (off : Nat) (rec8 : Bytes) (ty : Nat) (s : State) : State :=
  sendRdmaWrite v.send.inUse v.send.peerRkey off rec8 (some (BitVec.ofNat 32 ty)) s

/-- Writes stream bytes at their places in the window, cut where the window wraps. -/
def writeStream (v : Vault) (pos : Nat) (data : Bytes) (s : State) : State :=
  if data.isEmpty then s
  else
    let w := v.send.window
    let o := pos % w
    let first := data.take (w - o)
    let rest := data.drop (w - o)
    let s1 := sendRdmaWrite v.send.inUse v.send.peerRkey (65536 + o) first none s
    if rest.isEmpty then s1 else sendRdmaWrite v.send.inUse v.send.peerRkey 65536 rest none s1

/-- Sends what CREDIT allows of the current checkpoint, and END behind its last byte. -/
def pumpStream (b : Nat) (s : State) : State :=
  match getVault s b with
  | none => s
  | some v =>
    match v.send.current.bind v.ckpt with
    | none => s
    | some c =>
      if v.send.state ≠ .sending ∨ v.send.ended ∨ v.send.retryAt.isSome then s
      else
        let str := streamOf v c
        let done := v.send.stream - v.send.base
        let room := v.send.credit + v.send.window - v.send.stream
        let part := slice str done room
        let s1 := writeStream v v.send.stream part s
        let all := decide (str.length ≤ done + part.length)
        let s2 := modSend b (fun r => { r with stream := r.stream + part.length, ended := all }) s1
        if all then sendRecord v 128 (toLE 4 c.id ++ zeros 4 ++ toLE 8 (v.send.base + str.length)) 3 s2 else s2

/-- Starts a checkpoint from its BEGIN. -/
def beginStream (b id : Nat) (s0 : State) : State :=
  let s := modSend b (fun r => { r with state := .sending, current := some id, base := r.stream, ended := false, progressAt := s0.now, retryAt := none }) s0
  match getVault s b with
  | none => s
  | some v =>
    match v.ckpt id with
    | none => s
    | some c =>
      let str := streamOf v c
      let rec8 := toLE 4 id ++ toLE 4 (((refCkpt v).map (fun r => r.id)).getD 0) ++ toLE 8 v.send.base ++ toLE 8 c.manifest.length ++ toLE 8 str.length
      pumpStream b (sendRecord v 64 rec8 2 s)

/-- Checkpoints that await acknowledgement. -/
def backlog (v : Vault) : List Ckpt := v.ckpts.filter (fun c => c.state == .consolidated && c.pinned)

/-- Takes up the newest checkpoint that awaits acknowledgement when none that is still held is being sent. -/
def nextStream (b : Nat) (s : State) : State :=
  match getVault s b with
  | none => s
  | some v =>
    if v.send.state = .off ∨ v.send.state = .down ∨ ((v.send.current.bind v.ckpt).map (fun c => c.state == .consolidated)).getD false then s
    else
      match newestOf (backlog v) with
      | none => modSend b (fun r => { r with state := .idle, current := none }) s
      | some c => beginStream b c.id (modSend b (fun r => { r with fails := 0, conflicts := 0, refZero := false }) s)

/-- The sender goes DOWN until the next retry (R288). -/
def replDown (b : Nat) (s : State) : State :=
  match getVault s b with
  | none => s
  | some v =>
    let id := v.send.current.getD 0
    let s0 := modSend b (fun r => { r with state := .down, wasDown := true, downs := satAdd 32 r.downs 1, retryAt := some (s.now + vaultCtl s b 58 6 * 1000000000) }) s
    let s1 := (backlog v).foldl (fun st _ => modVault b (trimBacklog st b) st) s0
    vaultEvent b 4 id (((v.ckpt id).map (fun c => c.step)).getD 0) s1

/-- The queue pair in use failed, or nothing moved for REPL_TIMEOUT: restart on ALT_QPN if that is in RTS, else DOWN. -/
def replFail (b : Nat) (s : State) : State :=
  match getVault s b with
  | none => s
  | some v =>
    if v.send.state = .off ∨ v.send.state = .down then s
    else if v.send.altQpn ≠ 0 ∧ !v.send.alt ∧ qpRts s v.send.altQpn then
      let s1 := modSend b (fun r => { r with alt := true }) s
      match v.send.current with
      | some id => beginStream b id s1
      | none => s1
    else replDown b s

/-- A queue pair that replication uses has gone to ERROR. -/
def replQpError (qpn : BitVec 24) (s : State) : State :=
  (s.vaults.filter (fun v => v.send.state != .off && v.send.inUse == qpn)).foldl (fun st v => replFail v.berth st) s

/-- What an acknowledgement with a given status does to the checkpoint being sent. -/
def replAcked (b id status : Nat) (s : State) : State :=
  match getVault s b with
  | none => s
  | some v =>
    let step := ((v.ckpt id).map (fun c => c.step)).getD 0
    let skip (st : State) : State :=
      let s1 := modVault b (fun v => v.modCkpt id (fun c => { c with pinned := false })) st
      nextStream b (modSend b (fun r => { r with current := none, skipped := satAdd 32 r.skipped 1, skippedIds := id :: r.skippedIds }) s1)
    if status = stOk then
      let s1 := modVault b (fun v => v.modCkpt id (fun c => { c with acked := true, pinned := false })) s
      nextStream b (modSend b (fun r => { r with current := none, lastAcked := id, ackedAt := ptpNow s, sent := satAdd 32 r.sent 1 }) s1)
    else if status = stDigestMismatch then
      (if v.send.fails < 3 then
        beginStream b id (modSend b (fun r => { r with refZero := true, fails := r.fails + 1, resent := satAdd 32 r.resent 1 }) s)
       else skip (vaultEvent b 3 id step s))
    else if status = stStateConflict then
      (if v.send.conflicts = 0 then beginStream b id (modSend b (fun r => { r with refZero := true, conflicts := 1 }) s) else skip s)
    else modSend b (fun r => { r with retryAt := some (s.now + vaultCtl s b 58 6 * 1000000000) }) s

/-- The acknowledgement area of a sender. -/
def ackRegion (s : State) (v : Vault) : Option Region := getRegion s v.send.ackRkey

/-- CREDIT: the sender takes the CREDIT that the receiver wrote. -/
def takeCredit8 (b : Nat) (s : State) : State :=
  match getVault s b with
  | none => s
  | some v =>
    match ackRegion s v with
    | none => s
    | some r =>
      let c := getLE (memRead (sideMem s b r.index) 0 8) 0 8
      if v.send.state = .off ∨ c ≤ v.send.credit then s
      else pumpStream b (modSend b (fun r => { r with credit := c, progressAt := s.now }) s)

/-- ACKNOWLEDGEMENT: the sender takes the acknowledgement of the checkpoint it sent, and clears it; the first one after a
time DOWN sends event 5. -/
def takeAck (b : Nat) (s : State) : State :=
  match getVault s b with
  | none => s
  | some v =>
    match ackRegion s v with
    | none => s
    | some r =>
      let bs := memRead (sideMem s b r.index) 8 16
      let id := getLE bs 0 4
      if v.send.state = .off ∨ id = 0 ∨ v.send.current ≠ some id then s
      else
        let s1 := setSide b r.index (memClear (sideMem s b r.index) 8 16) s
        let s2 := modSend b (fun r => { r with progressAt := s.now, state := .sending, retryAt := none, wasDown := false }) s1
        let s3 := if v.send.wasDown then vaultEvent b 5 id (((v.ckpt id).map (fun c => c.step)).getD 0) s2 else s2
        replAcked b id (getLE bs 4 2) s3

/-- REPL_TIMEOUT: data is pending and nothing has moved for REPL_TIMEOUT seconds. -/
def replTimedOut (b : Nat) (s : State) : State :=
  match getVault s b with
  | none => s
  | some v =>
    if v.send.state = .sending ∧ v.send.current.isSome ∧ v.send.retryAt.isNone ∧ v.send.progressAt + vaultCtl s b 50 8 * 1000000000 ≤ s.now then replFail b s else s

/-- REPL_RETRY: a checkpoint that was refused, or the queue pairs of a sender that is DOWN, are tried again. -/
def replRetried (b : Nat) (s : State) : State :=
  match getVault s b with
  | none => s
  | some v =>
    match v.send.retryAt with
    | none => s
    | some at0 =>
      if s.now < at0 ∨ v.send.state = .off then s
      else if v.send.state ≠ .down then
        (match v.send.current with
         | some id => beginStream b id s
         | none => nextStream b (modSend b (fun r => { r with retryAt := none }) s))
      else
        let go (alt : Bool) : State :=
          let s1 := modSend b (fun r => { r with alt := alt, state := .idle, retryAt := none }) s
          match v.send.current with
          | some id => if (backlog v).any (fun c => c.id == id) then beginStream b id s1 else nextStream b (modSend b (fun r => { r with current := none }) s1)
          | none => nextStream b s1
        if qpRts s v.send.qpn then go false
        else if v.send.altQpn ≠ 0 ∧ qpRts s v.send.altQpn then go true
        else modSend b (fun r => { r with retryAt := some (s.now + vaultCtl s b 58 6 * 1000000000) }) s

/-! ### The receiver -/

def modRecv (b : Nat) (g : ReplRecv → ReplRecv) (s : State) : State := modVault b (fun v => { v with recv := v.recv.map g }) s

/-- A write into the acknowledgement area, on the queue pair that the records came on. -/
def writeAck (r : ReplRecv) (off : Nat) (data : Bytes) (s : State) : State :=
  if r.ackRkey = 0 then s else sendRdmaWrite r.lastQpn r.ackRkey off data none s

/-- A write into the replica region on one of its queue pairs: control bytes are kept, stream bytes are consumed in
order, and CREDIT follows (R286). -/
def replicaWrite (b index : Nat) (qpn : BitVec 24) (off : Nat) (data : Bytes) (s : State) : State :=
  let s1 := modRecv b (fun r => { r with lastQpn := qpn }) (setSide b index (memWrite (sideMem s b index) off data) s)
  match (getVault s1 b).bind (fun v => v.recv) with
  | none => s1
  | some r =>
    if 65536 ≤ off ∧ off - 65536 = r.consumed % r.window then
      let r1 := { r with consumed := r.consumed + data.length, stream := r.stream ++ data }
      writeAck r1 0 (toLE 8 r1.consumed) (modRecv b (fun _ => r1) s1)
    else s1

/-- The immediate names the record that was written; a HELLO starts a new stream, and a BEGIN fixes where the checkpoint's
stream starts. -/
def replicaImm (b index ty : Nat) (s : State) : State :=
  let bs := memRead (sideMem s b index) (64 * (ty - 1)) 64
  if ty = 1 ∨ ty = 2 ∨ ty = 3 then
    modRecv b (fun r =>
      let r1 := { r with todo := r.todo ++ [(ty, bs)] }
      if ty = 1 then { r1 with consumed := 0, stream := [] } else if ty = 2 then { r1 with consumed := getLE bs 8 8, stream := [] } else r1) s
  else s

/-- The record of a type at the head of those that wait. -/
def headRecord (s : State) (b ty : Nat) : Option (ReplRecv × Bytes) :=
  (getVault s b).bind (fun v => v.recv.bind (fun r =>
    match r.todo with
    | (k, bs) :: _ => if k = ty then some (r, bs) else none
    | [] => none))

def popRecord (b : Nat) (s : State) : State := modRecv b (fun r => { r with todo := r.todo.drop 1 }) s

/-- HELLO: the receiver learns the acknowledgement area. -/
def takeHello (b : Nat) (s : State) : State :=
  match headRecord s b 1 with
  | none => s
  | some (_, bs) => popRecord b (modRecv b (fun r => { r with ackRkey := BitVec.ofNat 32 (getLE bs 0 4), begun := none }) s)

/-- BEGIN: the receiver learns what is to come. -/
def takeBegin (b : Nat) (s : State) : State :=
  match headRecord s b 2 with
  | none => s
  | some (_, bs) => popRecord b (modRecv b (fun r => { r with begun := some (getLE bs 0 4, getLE bs 4 4, getLE bs 8 8, getLE bs 16 8, getLE bs 24 8) }) s)

/-- Tensors from a manifest and the stream behind it; a tensor not in the stream comes from the replica of REF_CKPT, and
none when that is missing too. -/
def replicaTensors (man : Bytes) (ref : Option Ckpt) : Nat → Nat → Bytes → Option (List Tensor)
  | 0, _, _ => some []
  | k + 1, i, data =>
    let o := 128 + 128 * i
    let name : BitVec 64 := BitVec.ofNat 64 (getLE man o 8)
    let bytes := getLE man (o + 8) 8
    let dig : BitVec 512 := BitVec.ofNat 512 (getLE man (o + 48) 64)
    let old := (ref.bind (fun c => c.tensor name)).filter (fun t => t.digest == dig)
    let t : Tensor := { name := name, bytes := bytes, offset := getLE man (o + 16) 8, rowBytes := getLE man (o + 24) 4, mode := 1, form := 1,
                        fmt := getLE man (o + 29) 1, digest := dig, digested := true, data := (old.map (fun t => t.data)).getD (memWrite [] 0 (data.take bytes)) }
    match replicaTensors man ref k (i + 1) (if old.isSome then data else data.drop bytes) with
    | none => none
    | some l => if old.isNone && decide (data.length < bytes) then none else some (t :: l)

/-- The replica that a stream gives, or the status with which it is refused (R287). -/
def buildReplica (s : State) (b : Nat) (v : Vault) (r : ReplRecv) : Nat ⊕ (Vault × Ckpt) :=
  match r.begun with
  | none => .inl stStateConflict
  | some (_, refId, _, manLen, total) =>
    if s.dev.state = .braced then .inl stBraced
    else
      let ref := if refId = 0 then none else ((r.refs.find? (fun x => x.1 == refId)).bind (fun x => v.ckpt x.2)).filter (fun c => c.usable)
      if refId ≠ 0 ∧ ref.isNone then .inl stStateConflict
      else
        let man := r.stream.take manLen
        let n := getLE man 4 4
        let count := getLE man 12 4
        if r.stream.length ≠ total ∨ man.length ≠ manifestLen count ∨ n = 0 ∨ !manifestOk man then .inl stDigestMismatch
        else
          match replicaTensors man ref count 0 (r.stream.drop manLen) with
          | none => .inl stDigestMismatch
          | some ts =>
            if !ts.all (fun t => tensorDigest t == t.digest) then .inl stDigestMismatch
            else
              let id := newId s v.lastId
              let ts1 := ts.map (fun t => { t with copy := ((ref.bind (fun c => c.tensor t.name)).filter (fun p => p.digest == t.digest)).elim id (fun p => p.copy) })
              let more := sumNat ((ts1.filter (fun t => t.copy == id)).map Tensor.full) + manifestLen count
              let v1 := makeTlcRoom s b more (fun c => c.replica) v.ckpts.length v
              if v1.tlc < tlcUsed v1 + more then .inl stNoResource
              else
                .inr ({ v1 with lastId := id },
                  { id := id, step := getLE man 16 8, state := .consolidated, tensors := ts1, replica := true, commitTime := getLE man 24 8, intake := getLE man 32 8,
                    stored := sumNat (ts1.map Tensor.full), manifest := man, tlc := true })

/-- END: checks the digests, commits the replica and acknowledges. -/
def takeEnd (b : Nat) (s : State) : State :=
  match headRecord s b 3, getVault s b with
  | some (r, bs), some v =>
    let id := getLE bs 0 4
    let ack (status local1 : Nat) (st : State) : State := writeAck r 8 (toLE 4 id ++ toLE 2 status ++ zeros 2 ++ toLE 4 local1 ++ zeros 4) st
    let s1 := modRecv b (fun r => { r with begun := none, stream := [] }) (popRecord b s)
    match buildReplica s b v r with
    | .inl st => ack st 0 s1
    | .inr (v1, c) =>
      let s2 := modVault b (fun w =>
        applyKeep s b { w with ckpts := v1.ckpts ++ [c], lastId := v1.lastId, recv := w.recv.map (fun r => { r with refs := (id, c.id) :: r.refs }) }) s1
      ack stOk c.id (useFresh s2)
  | _, _ => s

/-! ### REPL_ACCEPT and REPL_SET (R284, R285) -/

/-- A queue pair field: 0 where that is allowed, or a queue pair of the berth. -/
def qpField (s : State) (f : Frame) (off : Nat) (zero : Bool) : Option Refuse :=
  let v := par f off 4
  need ((zero && v == 0) || (decide (v < 2 ^ 24) && (qpOf s f.berth (BitVec.ofNat 24 v)).isSome)) (badBytes off 4 0 0xFFFFFF)

/-- Its state must be RTS. -/
def qpFieldRts (s : State) (f : Frame) (off : Nat) : Option Refuse :=
  if par f off 4 = 0 then none
  else (qpOf s f.berth (BitVec.ofNat 24 (par f off 4))).bind (fun q => need (q.state == .rts) (conflict kQp q.qpn.toNat 2))

def cmdReplAccept : CmdSpec :=
  { opcode := 0x0610, cls := 2
    units := fun _ _ => vaultUnits
    check := fun s f =>
      if par f 0 4 = 0 then noTail f 16
      else firstSome
        [ qpField s f 0 false, qpField s f 4 true,
          (getVault s f.berth).bind (fun v =>
            need (par f 8 8 % 2 ^ 20 == 0 && decide (67108864 ≤ par f 8 8 ∧ par f 8 8 ≤ v.staging)) (badBytes 8 8 67108864 v.staging)), noTail f 16 ]
    objects := hasVault
    needs := fun s f =>
      if par f 0 4 = 0 ∨ ((getVault s f.berth).bind (fun v => v.recv)).isSome then none
      else need (decide ((regionsOf s f.berth).length < 256)) (noResource 7 0 1)
    depth := fun _ _ => 2
    work := fun s a =>
      let f := a.frame
      let b := f.berth
      let s1 := match (getVault s b).bind (fun v => v.recv) with
        | some r => modVault b (fun v => { v with recv := none }) (dropSide r.rkey s)
        | none => s
      if par f 0 4 = 0 then (s1, okOut (zeros 4) [])
      else
        let g := addRegion b 0 (65536 + par f 8 8) true false .replica s1
        let r : ReplRecv := { qpn := BitVec.ofNat 24 (par f 0 4), altQpn := BitVec.ofNat 24 (par f 4 4), window := par f 8 8, rkey := g.2 }
        (modVault b (fun v => { v with recv := some r }) g.1, okOut (toLE 4 g.2.toNat) []) }

/-- Replication starts with a HELLO and the newest CONSOLIDATED checkpoint that the peer has not acknowledged. -/
def replStart (f : Frame) (s : State) : State :=
  let b := f.berth
  let g := addRegion b 0 4096 true false .ackArea s
  let set (r : ReplSend) : ReplSend :=
    { state := .idle, qpn := BitVec.ofNat 24 (par f 0 4), altQpn := BitVec.ofNat 24 (par f 4 4), peerRkey := BitVec.ofNat 32 (par f 8 4), window := par f 16 8,
      ackRkey := g.2, lastAcked := r.lastAcked, ackedAt := r.ackedAt, sent := r.sent, skipped := r.skipped, downs := r.downs, resent := r.resent,
      progressAt := s.now, refZero := true }
  let s1 := modVault b (fun v =>
    { v with send := set v.send, ckpts := v.ckpts.map (fun c => if c.state = .consolidated ∧ !c.replica ∧ !c.acked then { c with pinned := true } else c) }) g.1
  match getVault s1 b with
  | none => s1
  | some v => nextStream b (sendRecord v 0 (toLE 4 g.2.toNat ++ zeros 4 ++ toLE 8 v.send.window) 1 s1)

def replStop (b : Nat) (s : State) : State :=
  match getVault s b with
  | none => s
  | some v =>
    if v.send.state = .off then s
    else modVault b (fun v => { v with send := { v.send with state := .off, current := none, retryAt := none }, ckpts := v.ckpts.map (fun c => { c with pinned := false }) })
      (dropSide v.send.ackRkey s)

def cmdReplSet : CmdSpec :=
  { opcode := 0x0611, cls := 2
    units := fun _ _ => vaultUnits
    check := fun s f =>
      if par f 0 4 = 0 then firstSome [ rsv f 12 4, noTail f 24 ]
      else firstSome
        [ qpField s f 0 false, qpField s f 4 true, rsv f 12 4,
          need (par f 16 8 % 2 ^ 20 == 0 && decide (67108864 ≤ par f 16 8 ∧ par f 16 8 ≤ 8589934592)) (badBytes 16 8 67108864 8589934592), noTail f 24 ]
    objects := fun s f => firstSome [ hasVault s f, qpFieldRts s f 0, qpFieldRts s f 4 ]
    needs := fun s f =>
      if par f 0 4 = 0 ∨ ((getVault s f.berth).map (fun v => v.send.state != .off)).getD false then none
      else need (decide ((regionsOf s f.berth).length < 256)) (noResource 7 0 1)
    depth := fun _ _ => 2
    work := fun s a =>
      let s1 := replStop a.frame.berth s
      (if par a.frame 0 4 = 0 then s1 else replStart a.frame s1, okOut [] []) }

/-! ### The rows -/

def execConsolidation (t berth : Nat) (s : State) : Host.Outcome State Fault Refusal :=
  .next (if alive s then nextStream berth (consolidationStep berth (setNow t s)) else setNow t s)
def execCaptureDue (t berth : Nat) (s : State) : Host.Outcome State Fault Refusal :=
  .next (if alive s then captureDue berth (setNow t s) else setNow t s)
def execHello (t berth : Nat) (s : State) : Host.Outcome State Fault Refusal :=
  .next (if alive s then takeHello berth (setNow t s) else setNow t s)
def execBegin (t berth : Nat) (s : State) : Host.Outcome State Fault Refusal :=
  .next (if alive s then takeBegin berth (setNow t s) else setNow t s)
def execEndRecord (t berth : Nat) (s : State) : Host.Outcome State Fault Refusal :=
  .next (if alive s then takeEnd berth (setNow t s) else setNow t s)
def execCredit (t berth : Nat) (s : State) : Host.Outcome State Fault Refusal :=
  .next (if alive s then takeCredit8 berth (setNow t s) else setNow t s)
def execAcknowledgement (t berth : Nat) (s : State) : Host.Outcome State Fault Refusal :=
  .next (if alive s then takeAck berth (setNow t s) else setNow t s)
def execReplTimeout (t berth : Nat) (s : State) : Host.Outcome State Fault Refusal :=
  .next (if alive s then replTimedOut berth (setNow t s) else setNow t s)
def execReplRetry (t berth : Nat) (s : State) : Host.Outcome State Fault Refusal :=
  .next (if alive s then replRetried berth (setNow t s) else setNow t s)

end Sys2Proof.Machine
end

