-- ==== Sys2Proof/Machine/Integrity.lean ====
section
/-! DEFINITION. Memory integrity (chapter 14): uncorrectable and correctable errors, poisoned words, repair records, spares and
their use at power-on (R370 to R378). -/

namespace Sys2Proof.Machine

/-! ### Fields of ADDRESS (Table 14.3) -/

def wordOffset (w : SramWord) : Nat := bits w.address.toNat 0 36
def wordHard (w : SramWord) : Bool := w.address.toNat.testBit 36
def wordBank (w : SramWord) : Nat := bits w.address.toNat 40 10

/-- The row that the offset names within its bank of 2 MiB. -/
def wordRow (w : SramWord) : Nat := wordOffset w % 2097152 / 256

/-- The same word without its HARD mark. -/
def wordPlace (w : SramWord) : SramWord := { w with address := BitVec.ofNat 64 (setBits w.address.toNat 36 1 0) }

/-! ### Units -/

/-- The word-coded and planar units of the variant: stacked or planar SRAM, quay SRAM, I/O-die SRAM. -/
def sramUnits (v : Variant) : List (Nat × Nat) :=
  (match v with
   | .X => (List.range 8).map (fun i => (0, i))
   | .S => (List.range 4).map (fun i => (0, i))
   | .V => (List.range 2).map (fun i => (1, i))) ++ (List.range 24).map (fun q => (2, q)) ++ [(3, 0)]

def isUnit (s : State) (u i : Nat) : Bool := (sramUnits s.fixed.variant).contains (u, i)

def unitStats (s : State) (u i : Nat) : UnitStats :=
  (s.mem.units.find? (fun x => x.unit == u && x.index == i)).getD { unit := u, index := i }

def modUnit (u i : Nat) (g : UnitStats → UnitStats) (s : State) : State :=
  { s with mem := { s.mem with units := g (unitStats s u i) :: s.mem.units.filter (fun x => !(x.unit == u && x.index == i)) } }

/-- A count kept for a unit. -/
def unitCount (l : List ((Nat × Nat) × Nat)) (u i : Nat) : Nat := ((l.find? (fun x => x.1 == (u, i))).map (fun x => x.2)).getD 0

def addCount (l : List ((Nat × Nat) × Nat)) (u i : Nat) : List ((Nat × Nat) × Nat) :=
  ((u, i), satAdd 16 (unitCount l u i) 1) :: l.filter (fun x => x.1 != (u, i))

/-- Complete passes of every unit. -/
def scrubPasses (s : State) : Nat :=
  let l := (sramUnits s.fixed.variant).map (fun u => (unitStats s u.1 u.2).passes)
  l.foldl min (l.headD 0)

/-! ### Spares (R376, R378) -/

/-- Spares of a bank that the fuse map uses. -/
def fused (s : State) (u i b : Nat) (line : Bool) : Nat :=
  sumNat ((s.fixed.fuses.filter (fun x => x.1 == u && x.2.1 == i && x.2.2.1 == b && x.2.2.2.1 == line)).map (fun x => x.2.2.2.2))

/-- Applied records of a bank. -/
def appliedIn (s : State) (u i b : Nat) (line : Bool) : Nat :=
  (s.repairs.records.filter (fun r => r.applied && r.unit == u && r.index == i && r.bank == b && r.isLine == line)).length

def sparesOf (line : Bool) : Nat := if line then 4 else 32

/-- Free spares of a bank. -/
def freeSpares (s : State) (u i b : Nat) (line : Bool) : Nat := sparesOf line - fused s u i b line - appliedIn s u i b line

/-- Fewest free spares in any bank that has used one. -/
def sparesMin (s : State) (u i : Nat) (line : Bool) : Nat :=
  let banks := ((s.fixed.fuses.filter (fun x => x.1 == u && x.2.1 == i)).map (fun x => x.2.2.1)
    ++ (s.repairs.records.filter (fun r => r.unit == u && r.index == i)).map (fun r => r.bank)).eraseDups
  (banks.map (fun b => freeSpares s u i b line)).foldl min (sparesOf line)

/-- A repair record, or one more deferred: one new record a bank and 64 a power-on, none while the logbook is READ_ONLY, at
most 2,048 held (R376, R390). -/
def repairRecord (u i b target : Nat) (line : Bool) (cause : Nat) (s : State) : State :=
  if s.mem.recorded.contains (u, i, b) ∨ 64 ≤ s.mem.recorded.length ∨ s.logbook.readOnly ∨ 2048 ≤ s.repairs.records.length then
    { s with mem := { s.mem with deferred := satAdd 16 s.mem.deferred 1 } }
  else
    let r : RepairRecord := { unit := u, index := i, bank := b, target := target, isLine := line, cause := cause, timeS := ptpNow s / 1000000000, applied := false }
    { s with
      repairs := { s.repairs with records := s.repairs.records ++ [r] }
      mem := { s.mem with recorded := (u, i, b) :: s.mem.recorded, events := s.mem.events ||| 2 } }

/-- One record at power-on: the next free spare, or the unit's one spare page, or the unit fails sea trial (R378). -/
def applyRepair (s : State) (r : RepairRecord) : State :=
  if r.applied then s
  else
    let done (s : State) : State :=
      { s with
        repairs := { s.repairs with records := s.repairs.records.map (fun x => if x = r then { x with applied := true } else x) }
        lb := { s.lb with repairsApplied := satAdd 16 s.lb.repairsApplied 1 } }
    if 0 < freeSpares s r.unit r.index r.bank r.isLine then done s
    else if r.unit ≤ 1 ∧ !s.repairs.pages.contains (r.unit, r.index) then
      let s1 := done s
      { s1 with repairs := { s1.repairs with pages := (r.unit, r.index) :: s1.repairs.pages }, mem := { s1.mem with events := s1.mem.events ||| 4 } }
    else { s with repairs := { s.repairs with failed := (r.unit, r.index) :: s.repairs.failed } }

def applyRepairs (s : State) : State := s.repairs.records.foldl applyRepair { s with repairs := { s.repairs with failed := [] } }

/-! ### Errors (R370, R371) -/

/-- Blocks of the protected write buffer that a poisoned word covers are lost until they are rewritten. -/
def loseBuffered (w : SramWord) (s : State) : State :=
  let lost := s.eng.wbuf.filter (fun e => e.data.isSome && (Config.bufferOf w).contains (e.nsid, e.lba))
  lost.foldl (fun st e =>
    let s1 := { st with
      eng := { st.eng with wbuf := st.eng.wbuf.erase e }
      lb := { st.lb with bufLoss := satAdd 32 st.lb.bufLoss 1 }
      mem := { st.mem with events := st.mem.events ||| 8 } }
    modNs e.nsid (fun n => { n with lost := (e.lba, BitVec.allOnes 64) :: n.lost.filter (fun x => x.1 != e.lba) }) s1) s

/-- An uncorrectable error at a word: counted, poisoned (a small memory is zeroed instead), and recorded when HARD. -/
def sramUe (w : SramWord) (s : State) : State :=
  let s1 := { s with
    lb := { s.lb with memUe := satAdd 32 s.lb.memUe 1, unitUe := addCount s.lb.unitUe w.unit w.index,
                      unitHard := (if wordHard w then addCount s.lb.unitHard w.unit w.index else s.lb.unitHard) }
    mem := { s.mem with events := s.mem.events ||| 1 } }
  if w.unit = 4 then s1
  else
    let p := wordPlace w
    let s2 := modUnit w.unit w.index (fun x => { x with lastAddr := w.address })
      { s1 with mem := { s1.mem with poisoned := if s1.mem.poisoned.contains p then s1.mem.poisoned else p :: s1.mem.poisoned } }
    let s3 := loseBuffered p s2
    if wordHard w then repairRecord w.unit w.index (wordBank w) (wordRow w) false 0 s3 else s3

/-- A correctable error at bit `bit` of the word. Errors at one bit position in four or more rows of a bank within a pass
make a record for the bit line. -/
def sramCe (w : SramWord) (bit : Nat) (s : State) : State :=
  let key := (w.unit, w.index, wordBank w, wordRow w)
  let here := (w.unit, w.index, wordBank w, bit, wordRow w)
  let rows := (s.mem.ceRows.filter (fun x => x.1 != key))
  let old := ((s.mem.ceRows.find? (fun x => x.1 == key)).map (fun x => x.2.1)).getD 0
  let bitsNow := if s.mem.ceBits.contains here then s.mem.ceBits else here :: s.mem.ceBits
  let s1 := modUnit w.unit w.index (fun x => { x with ce := satAdd 32 x.ce 1 })
    { s with mem := { s.mem with ce := satAdd 64 s.mem.ce 1, ceRows := (key, old, true) :: rows, ceBits := bitsNow } }
  let line := bitsNow.filter (fun x => x.1 == w.unit && x.2.1 == w.index && x.2.2.1 == wordBank w && x.2.2.2.1 == bit)
  if line.length = 4 ∧ !s.mem.ceBits.contains here then repairRecord w.unit w.index (wordBank w) bit true 2 s1 else s1

/-- A unit's pass ends: rows that gave correctable errors in three consecutive passes make records. -/
def scrubPass (u i : Nat) (s : State) : State :=
  let own (x : (Nat × Nat × Nat × Nat) × Nat × Bool) : Bool := x.1.1 == u && x.1.2.1 == i
  let kept := (s.mem.ceRows.filter (fun x => own x && x.2.2)).map (fun x => (x.1, x.2.1 + 1, false))
  let due := kept.filter (fun x => x.2.1 == 3)
  let s1 := modUnit u i (fun x => { x with passes := satAdd 32 x.passes 1, passAt := s.now })
    { s with mem := { s.mem with
      ceRows := kept ++ s.mem.ceRows.filter (fun x => !own x)
      ceBits := s.mem.ceBits.filter (fun x => !(x.1 == u && x.2.1 == i)) } }
  due.foldl (fun st x => repairRecord u i x.1.2.2.1 x.1.2.2.2 false 1 st) s1

/-- PATROL_SCRUB: in P0 to P2, from MOUNTING onward (R374, R375); a word already poisoned is skipped. A word that management
firmware keeps its state in makes the module seal and reset (Table 14.4). -/
def execPatrolScrub (t : Nat) (w : SramWord) (r : ScrubResult) (s0 : State) : Host.Outcome State Fault Refusal :=
  let s := setNow t s0
  if !alive s then .next s else
  let runs := s.dev.state == .mounting || s.dev.state == .ready || s.dev.state == .braced || s.dev.state == .draining
  if !runs || s.power.current == 3 || !isUnit s w.unit w.index then .next s
  else
    match r with
    | .passEnd => .next (scrubPass w.unit w.index s)
    | .clean => .next s
    | .correctable bit => .next (if s.mem.poisoned.contains (wordPlace w) then s else sramCe w bit s)
    | .uncorrectable hard =>
      if s.mem.poisoned.contains (wordPlace w) then .next s
      else
        let w1 : SramWord := { w with address := BitVec.ofNat 64 (setBits w.address.toNat 36 1 (if hard then 1 else 0)) }
        let s1 := sramUe w1 s
        .next (if Config.mgmtState (wordPlace w) && s1.dev.resetSeal.isNone then
            { s1 with dev := { s1.dev with resetSeal := some 5 }, lb := { s1.lb with memResets := satAdd 32 s1.lb.memResets 1 } }
          else s1)

/-- POISON_REWRITE: a poisoned word of a derived structure is rewritten from its durable source (R373). -/
def execPoisonRewrite (t : Nat) (w : SramWord) (s0 : State) : Host.Outcome State Fault Refusal :=
  let s := setNow t s0
  if !alive s then .next s else
  .next { s with mem := { s.mem with poisoned := s.mem.poisoned.filter (fun x => x != wordPlace w) } }

end Sys2Proof.Machine
end

