-- ==== Sys2Proof/Machine/PowerOff.lean ====
section
/-! DEFINITION. The ways down: what the rails going off leaves (R52, R432), draining and resets (R433 to R436), and DRAIN and
RESET (0x0107, 0x0108). -/

namespace Sys2Proof.Machine

/-! ### What survives -/

/-- A berth keeps its state, shares, breakwater and notice destination; the other parameters take their Reset values and
bollards and inbox are empty (R293). -/
def berthOff (x : Berth) : Berth :=
  { state := x.state, regs := { shares := x.regs.shares, breakwater := x.regs.breakwater, noticeDest := x.regs.noticeDest } }

/-- A slot whose staging has not completed reads INVALID (R411). -/
def slotOff (x : FwSlot) : FwSlot := if x.writing then { x with writing := false, empty := false, complete := false } else x

/-- The rails go off: everything outside media, logbook, fuses and the sideband controller is lost, and the device state is
POWERED. -/
def powerOff (s0 : State) : State :=
  let s := enterState .powered (closeEvent s0)
  { s with
    dev := { state := s.dev.state, prev := s.dev.prev, enteredAt := s.dev.enteredAt, record := s.dev.record, railsOffAt := s.dev.railsOffAt }
    power := {}
    net := {}
    cmds := { nextId := s.cmds.nextId }
    rdma := { gens := s.rdma.gens }
    regs := { s.regs with quayControl := BitVec.ofNat 32 (setBits s.regs.quayControl.toNat 5 3 0) }
    eng := {}
    plans := []
    vaults := s.vaults.map vaultLose
    berths := s.berths.map berthOff
    clock := {}
    tide := { active := s.tide.active, pending := s.tide.pending }
    hawser := {}
    storm := {}
    pf := { s.pf with flushAt := none, flushed := false, glitches := 0, measured := false }
    mem := {}
    logLive := {}
    trust := { s.trust with slots := s.trust.slots.map slotOff }
    boot := {}
    side := { s.side with railsOn := false, pdPending := false }
    thermal := {} }

/-- A reset of a kind: the rails go off for 10 ms, and power-on follows (R432). -/
def railsOff (kind : Nat) (s : State) : State :=
  let s1 := powerOff s
  { s1 with dev := { s1.dev with railsOffAt := some s1.now }, side := { s1.side with nextKind := kind, drained := false } }

/-- Open blocks are sealed, the write buffer is programmed, and a map checkpoint and the LB counters are written: the closing
checkpoint that step 6 of R426 looks at. -/
def sealDown (s : State) : State :=
  let s1 := mapCheckpoint (flushBuffer s)
  { s1 with media := { s1.media with record := .closing } }

/-! ### Draining -/

/-- A drain begins: DRAINING and P0 (R60), but a RESET in BRACED leaves the device state. -/
def startDrain (thenReset : Bool) (holdNs : Nat) (fromSideband : Bool) (s : State) : State :=
  let s1 := if s.dev.state = .braced then s else wakeAll (enterState .draining s)
  drainIdle { s1 with dev := { s1.dev with drain := some { thenReset := thenReset, holdNs := holdNs, stage := .running, since := s1.now, fromSideband := fromSideband } } }

/-- RESET as R433 gives it for READY and BRACED, and a reset at once in DRY_DOCK. -/
def startReset (holdNs : Nat) (s : State) : State :=
  if s.dev.state = .dryDock then railsOff 2 s else startDrain true holdNs false s

/-- A drain runs: commands that DRAINING refuses are refused in BRACED too (R433). -/
def drainRuns (s : State) : Bool := s.dev.drain.isSome

/-- ACTIVE of the reply: the accepted commands still to complete, this one apart. -/
def stillActive (s : State) (a : Active) : Nat := (s.cmds.active.filter (fun x => x.id != a.id)).length

def cmdDrain : CmdSpec :=
  { opcode := 0x0107, cls := 2
    device := fun s _ => s.dev.state == .ready
    check := fun _ f => firstSome [ inRange f 0 2 0 3600, rsv f 2 6, noTail f 8 ]
    work := fun s a =>
      let s1 := startDrain false (par a.frame 0 2 * 1000000000) false s
      (s1, okOut (toLE 4 (stillActive s1 a)) []) }

def cmdReset : CmdSpec :=
  { opcode := 0x0108, cls := 2
    device := fun s _ => s.dev.state == .ready || s.dev.state == .braced
    check := fun _ f => firstSome [ inRange f 0 2 0 3600, rsv f 2 6, noTail f 8 ]
    work := fun s a =>
      let s1 := startDrain true (par a.frame 0 2 * 1000000000) false s
      (s1, okOut (toLE 4 (stillActive s1 a)) []) }

/-! ### Rows -/

/-- HOLD_S_EXPIRY: HOLD_S has run, or every result slot is FREE; step 4 begins. -/
def execHoldSExpiry (t : Nat) (s0 : State) : Host.Outcome State Fault Refusal :=
  let s := setNow t s0
  match s.dev.drain with
  | some d =>
    if d.stage = .holding ∧ s.pf.flushAt = none ∧ (d.since + d.holdNs ≤ s.now ∨ s.cmds.slots.isEmpty) then
      .next { s with dev := { s.dev with drain := some { d with stage := .sealing, since := s.now } } }
    else .next s
  | none => .next s

/-- DRAIN_COMPLETE: the closing checkpoint is written and the rails go off; a RESET goes on to power-on (R436). -/
def execDrainComplete (t : Nat) (s0 : State) : Host.Outcome State Fault Refusal :=
  let s := setNow t s0
  match s.dev.drain with
  | some d =>
    if d.stage = .sealing ∧ s.pf.flushAt = none then
      let s1 := sealDown s
      if d.thenReset then .next (railsOff 2 s1)
      else
        let s2 := powerOff s1
        .next { s2 with side := { s2.side with drained := true, busy := false } }
    else .next s
  | none => .next s

/-- RESET_SEAL_COMPLETE: what a reset of kind 3 or 5 writes first is on media, and the rails go off. With no media mounted
there is nothing to write (Table 17.3). -/
def execResetSealComplete (t : Nat) (s0 : State) : Host.Outcome State Fault Refusal :=
  let s := setNow t s0
  match s.dev.resetSeal with
  | some k =>
    if s.pf.flushAt.isSome then .next s else
    let mounted := s.dev.state == .ready || s.dev.state == .braced || s.dev.state == .draining
    .next (railsOff k (if mounted then sealDown s else s))
  | none => .next s

/-- RAILS_OFF_EXPIRY: the rails have been off for 10 ms, and Table 17.1 begins. -/
def execRailsOffExpiry (t : Nat) (s0 : State) : Host.Outcome State Fault Refusal :=
  let s := setNow t s0
  match s.dev.railsOffAt with
  | some x =>
    if x + 10000000 ≤ s.now then
      .next { s with dev := { s.dev with railsOffAt := none }, side := { s.side with powerOnDue := true } }
    else .next s
  | none => .next s

end Sys2Proof.Machine
end

