-- ==== Sys2Proof/Machine/Trust.lean ====
section
/-! DEFINITION. Trust and firmware (chapter 16): images and their verification (R402 to R406), the boot chain (R407), and the
commands of group 0x0B (R410 to R417). -/

namespace Sys2Proof.Machine

/-! ### Slots and headers (R404, Table 16.1) -/

def fwSlot (s : State) (c i : Nat) : FwSlot := s.trust.slots.getD (2 * c + i) {}

def modFwSlot (c i : Nat) (g : FwSlot → FwSlot) (s : State) : State :=
  { s with trust := { s.trust with slots := s.trust.slots.modify (2 * c + i) g } }

/-- A header field of `n` bytes; those of a factory image are free. -/
def hdr (x : FwSlot) (off n : Nat) : Nat :=
  match x.genuine with
  | some c => Config.factoryHeader c off % 2 ^ (8 * n)
  | none => getLE x.image off n

def imgKey (x : FwSlot) : Nat := hdr x 7 1
def imgInterlock (x : FwSlot) : Nat := hdr x 8 2
def imgSvn (x : FwSlot) : Nat := hdr x 10 2
def imgBody (x : FwSlot) : Nat := hdr x 16 8
def imgManifest (x : FwSlot) : Nat := hdr x 32 4

/-- The signed bytes and the image digest. -/
def imgSigned (x : FwSlot) : Bytes := padTo 2720 (x.image.take 2720)
def imgDigest (x : FwSlot) : Bytes :=
  match x.genuine with
  | some c => toLE 64 (Config.factoryDigest c).toNat
  | none => sha3 (imgSigned x)

/-- The manifest of a management image (Table 16.3). -/
def manifest (x : FwSlot) : Bytes := slice x.image 7360 (imgManifest x)
def manCombos (x : FwSlot) : Nat := getLE (manifest x) 6 2

def allZero (bs : Bytes) : Bool := bs.all (fun b => b == 0)

def bodyMax (c : Nat) : Nat := if c = 0 then 25165824 else if c = 1 then 2097152 else 1048576

/-- Check 3 of Table 16.2. The fields of the manifest count as fields of the image (log entry 90). -/
def formatOk (c : Nat) (x : FwSlot) : Bool :=
  let n := 7360 + imgManifest x + imgBody x
  let man := manifest x
  decide (7360 ≤ x.image.length) && hdr x 0 4 == 0x4D495746 && hdr x 4 2 == 1 && hdr x 6 1 == c
    && allZero (slice x.image 36 28) && allZero (slice x.image 7347 13)
    && decide (1 ≤ imgBody x ∧ imgBody x ≤ bodyMax c) && decide (n ≤ 33554432 ∧ n ≤ x.image.length)
    && (if c = 0 then
          imgManifest x == 64 + 8 * manCombos x && decide (1 ≤ manCombos x ∧ manCombos x ≤ 256)
            && getLE man 0 4 == 0x464D5746 && getLE man 4 2 == 1 && allZero (slice man 8 56)
        else imgManifest x == 0)

/-- The checks of Table 16.2 in their order: the REASON of the first that fails, or 0 when the image verifies for component
`c`. Both copies of a slot are one in the model, so check 1 never fails. A factory image passes the checks of its contents:
what can fail is its key, once revoked, and the floor. -/
def verifyReason (s : State) (c : Nat) (x : FwSlot) : Nat :=
  let keyDigest := sha3 (slice x.image 128 2592)
  if x.empty || x.writing || !x.complete then 8
  else if x.genuine.isSome then
    (if s.regs.revoke ≠ 0 ∧ s.regs.revoke.toNat.testBit (imgKey x) then 3 else if imgSvn x < s.regs.floor.toNat then 6 else 0)
  else if !formatOk c x then 1
  else if 3 < imgKey x ∨ BitVec.ofNat 512 (ofLE keyDigest) ≠ s.fixed.romKeys.getD (imgKey x) 0 then 2
  else if s.regs.revoke.toNat.testBit (imgKey x) then 3
  else if !Config.signatureOk (BitVec.ofNat 512 (ofLE keyDigest)) (imgDigest x) (slice x.image 2720 4627) then 4
  else if sha3 (slice x.image 7360 (imgManifest x + imgBody x)) ≠ slice x.image 64 64 then 5
  else if imgSvn x < s.regs.floor.toNat then 6
  else 0

def verifies (s : State) (c i : Nat) : Bool := verifyReason s c (fwSlot s c i) == 0

/-- The slot that a selection names for component `c`. -/
def selOf (sel : BitVec 3) (c : Nat) : Nat := if sel.getLsbD c then 1 else 0

/-- Components in use. -/
def compsInUse (s : State) : List Nat := if s.fixed.variant = .V then [0, 1] else [0, 1, 2]

/-- R406: an entry of the manifest of the management image equals the interlock numbers. The factory's images are tested
together; what else the factory's manifest lists is free. -/
def tested (s : State) (sel : BitVec 3) : Bool :=
  let img (c : Nat) : FwSlot := fwSlot s c (selOf sel c)
  let man := manifest (img 0)
  if (compsInUse s).all (fun c => (img c).genuine.isSome) then true
  else if (img 0).genuine.isSome then Config.factoryLists (imgInterlock (img 0)) (imgInterlock (img 1)) (if s.fixed.variant = .V then 0 else imgInterlock (img 2))
  else (List.range (manCombos (img 0))).any (fun k =>
    let e := 64 + 8 * k
    getLE man e 2 == imgInterlock (img 0) && getLE man (e + 2) 2 == imgInterlock (img 1)
      && (s.fixed.variant == .V || getLE man (e + 4) 2 == imgInterlock (img 2)))

/-- SIGNATURE_BAD and VERSION_INTERLOCK with the detail that R405 and R406 give. -/
def signatureBad (s : State) (c i : Nat) : Refuse := (stSignatureBad, .component c i (imgInterlock (fwSlot s c i)))
def interlockBad (s : State) (sel : BitVec 3) : Refuse :=
  (stVersionInterlock, .component 0 (selOf sel 0) (imgInterlock (fwSlot s 0 (selOf sel 0))))

/-! ### The boot chain (R407) -/

/-- Dry dock from the boot: BOOT_CAUSE 5 to 7 are DOCK_CAUSE 6 to 8. -/
def bootDock (cause comp image reason : Nat) (s : State) : State :=
  let s1 := enterState .dryDock { s with boot := { s.boot with cause := cause, comp := comp, image := image, reason := reason } }
  { s1 with dev := { s1.dev with record := { s1.dev.record with dockCause := cause + 1, readyMs := clampTo 32 ((s1.now - s1.dev.trialAt) / 1000000) } } }

/-- The images are loaded and the cores released (R408). -/
def loadImages (sel : BitVec 3) (trial : Bool) (s : State) : State :=
  let img (c : Nat) : FwSlot := fwSlot s c (selOf sel c)
  let used (c : Nat) : Bool := (compsInUse s).contains c
  let load (c : Nat) : LoadedImage :=
    if !used c then .absent
    else match (img c).genuine with
      | some g => .factory g
      | none => .staged (BitVec.ofNat 16 (imgInterlock (img c))) (BitVec.ofNat 16 (imgSvn (img c))) (BitVec.ofNat 512 (ofLE (imgDigest (img c))))
  { s with boot := { s.boot with
      running := (if used 2 then sel else sel &&& 3), loaded := true, images := (List.range 3).map load, wasTrial := trial, releasedAt := s.now } }

/-- Interlock number, SVN and digest of a loaded image. -/
def LoadedImage.interlock : LoadedImage → Nat
  | .absent => 0
  | .factory c => Config.factoryHeader c 8 % 65536
  | .staged i _ _ => i.toNat

def LoadedImage.svn? : LoadedImage → Option Nat
  | .absent => none
  | .factory c => some (Config.factoryHeader c 10 % 65536)
  | .staged _ v _ => some v.toNat

def LoadedImage.digest : LoadedImage → Nat
  | .absent => 0
  | .factory c => (Config.factoryDigest c).toNat
  | .staged _ _ d => d.toNat

/-- The image that runs as component `c`. -/
def loadedImage (s : State) (c : Nat) : LoadedImage := s.boot.images.getD c .absent

/-- SVN_MIN: the lowest SVN of the running images. -/
def svnMin (s : State) : Nat := let l := s.boot.images.filterMap LoadedImage.svn?; l.foldl min (l.headD 0)

/-- The images of a boot that is no trial: the selected slot of each component, or its other slot. `sel` is built up component
by component; a component with neither ends in dry dock. -/
def bootPick : List Nat → BitVec 3 → State → BitVec 3 ⊕ State → BitVec 3 ⊕ State
  | [], _, _, acc => acc
  | _, _, _, .inr d => .inr d
  | c :: cs, sel, s, .inl now =>
    let i := selOf sel c
    if verifies s c i then bootPick cs sel s (.inl now)
    else if verifies s c (1 - i) then bootPick cs sel s (.inl (now ^^^ (1#3 <<< c)))
    else .inr (bootDock 5 c i (verifyReason s c (fwSlot s c i)) s)

/-- The boot of KNOWN_GOOD. -/
def bootGood (s : State) : State :=
  let sel := s.trust.knownGood
  match bootPick (compsInUse s) sel s (.inl sel) with
  | .inr d => d
  | .inl now =>
    let swapped := (compsInUse s).find? (fun c => selOf now c != selOf sel c)
    let s1 := match swapped with
      | some c => { s with boot := { s.boot with cause := 4, comp := c, image := selOf sel c, reason := verifyReason s c (fwSlot s c (selOf sel c)) } }
      | none => s
    if tested s1 now then loadImages now false s1
    else bootDock 6 0 (selOf now 0) 0 s1

/-- revert(k): the trial ends. -/
def revert (k reason : Nat) (s : State) : State :=
  { s with
    trust := { s.trust with trial := false, current := s.trust.knownGood }
    boot := { s.boot with cause := k, reason := reason } }

/-- R407. A trial revert of the boot before (reset kind 4) keeps its BOOT_CAUSE (log entry 91). -/
def pilotBoot (s0 : State) : State :=
  let s := { s0 with boot := { s0.boot with cause := if s0.dev.record.resetKind = 4 then 2 else 0 } }
  if s.trust.trial ∧ 0 < s.trust.trialLeft then
    let s1 := { s with trust := { s.trust with trialLeft := s.trust.trialLeft - 1 } }
    let sel := s1.trust.current
    match (compsInUse s1).find? (fun c => !verifies s1 c (selOf sel c)) with
    | some c => bootGood (revert 1 (verifyReason s1 c (fwSlot s1 c (selOf sel c))) s1)
    | none => if tested s1 sel then loadImages sel true s1 else bootGood (revert 1 0 s1)
  else if s.trust.trial then bootGood (revert 3 0 s)
  else bootGood s

/-! ### Commands (R410 to R417) -/

/-- The states in which the group is accepted; its commands decide further. -/
def fwStates (s : State) : Bool := s.dev.state == .ready || s.dev.state == .braced || s.dev.state == .dryDock

/-- STATE of a slot. -/
def fwSlotState (s : State) (c i : Nat) : Nat :=
  let x := fwSlot s c i
  if x.empty then 0 else if x.writing then 1 else if verifies s c i then 2 else 3

/-- Table 16.5. -/
def fwSlotRecord (s : State) (c i : Nat) : Bytes :=
  let x := fwSlot s c i
  let st := fwSlotState s c i
  let known := st == 2 || st == 3
  let h (v : Nat) : Nat := if known then v else 0
  toLE 1 c ++ toLE 1 i ++ toLE 1 st ++ toLE 1 (if st = 3 then verifyReason s c x else 0) ++ toLE 1 (h (imgKey x)) ++ zeros 1
    ++ toLE 2 (h (imgInterlock x)) ++ toLE 2 (h (imgSvn x)) ++ zeros 2 ++ toLE 4 (h (hdr x 12 4)) ++ toLE 8 (h (imgBody x)) ++ toLE 8 (h (hdr x 24 8))
    ++ (if st = 2 then imgDigest x else zeros 64)

def cmdFwInfo : CmdSpec :=
  { opcode := 0x0B00, cls := 0
    device := fun s _ => fwStates s
    freeOk := fun s _ => s.dev.state == .dryDock
    check := fun _ f => firstSome [ rsv f 0 8, noTail f 8 ]
    work := fun s _ => (s, okOut [] ((List.range 6).flatMap (fun k => fwSlotRecord s (k / 2) (k % 2)))) }

/-- FW_STAGE, FW_ACTIVATE and FW_COMMIT run one at a time in acceptance order. -/
def fwWait (s : State) (a : Active) : Nat :=
  if s.cmds.active.any (fun b => decide (b.id < a.id) && (b.opcode == 0x0B01 || b.opcode == 0x0B02 || b.opcode == 0x0B03)) then 1 else 3

/-- The slot is named by CURRENT or by KNOWN_GOOD. -/
def slotSelected (s : State) (c i : Nat) : Bool := selOf s.trust.current c == i || selOf s.trust.knownGood c == i

def cmdFwStage : CmdSpec :=
  { opcode := 0x0B01, cls := 2, result := true
    device := fun s _ => fwStates s
    freeOk := fun s _ => s.dev.state == .dryDock
    units := fun s f => if s.fixed.variant = .V ∧ par f 0 1 = 2 then 0xFF else 0
    brace := fun _ _ => true
    check := fun s f => firstSome
      [ inRange f 0 1 0 2, inRange f 1 1 0 1, rsv f 2 6, parRefCheck s f 8 [1, 2, 3],
        need (decide ((parRef f 8).length ≤ 33554432)) (badBytes 24 8 0 33554432), noTail f 40 ]
    objects := fun s f => firstSome
      [ need (!slotSelected s (par f 0 1) (par f 1 1)) (conflict kImage (2 * par f 0 1 + par f 1 1) (fwSlotState s (par f 0 1) (par f 1 1))),
        refRts s f (parRef f 8) ]
    size := fun _ _ => 96
    uses := fun _ f => { refs := [parRef f 8], sources := [parRef f 8], fetch := if (parRef f 8).kind = 3 then [(0, parRef f 8)] else [] }
    take := fun s a => modFwSlot (par a.frame 0 1) (par a.frame 1 1) (fun _ => { empty := false, writing := true }) s
    wait := fwWait
    depth := fun _ _ => 1
    slow := fun _ _ => true
    work := fun s a =>
      let c := par a.frame 0 1
      let i := par a.frame 1 1
      let s1 := modFwSlot c i (fun _ => { empty := false, complete := true, image := refData s a 0 (parRef a.frame 8) }) s
      if verifies s1 c i then (s1, okOut [] (fwSlotRecord s1 c i)) else (s1, failOut (signatureBad s1 c i))
    fail := fun s a _ => modFwSlot (par a.frame 0 1) (par a.frame 1 1) (fun x => { x with writing := false, complete := false }) s }

/-- Steps 2 to 4 of R413. -/
def activateRefuse (s : State) (sel : BitVec 3) : Option Refuse :=
  firstSome
    [ need (!(s.trust.trial && sel != s.trust.current && sel != s.trust.knownGood)) conflictNone,
      ((compsInUse s).find? (fun c => !verifies s c (selOf sel c))).map (fun c => signatureBad s c (selOf sel c)),
      need (tested s sel) (interlockBad s sel) ]

/-- What FW_ACTIVATE changes: CURRENT, TRIAL and TRIAL_LEFT. -/
def activate (s : State) (sel : BitVec 3) : State :=
  if sel = s.trust.knownGood then { s with trust := { s.trust with current := sel, trial := false } }
  else { s with trust := { s.trust with current := sel, trial := true, trialLeft := s.regs.trialBoots.toNat } }

def cmdFwActivate : CmdSpec :=
  { opcode := 0x0B02, cls := 2
    device := fun s _ => fwStates s
    freeOk := fun s _ => s.dev.state == .dryDock
    brace := fun _ _ => true
    check := fun s f => firstSome
      [ inRange f 0 1 0 (if s.fixed.variant = .V then 3 else 7), inRange f 1 1 0 1, rsv f 2 6, noTail f 8 ]
    wait := fwWait
    depth := fun _ _ => 1
    slow := fun _ _ => true
    work := fun s a =>
      let sel := BitVec.ofNat 3 (par a.frame 0 1)
      match activateRefuse s sel with
      | some r => (s, failOut r)
      | none => let s1 := activate s sel; ({ s1 with dev := { s1.dev with resetAsked := par a.frame 1 1 == 1 } }, okOut [] [])
    after := fun s _ => if s.dev.resetAsked then startReset 0 { s with dev := { s.dev with resetAsked := false } } else s }

def cmdFwCommit : CmdSpec :=
  { opcode := 0x0B03, cls := 2
    device := fun s _ => fwStates s
    freeOk := fun s _ => s.dev.state == .dryDock
    check := fun _ f => firstSome [ rsv f 0 8, noTail f 8 ]
    wait := fwWait
    work := fun s _ =>
      if s.dev.state = .ready ∧ s.trust.trial ∧ s.boot.running = s.trust.current then
        ({ s with trust := { s.trust with knownGood := s.trust.current, trial := false } }, okOut [] [])
      else (s, failOut conflictNone) }

/-- The identity record of Table 16.7: ISSUED, PUBLIC_KEY and SIGNATURE stand as manufacture wrote them, ISSUER is the digest of
the issuing key. -/
def identityRecord (s : State) : Bytes :=
  let made := padTo 7315 (s.fixed.identity.take 7315)
  toLE 4 0x544E4449 ++ toLE 2 1 ++ toLE 1 (variantCode s.fixed.variant) ++ zeros 1 ++ padTo 16 (s.fixed.serial.take 16) ++ slice made 24 8
    ++ sha3 (padTo 2592 (s.fixed.issuerKey.take 2592)) ++ slice made 96 7219

/-- The identity record and the key of its issuer (R416). -/
def cmdIdentity : CmdSpec :=
  { opcode := 0x0B04, cls := 0
    device := fun s _ => fwStates s
    freeOk := fun s _ => s.dev.state == .dryDock
    check := fun _ f => firstSome [ rsv f 0 8, noTail f 8 ]
    work := fun s _ => (s, okOut [] (identityRecord s ++ padTo 2592 (s.fixed.issuerKey.take 2592))) }

/-- The quote of Table 16.8, every field as it stands now. -/
def quoteOf (s : State) (f : Frame) : Bytes :=
  let dock := s.dev.state == .dryDock
  let dig (c : Nat) : Nat := (loadedImage s c).digest
  let lock (c : Nat) : Nat := (loadedImage s c).interlock
  let classes := sumNat ((List.range 8).map (fun n => (s.regs.portClass.getD n 0).toNat * 4 ^ n))
  toLE 4 0x544F5551 ++ toLE 2 1 ++ toLE 1 s.dev.state.code ++ toLE 1 (par f 0 1) ++ padTo 64 (slice f.params 8 64) ++ padTo 16 (s.fixed.serial.take 16)
    ++ toLE 8 (ptpNow s) ++ toLE 1 s.clock.state.code ++ zeros 1 ++ toLE 2 s.regs.floor.toNat ++ toLE 4 s.lb.boots ++ toLE 8 s.dev.units.toNat
    ++ toLE 1 (if dock then 0 else s.boot.running.toNat) ++ toLE 1 (s.trust.current.toNat + s.trust.knownGood.toNat * 8 + (if s.trust.trial then 64 else 0))
    ++ toLE 1 s.regs.revoke.toNat ++ toLE 1 s.boot.cause ++ toLE 2 classes ++ zeros 2 ++ toLE 2 (lock 0) ++ toLE 2 (lock 1)
    ++ toLE 2 (lock 2) ++ zeros 2 ++ toLE 64 (dig 0) ++ toLE 64 (dig 1) ++ toLE 64 (dig 2) ++ toLE 64 s.fixed.romDigest.toNat

/-- Requests for a quote that wait for the pilot. -/
def quotesWaiting (s : State) : Nat := (s.cmds.active.filter (fun a => a.opcode == 0x0B05 && decide (a.phase < 3))).length

def cmdAttest : CmdSpec :=
  { opcode := 0x0B05, cls := 0
    device := fun s _ => fwStates s
    freeOk := fun s _ => s.dev.state == .dryDock
    check := fun _ f => firstSome
      [ inRange f 0 1 16 64, rsv f 1 7,
        (firstNonZero (8 + par f 0 1) (slice f.params (8 + par f 0 1) (64 - par f 0 1))).map (fun o => badBytes o 1 0 0), noTail f 72 ]
    needs := fun s _ => need (decide (quotesWaiting s < 64)) (noResource 0x0B00 0 1)
    wait := fun s a => if s.cmds.active.any (fun b => decide (b.id < a.id) && b.opcode == 0x0B05) then 1 else 3
    slow := fun _ _ => true
    work := fun s a =>
      let q := quoteOf s a.frame
      (useFresh s, okOut [] (q ++ padTo 4627 ((Config.sign s.fresh q).take 4627))) }

end Sys2Proof.Machine
end

