-- ==== Sys2Proof/Machine/Params.lean ====
section
/-! DEFINITION. The parameters of every chapter, with their fields and permitted ranges, and GET_PARAM and SET_PARAM (0x0101,
0x0102; R4 to R7, R44, R62 to R65). -/

namespace Sys2Proof.Machine

/-! ### The shape of a parameter -/

inductive Access where
  | ro | rw | rwl | w1c | rsv
  deriving DecidableEq, Repr

/-- A field: its lowest bit, its width, its access, its permitted range and whether it is an LB field. -/
structure PField where
  lo  : Nat
  w   : Nat
  acc : Access
  mn  : Nat := 0
  mx  : Nat := 0
  lb  : Bool := true

/-- A parameter: its width in bytes, its scope, its fields in ascending order, its present value (by berth), what writing a
new value does, a check of a new value against the rest of the state (lowest bit, width, MIN and MAX of the field that is
named), and the limited-change settings that a new value would change (SETTING, first bit, last bit, changes remaining). -/
structure Param where
  size   : Nat
  berth  : Bool := false
  fields : List PField
  read   : State → Nat → Nat
  write  : Nat → Nat → State → State := fun _ _ s => s
  cross  : State → Nat → Nat → Option (Nat × Nat × Nat × Nat) := fun _ _ _ => none
  spend  : State → Nat → List (Nat × Nat × Nat × Nat) := fun _ _ => []

def fRo (lo w : Nat) : PField := { lo := lo, w := w, acc := .ro }
def fRsv (lo w : Nat) : PField := { lo := lo, w := w, acc := .rsv }
def fRw (lo w mn mx : Nat) : PField := { lo := lo, w := w, acc := .rw, mn := mn, mx := mx }
/-- An RW field that is not an LB field. -/
def fVol (lo w mn mx : Nat) : PField := { lo := lo, w := w, acc := .rw, mn := mn, mx := mx, lb := false }
def fRwl (lo w mn mx : Nat) : PField := { lo := lo, w := w, acc := .rwl, mn := mn, mx := mx }
def fW1c (lo : Nat) : PField := { lo := lo, w := 4, acc := .w1c, mn := 0, mx := 15, lb := false }

/-- Adjacent RO fields from bit `lo`, by their widths. -/
def fRos : Nat → List Nat → List PField
  | _, [] => []
  | lo, w :: l => fRo lo w :: fRos (lo + w) l

/-- Fields packed from their lowest bits, widths and values; a value that does not fit saturates. -/
def pack (l : List (Nat × Nat × Nat)) : Nat := sumNat (l.map (fun x => clampTo x.2.1 x.2.2 * 2 ^ x.1))

def bitNat (b : Bool) : Nat := if b then 1 else 0

/-! ### Device, power and heat (Tables 1.7, 1.9, 2.7, 2.13, 17.4, 18.13, 18.14) -/

def pUnits : Param :=
  { size := 8
    fields := fRos 0 [8, 6, 2, 1, 1, 1, 1, 1, 1, 1, 1, 8, 8, 4] ++ [fRsv 44 20]
    read := fun s _ => s.dev.units.toNat }

def pDevState : Param :=
  { size := 4, fields := [fRo 0 8, fRo 8 8, fRsv 16 16]
    read := fun s _ => pack [(0, 8, s.dev.state.code), (8, 8, s.dev.prev.code)] }

def pTrial : Param :=
  { size := 32
    fields := [fRo 0 8, fRo 8 6, fRsv 14 2, fRo 16 8, fRo 24 1, fRsv 25 7, fRo 32 24, fRo 56 8, fRo 64 4, fRo 68 4, fRo 72 8, fRsv 80 16,
      fRo 96 16, fRo 112 16, fRo 128 4, fRsv 132 28, fRo 160 32, fRo 192 64]
    read := fun s _ =>
      let r := s.dev.record
      pack [(0, 8, r.failedCrane.toNat), (8, 6, r.failedHawser.toNat), (16, 8, r.failedHost.toNat), (24, 1, bitNat r.failedSeismic),
        (32, 24, r.failedQuay.toNat), (56, 8, r.failedSram.toNat), (64, 4, r.dockCause), (68, 4, r.failStage), (72, 8, r.failUnit),
        (96, 16, r.trialMs), (112, 16, r.mountMs), (128, 4, r.resetKind), (160, 32, r.readyMs), (192, 64, r.trialTime)] }

/-- The class of a port and its remaining changes; a change spends one (R44, R6). -/
def setClass (n v : Nat) (s : State) : State :=
  if (s.regs.portClass.getD n 0).toNat = v then s
  else { s with regs := { s.regs with portClass := s.regs.portClass.set n (BitVec.ofNat 2 v), portRemain := s.regs.portRemain.modify n (fun x => x - 1) } }

def pClass (n : Nat) : Param :=
  { size := 4, fields := [fRwl 0 2 0 2, fRsv 2 6, fRo 8 8, fRsv 16 16]
    read := fun s _ => pack [(0, 2, (s.regs.portClass.getD n 0).toNat), (8, 8, s.regs.portRemain.getD n 0)]
    write := fun _ v => setClass n (bits v 0 2)
    spend := fun s v => if (s.regs.portClass.getD n 0).toNat = bits v 0 2 then [] else [(n + 1, 0, 1, s.regs.portRemain.getD n 0)] }

def modPower (g : Power → Power) (s : State) : State := { s with power := g s.power }

def pPower : Param :=
  { size := 4, fields := [fRo 0 2, fVol 2 2 0 3, fRo 4 1, fRsv 5 27]
    read := fun s _ => pack [(0, 2, s.power.current), (2, 2, s.power.maxState.toNat), (4, 1, bitNat s.power.exitTo.isSome)]
    write := fun _ v => modPower (fun p => { p with maxState := BitVec.ofNat 2 (bits v 2 2) }) }

def pIdleP1 : Param :=
  { size := 4, fields := [fVol 0 32 100 60000000], read := fun s _ => s.power.idleP1.toNat
    write := fun _ v => modPower (fun p => { p with idleP1 := BitVec.ofNat 32 v }) }

def pIdleP2 : Param :=
  { size := 4, fields := [fVol 0 32 20 3600000], read := fun s _ => s.power.idleP2.toNat
    write := fun _ v => modPower (fun p => { p with idleP2 := BitVec.ofNat 32 v }) }

def pIdleP3 : Param :=
  { size := 4, fields := [fVol 0 32 800 86400000], read := fun s _ => s.power.idleP3.toNat
    write := fun _ v => modPower (fun p => { p with idleP3 := BitVec.ofNat 32 v }) }

/-- A filtered temperature as it reads: 0x8000 before the first valid sample (R147). -/
def tempWord (s : State) (x : Sensor) : Nat := ((filtered s x).map (unsigned 16)).getD 0x8000

/-- The hottest of several sensors. -/
def hottest (s : State) (l : List Sensor) : Nat :=
  match l.filterMap (filtered s) with
  | [] => 0x8000
  | v :: vs => unsigned 16 (vs.foldl max v)

def allComputes : List Sensor := (List.range 8).map (fun i => .compute (i / 4) (i % 4))

def pThermal : Param :=
  { size := 32
    fields := fRos 0 [16, 16, 16, 16, 16, 16, 3, 2, 2, 2] ++ [fRsv 105 7, fRo 112 16, fRo 128 32, fRo 160 16, fRo 176 4, fW1c 180, fRo 184 16, fRsv 200 56]
    read := fun s _ =>
      pack [(0, 16, tempWord s .inlet), (16, 16, tempWord s .outlet), (32, 16, hottest s allComputes),
        (48, 16, hottest s [.ioDie 0, .ioDie 1]), (64, 16, hottest s ((List.range 4).map .regulator)),
        (80, 16, hottest s ((List.range 24).map .quay)), (96, 3, maxNat ((List.range 24).map (quayLevel s))), (99, 2, craneStep s 0),
        (101, 2, craneStep s 1), (103, 2, powerStep s), (112, 16, powerAvg s), (128, 32, throttleMs s), (160, 16, s.lb.trips),
        (176, 4, s.side.openCause), (180, 4, s.thermal.events.toNat), (184, 16, s.thermal.faults)]
    write := fun _ v => modThermal (fun t => { t with events := BitVec.ofNat 4 (bits v 180 4) }) }

/-- A parameter whose RW fields are a register of State. -/
def regParam (size : Nat) (fields : List PField) (get : Regs → Nat) (put : Nat → Regs → Regs) : Param :=
  { size := size, fields := fields, read := fun s _ => get s.regs, write := fun _ v s => { s with regs := put v s.regs } }

def pThermalControl : Param :=
  regParam 4 [fRw 0 12 600 1800, fRsv 12 20] (fun r => r.thermalControl.toNat) (fun v r => { r with thermalControl := BitVec.ofNat 32 v })

/-! ### Host ports (Tables 2.15 to 2.17) -/

def pTransport : Param :=
  { regParam 8 [fRw 0 16 1024 65535, fRw 16 14 10 10000, fRw 30 1 0 1, fRsv 31 1, fRw 32 3 0 7, fRw 35 3 0 7, fRw 38 8 0 255, fRw 46 7 1 99,
      fRw 53 1 0 1, fRsv 54 10] (fun r => r.nimoxTransport.toNat) (fun v r => { r with nimoxTransport := BitVec.ofNat 64 v }) with
    cross := fun _ _ v => if bits v 0 16 = 4791 then some (0, 16, 1024, 65535) else none }

def pPortStats (n : Nat) : Param :=
  { size := 32, fields := fRos 0 [64, 32, 32, 32, 32, 32, 32]
    read := fun s _ =>
      let x := (hostPort s n).stats
      pack [(0, 64, x.framesIn), (64, 32, x.dropHdr), (96, 32, x.badFrame), (128, 32, x.fragTimeout), (160, 32, x.dupDrop), (192, 32, x.denied),
        (224, 32, x.reasmFull)] }

def pPortAddr (n : Nat) : Param :=
  { size := 64
    fields := [fRw 0 32 0 (2 ^ 32 - 1), fRw 32 6 0 32, fRsv 38 2, fRw 40 8 0 128, fRw 48 12 0 4094, fRsv 60 4, fRw 64 32 0 (2 ^ 32 - 1), fRsv 96 32,
      fRw 128 128 0 (2 ^ 128 - 1), fRw 256 128 0 (2 ^ 128 - 1), fRo 384 48, fRsv 432 80]
    read := fun s _ => (s.regs.portAddr.getD n 0).toNat % 2 ^ 384 + (s.fixed.macs.getD n 0).toNat * 2 ^ 384
    write := fun _ v s => { s with regs := { s.regs with portAddr := s.regs.portAddr.set n (BitVec.ofNat 512 (v % 2 ^ 384)) } }
    cross := fun _ _ v => if bits v 32 6 ≠ 0 ∧ bits v 0 32 = 0 then some (32, 6, 0, 0) else none }

/-! ### Memory integrity (Tables 14.6 to 14.8) -/

def pMemControl : Param :=
  regParam 4 [fRw 0 12 1 3600, fRsv 12 20] (fun r => r.memControl.toNat) (fun v r => { r with memControl := BitVec.ofNat 32 v })

def pMemHealth : Param :=
  { size := 64
    fields := fRos 0 [64, 32, 32, 32, 32, 16, 16, 16, 8] ++ [fRsv 248 8, fRo 256 32, fRo 288 32, fW1c 320, fRsv 324 188]
    read := fun s _ =>
      pack [(0, 64, s.mem.ce), (64, 32, s.lb.memUe), (96, 32, s.mem.poisoned.length), (128, 32, s.mem.rdmaUe), (160, 32, s.lb.bufLoss),
        (192, 16, (s.repairs.records.filter (fun r => !r.applied)).length), (208, 16, s.lb.repairsApplied), (224, 16, s.mem.deferred),
        (240, 8, s.repairs.pages.length), (256, 32, scrubPasses s), (288, 32, s.lb.memResets), (320, 4, s.mem.events.toNat)]
    write := fun _ v s => { s with mem := { s.mem with events := BitVec.ofNat 4 (bits v 320 4) } } }

/-- The unit of MEM_UNIT_STATS number `i` from 0x0168. -/
def memUnitOf (v : Variant) (i : Nat) : Nat × Nat :=
  if i < 8 then (if v = .V then 1 else 0, i) else if i < 32 then (2, i - 8) else (3, 0)

def pMemUnit (i : Nat) : Param :=
  { size := 32, fields := fRos 0 [32, 16, 16, 16, 8] ++ [fRsv 88 8, fRo 96 32, fRo 128 32, fRo 160 32, fRsv 192 64]
    read := fun s _ =>
      let u := memUnitOf s.fixed.variant i
      if !isUnit s u.1 u.2 then 0
      else
        let x := unitStats s u.1 u.2
        pack [(0, 32, x.ce), (32, 16, unitCount s.lb.unitUe u.1 u.2), (48, 16, unitCount s.lb.unitHard u.1 u.2), (64, 16, sparesMin s u.1 u.2 false),
          (80, 8, sparesMin s u.1 u.2 true), (96, 32, bits x.lastAddr.toNat 0 32), (128, 32, bits x.lastAddr.toNat 32 32),
          (160, 32, if x.passes = 0 then 0 else (s.now - x.passAt) / 1000000)] }

/-! ### Media (Tables 3.13 to 3.16) -/

/-- The wear of a quay's superblocks in tenths of a cycle: one that is not listed has none. -/
def wearSum (s : State) (q : Nat) : Nat := sumNat ((getQuayMedia s q).sbs.map (fun x => x.wear))
def wearMax (s : State) (q : Nat) : Nat := maxNat ((getQuayMedia s q).sbs.map (fun x => x.wear))
def wearMin (s : State) (q : Nat) : Nat :=
  let l := (getQuayMedia s q).sbs.map (fun x => x.wear)
  if l.length < 1365 then 0 else l.foldl min (l.headD 0)

/-- Page reads that needed a retry, per million, over the last `mins` minutes of some quays. -/
def retryPpm (s : State) (qs : List Nat) (mins : Nat) : Nat :=
  let l := qs.flatMap (fun q => (getQuay s q).retryLog.filter (fun y => decide (s.now / 60000000000 < y.1 + mins)))
  let reads := sumNat (l.map (fun y => y.2.1))
  if reads = 0 then 0 else sumNat (l.map (fun y => y.2.2)) * 1000000 / reads

def degradedQuay (s : State) (q : Nat) : Bool := (getQuayMedia s q).sbs.any (fun x => x.use != .erased && !x.deadDies.isEmpty)

def wearAvg (s : State) : Nat := sumNat ((List.range 24).map (wearSum s)) / (10 * 1365 * 24)

def pMediaHealth : Param :=
  { size := 64
    fields := [fRo 0 32, fRo 32 32, fRo 64 16, fRo 80 16, fRo 96 8, fRo 104 1, fRo 105 1, fRo 106 1, fRsv 107 5, fRo 112 16, fRo 128 32, fRo 160 32,
      fRo 192 32, fRo 224 32, fRo 256 64, fRo 320 32, fRo 352 32, fRo 384 32, fRo 416 32, fRo 448 32, fW1c 480, fRsv 484 28]
    read := fun s _ =>
      let qs := List.range 24
      pack [(0, 32, ((spareBytes s) / 2 ^ 30).toNat), (32, 32, ceilDiv (allocTotal s) (2 ^ 30)), (64, 16, wearAvg s),
        (80, 16, maxNat (qs.map (wearMax s)) / 10), (96, 8, 100 * wearAvg s / 3000), (104, 1, bitNat s.media.worn),
        (105, 1, bitNat (qs.any (fun q => dredgeMode s q == 2))), (106, 1, bitNat (qs.any (degradedQuay s))), (112, 16, s.lb.diesRetired),
        (128, 32, sumNat (s.fixed.factoryBad.map (fun x => x.2.2))), (160, 32, s.lb.badGrown), (192, 32, retryPpm s qs 1440), (224, 32, s.lb.ueCount),
        (256, 64, s.lb.correctedBits), (320, 32, s.lb.xorRebuilds), (352, 32, s.media.fwds.length), (384, 32, s.lb.fwdExpired),
        (416, 32, s.lb.fwdEarly), (448, 32, (s.now - s.media.ckpt.atLocal) / 1000000), (480, 4, s.eng.mediaEvents.toNat)]
    write := fun _ v s => { s with eng := { s.eng with mediaEvents := BitVec.ofNat 4 (bits v 480 4) } } }

def pMediaControl : Param :=
  { regParam 16 [fRw 0 16 1024 16384, fRw 16 8 32 255, fRw 24 8 8 247, fRw 32 12 50 2000, fRsv 44 4, fRw 48 16 1 3600, fRw 64 16 10 100, fRw 80 8 5 255,
      fRw 88 8 8 128, fRsv 96 32] (fun r => r.mediaControl.toNat) (fun v r => { r with mediaControl := BitVec.ofNat 128 v }) with
    write := fun _ v s => wornUpdate { s with regs := { s.regs with mediaControl := BitVec.ofNat 128 v } }
    cross := fun _ _ v => if bits v 16 8 - 8 < bits v 24 8 then some (24, 8, 8, bits v 16 8 - 8) else none }

/-- A berth-scoped parameter whose RW fields are a register of the berth. -/
def berthParam (size : Nat) (fields : List PField) (get : BerthRegs → Nat) (put : Nat → BerthRegs → BerthRegs) : Param :=
  { size := size, berth := true, fields := fields, read := fun s b => get (getBerth s b).regs
    write := fun b v => modBerth b (fun x => { x with regs := put v x.regs }) }

def pNoticeDest : Param :=
  berthParam 32 [fRw 0 3 0 7, fRw 3 1 0 1, fRsv 4 4, fRw 8 16 1024 65535, fRsv 24 8, fRw 32 128 0 (2 ^ 128 - 1), fRsv 160 96]
    (fun r => r.noticeDest.toNat) (fun v r => { r with noticeDest := BitVec.ofNat 256 v })

def pQuayHealth (q : Nat) : Param :=
  { size := 32, fields := fRos 0 [16, 16, 16, 16, 16, 16, 8, 2] ++ [fRsv 106 6, fRo 112 16, fRo 128 32, fRo 160 32, fRo 192 32, fRo 224 32]
    read := fun s _ =>
      pack [(0, 16, tempWord s (.quay q)), (16, 16, unsigned 16 (s.lb.quayTempMax.getD q 0)), (32, 16, unsigned 16 (s.lb.quayTempMin.getD q 0)),
        (48, 16, wearSum s q / (10 * 1365)), (64, 16, wearMax s q / 10), (80, 16, wearMin s q / 10), (96, 8, 32 - (getQuayMedia s q).retiredDies.length),
        (104, 2, dredgeMode s q), (112, 16, erasedSb s q), (128, 32, s.lb.quayBadGrown.getD q 0), (160, 32, retryPpm s [q] 60),
        (192, 32, s.lb.minAbove70.getD q 0), (224, 32, s.lb.minAbove85.getD q 0)] }

/-! ### Arithmetic, quays and cranes (Tables 4.5 to 4.8, 5.6, 5.7, 6.6) -/

def craneAny (s : State) : Bool := bits s.dev.units.toNat 0 8 != 0
def hawserOn (s : State) : Bool := bits s.dev.units.toNat 8 6 != 0

def pArithCaps : Param :=
  { size := 8, fields := [fRo 0 16, fRo 16 16, fRo 32 10, fRsv 42 22]
    read := fun s _ => pack [(0, 16, 0x007F), (16, 16, if craneAny s then 0x1C7F else 0), (32, 10, 0x200)] }

def pArithControl : Param :=
  berthParam 4 [fVol 0 1 0 1, fVol 1 4 0 15, fVol 5 9 128 256, fRsv 14 18] (fun r => r.arithControl.toNat)
    (fun v r => { r with arithControl := BitVec.ofNat 32 v })

def pQuantThresh : Param :=
  berthParam 16 [fVol 0 16 0 65535, fVol 16 16 0 65535, fVol 32 16 0 65535, fVol 48 16 0 65535, fVol 64 16 0 65535, fVol 80 16 0 65535,
    fVol 96 32 0 (2 ^ 32 - 1)] (fun r => r.quantThresh.toNat) (fun v r => { r with quantThresh := BitVec.ofNat 128 v })

/-- A berth-scoped parameter of RO fields only. -/
def berthStats (size : Nat) (fields : List PField) (g : State → Nat → Nat) : Param := { size := size, berth := true, fields := fields, read := g }

def pArithTotals : Param :=
  berthStats 32 (fRos 0 [64, 32, 32, 32, 32, 32, 32]) (fun s b =>
    let x := (getBerth s b).stats
    pack [(0, 64, x.arithOps), (64, 32, x.alarmOps), (96, 32, x.shadowMax), (128, 32, x.satAct), (160, 32, x.uflAct), (192, 32, x.nanIn), (224, 32, x.nanOut)])

def pQuayControl : Param :=
  regParam 4 [fRw 0 4 1 15, fRw 4 1 0 1, fVol 5 3 0 4, fRsv 8 24] (fun r => r.quayControl.toNat) (fun v r => { r with quayControl := BitVec.ofNat 32 v })

def pQuayStats (q : Nat) : Param :=
  { size := 32, fields := fRos 0 [64, 64, 32, 32, 32, 3, 1, 1] ++ [fRsv 229 3, fRo 232 16, fRsv 248 8]
    read := fun s _ =>
      let x := getQuay s q
      pack [(0, 64, x.arrayBusy), (64, 64, x.tiles), (128, 32, x.mediaStall), (160, 32, x.linkStall), (192, 32, x.replays), (224, 3, quayLevel s q),
        (227, 1, bitNat (quayLost s q)), (228, 1, bitNat (sensorState s (.quay q)).fault), (232, 16, x.softReads)] }

def pCraneStats (n : Nat) : Param :=
  { size := 32, fields := fRos 0 [64, 64, 32, 32, 4] ++ [fRsv 196 4, fRo 200 32, fRsv 232 24]
    read := fun s _ =>
      if !unitBit s n then 0
      else
        let x := s.eng.cranes.getD n {}
        pack [(0, 64, x.busy), (64, 64, x.products / 65536), (128, 32, x.sramStall), (160, 32, x.operations), (192, 4, x.lastSm), (200, 32, x.switches)] }

/-! ### Plans, vector search, selection (Tables 7.12, 7.13, 8.18 to 8.20, 9.9, 9.10) -/

def pPlanLimits : Param :=
  { size := 8, fields := fRos 0 [8, 8, 16, 4, 3, 1] ++ [fRsv 40 24]
    read := fun s _ => pack [(0, 8, 0x40), (8, 8, 0x40), (16, 16, 0x1000), (32, 4, if unitBit s 16 then 15 else 0), (36, 3, 4), (39, 1, bitNat (unitBit s 17))] }

def pPlanStats : Param :=
  berthStats 32 (fRos 0 [64, 64, 64, 32, 32]) (fun s b =>
    let x := (getBerth s b).stats
    pack [(0, 64, x.planRuns), (64, 64, x.planRows), (128, 64, x.selections), (192, 32, x.dropped), (224, 32, x.nanRoute)])

def pVectorCaps : Param :=
  { size := 8, fields := fRos 0 [7, 1, 13, 11, 21, 11]
    read := fun s _ =>
      if unitBit s 18 then pack [(0, 7, 0x40), (7, 1, bitNat (unitBit s 23)), (8, 13, 0x1000), (21, 11, 0x400), (32, 21, 0x100000), (53, 11, 0x400)]
      else 0 }

def pVectorControl : Param :=
  berthParam 4 [fVol 0 13 16 4096, fRsv 13 3, fVol 16 9 16 256, fVol 25 7 5 90] (fun r => r.vectorControl.toNat)
    (fun v r => { r with vectorControl := BitVec.ofNat 32 v })

def pVectorStats : Param :=
  berthStats 32 (fRos 0 [64, 64, 64, 32, 32]) (fun s b =>
    let x := (getBerth s b).stats
    pack [(0, 64, x.queries), (64, 64, x.pagesRead), (128, 64, x.chartEvals), (192, 32, x.badQueries), (224, 32, x.nanScores)])

def pSelectCaps : Param :=
  { size := 8, fields := fRos 0 [17, 17, 17, 1] ++ [fRsv 52 12]
    read := fun s _ => pack [(0, 17, if unitBit s 20 then 0x10000 else 0), (17, 17, 0x10000), (34, 17, 0x10000), (51, 1, bitNat (hawserOn s))] }

def pSelectStats : Param :=
  berthStats 32 (fRos 0 [64, 64, 32, 32, 32, 32]) (fun s b =>
    let x := (getBerth s b).sel
    pack [(0, 64, x.rows), (64, 64, x.values), (128, 32, x.nanExcluded), (160, 32, x.padExcluded), (192, 32, x.shortRows), (224, 32, x.relocated)])

/-! ### The vault (Tables 10.14 to 10.17) -/

def pVaultCaps : Param :=
  { size := 8, fields := [fRo 0 8, fRo 8 2, fRsv 10 6, fRo 16 17, fRo 33 11, fRo 44 11, fRsv 55 9]
    read := fun _ _ => pack [(0, 8, 0x10), (8, 2, 2), (16, 17, 0x10000), (33, 11, 0x400), (44, 11, 0x400)] }

def pVaultControl : Param :=
  { berthParam 16 [fVol 0 16 0 65535, fVol 16 32 0 3600000000, fVol 48 1 0 1, fVol 49 1 0 1, fVol 50 8 5 255, fVol 58 6 1 63, fVol 64 16 600 43200,
      fVol 80 6 1 32, fVol 86 7 1 100, fRsv 93 3, fVol 96 8 1 64, fVol 104 8 1 64, fVol 112 16 1 65535] (fun r => r.vaultControl.toNat)
      (fun v r => { r with vaultControl := BitVec.ofNat 128 v }) with
    cross := fun _ _ v => if 0 < bits v 16 32 ∧ bits v 16 32 < 1000 then some (16, 32, 0, 3600000000) else none }

def pVaultStats : Param :=
  berthStats 32 (fRos 0 [32, 32, 64, 64, 16, 16, 16, 16]) (fun s b =>
    let x := (getBerth s b).vstats
    pack [(0, 32, x.captures), (32, 32, x.consolidations), (64, 64, x.hostBytes), (128, 64, x.pslcBytes), (192, 16, x.boundMissed), (208, 16, x.digestFails),
      (224, 16, x.overlaps), (240, 16, x.stagingFull)])

def ReplState.code : ReplState → Nat
  | .off => 0 | .idle => 1 | .sending => 2 | .down => 3

def pReplState : Param :=
  berthStats 32 ([fRo 0 2, fRo 2 1, fRsv 3 5, fRo 8 8, fRsv 16 16] ++ fRos 32 [32, 64, 32, 32, 32, 32]) (fun s b =>
    match getVault s b with
    | none => 0
    | some v =>
      let x := v.send
      pack [(0, 2, x.state.code), (2, 1, bitNat x.alt), (8, 8, (backlog v).length), (32, 32, x.lastAcked), (64, 64, x.ackedAt), (128, 32, x.sent),
        (160, 32, x.skipped), (192, 32, x.downs), (224, 32, x.resent)])

/-! ### Berths, tide and time (Tables 11.3, 11.6, 11.10 to 11.13) -/

/-- SCAN_UNITS in use: those that admitted probes and rows occupy (16 contexts and 256 KiB of table each), and those of the
tombstones on the fullest quay (R297). -/
def scanUse (s : State) (b : Nat) : Nat :=
  let held (a : Active) : Nat :=
    if a.opcode = 0x0405 then
      match getIndex s (par a.frame 0 4) with
      | some x => let fb := x.tableBytes + 24 * (seaK a.frame * seaOver a.frame); let n := probesHeld s b fb; max (ceilDiv n 16) (ceilDiv (n * fb) 262144)
      | none => 0
    else if a.opcode = 0x0500 then ceilDiv (16 * par a.frame 4 4) 262144
    else 0
  let running := s.cmds.active.filter (fun a => a.frame.berth == b && a.phase == 3)
  max (min (scanUnits s b) (maxNat (running.map held))) (ceilDiv (maxNat ((List.range 24).map (berthTombs s b))) 1024)

/-- ACT_UNITS in use: the largest A of the berth's bound plans. -/
def actUse (s : State) (b : Nat) : Nat :=
  maxNat ((s.plans.filter (fun p => p.berth == b && p.state == .bound)).map (fun p => ceilDiv (planAct s b p.image) 262144))

/-- The fields of BERTH_SHARES that have a module total: lowest bit, width, module total, lowest permitted, present use. -/
def shareRules (s : State) (b : Nat) : List (Nat × Nat × Nat × Nat × Nat) :=
  [(0, 16, sramUnitsTotal s.fixed.variant, if b = 0 then 4 else 0, ceilDiv (sramUse s b) (2 ^ 24)), (16, 8, 128, 0, actUse s b), (24, 7, 64, 0, scanUse s b),
    (32, 13, 4096, 0, (qpsOf s b).length)]

/-- R296, R297: sums within the module totals, and no share below its present use. -/
def sharesCross (s : State) (b v : Nat) : Option (Nat × Nat × Nat × Nat) :=
  (shareRules s b).findSome? (fun r =>
    let mx := r.2.2.1 - (shareSum s r.1 r.2.1 - shareBits s b r.1 r.2.1)
    let mn := max r.2.2.2.1 r.2.2.2.2
    let x := bits v r.1 r.2.1
    if mx < x ∨ x < mn then some (r.1, r.2.1, mn, mx) else none)

def pShares : Param :=
  { berthParam 16 [fRw 0 16 0 65535, fRw 16 8 0 128, fRw 24 7 0 64, fRsv 31 1, fRw 32 13 0 4096, fRsv 45 3, fRw 48 5 1 16, fRsv 53 11, fRw 64 32 0 (2 ^ 32 - 1),
      fRsv 96 32] (fun r => r.shares.toNat) (fun v r => { r with shares := BitVec.ofNat 128 v }) with cross := sharesCross }

def breakBits (s : State) (b lo : Nat) : Nat := bits (getBerth s b).regs.breakwater.toNat lo 7

/-- MAX at least MIN, and the sum of each MIN over the berths that are not FREE at most 100 (R304). -/
def breakCross (s : State) (b v : Nat) : Option (Nat × Nat × Nat × Nat) :=
  [(0, 7), (16, 23), (32, 39), (48, 55), (64, 71)].findSome? (fun r =>
    let others := sumNat ((List.range 16).map (fun x => if x ≠ b ∧ berthLive s x then breakBits s x r.1 else 0))
    if 100 - others < bits v r.1 7 then some (r.1, 7, 0, 100 - others)
    else if bits v r.2 7 < bits v r.1 7 then some (r.2, 7, bits v r.1 7, 100)
    else none)

def pBreakwater : Param :=
  { berthParam 16 [fRw 0 7 0 100, fRw 7 7 1 100, fRsv 14 2, fRw 16 7 0 100, fRw 23 7 1 100, fRsv 30 2, fRw 32 7 0 100, fRw 39 7 1 100, fRsv 46 2, fRw 48 7 0 100,
      fRw 55 7 1 100, fRsv 62 2, fRw 64 7 0 100, fRw 71 7 1 100, fRsv 78 2, fRw 80 16 10 10000, fRsv 96 32] (fun r => r.breakwater.toNat)
      (fun v r => { r with breakwater := BitVec.ofNat 128 v }) with cross := breakCross }

def pBerthUse : Param :=
  berthStats 64 (fRos 0 [64, 32, 32, 32, 32, 32, 16, 8] ++ [fRsv 248 8, fRo 256 32, fRsv 288 224]) (fun s b =>
    let x := (getBerth s b).use
    pack [(0, 64, x.grantWait), (64, 32, x.mediaLimited), (96, 32, x.linkLimited), (128, 32, x.sramLimited), (160, 32, x.hostLimited),
      (192, 32, x.hawserLimited), (224, 16, x.hostDrops), (240, 8, x.bollardSat), (256, 32, x.lateMax)])

def pTideStatus : Param :=
  { size := 32, fields := fRos 0 [32, 32, 64, 64, 7] ++ [fRsv 199 25, fRo 224 32]
    read := fun s _ =>
      pack [(0, 32, s.tide.active.cycle), (32, 32, s.tide.active.phase), (64, 64, s.tide.since), (128, 64, (s.tide.pending.map (fun t => t.switchAt)).getD 0),
        (192, 7, s.tide.active.entries.length), (224, 32, s.tide.late)] }

def pPtpConfig : Param :=
  regParam 8 [fRw 0 8 0 127, fRw 8 8 0 255, fRw 16 2 0 2, fRsv 18 14, fRw 32 16 100 10000, fRw 48 8 1 100, fRsv 56 8] (fun r => r.ptpConfig.toNat)
    (fun v r => { r with ptpConfig := BitVec.ofNat 64 v })

def pTimeStatus : Param :=
  { size := 64
    fields := [fRo 0 64, fRo 64 2, fRo 66 3, fRsv 69 27, fRo 96 32, fRo 128 32, fRo 160 32, fRo 192 64, fRo 256 32, fRo 288 16, fRo 304 16, fRo 320 32, fRsv 352 160]
    read := fun s _ =>
      let c := s.clock
      pack [(0, 64, ptpNow s), (64, 2, c.state.code), (66, 3, (c.selected.map (fun m => m.port)).getD 0), (96, 32, unsigned 32 (clampInt 32 c.offsetNs)),
        (128, 32, errBound s), (160, 32, unsigned 32 (clampInt 32 c.freqPpb)), (192, 64, (c.selected.map (fun m => m.master.toNat)).getD 0),
        (256, 32, c.rejects), (288, 16, c.steps), (304, 16, c.holdovers), (320, 32, c.pathNs)] }

/-! ### Hawser (Tables 12.11, 12.12) -/

/-- The largest TOPOLOGY that HTOPO offers (R329). -/
def topologyMax (s : State) : Nat := if htopo s = 0 then 0 else if htopo s = 1 then 1 else 3

/-- MODULE_NO, TOPOLOGY, FLEET_ID or RESERVE differ. -/
def fleetChanges (old new : Nat) : Bool :=
  bits old 0 14 != bits new 0 14 || bits old 20 8 != bits new 20 8 || bits old 32 32 != bits new 32 32

def pHawserConfig : Param :=
  { size := 8, fields := [fRw 0 12 0 4095, fRw 12 2 0 3, fRw 14 6 0 63, fRw 20 8 16 240, fRsv 28 4, fRw 32 32 0 (2 ^ 32 - 1)]
    read := fun s _ => s.regs.hawserConfig.toNat
    write := fun _ v s =>
      { s with regs := { s.regs with hawserConfig := BitVec.ofNat 64 v },
               hawser := { s.hawser with retrainAsked := s.hawser.retrainAsked || fleetChanges s.regs.hawserConfig.toNat v } }
    cross := fun s _ v => if topologyMax s < bits v 12 2 then some (12, 2, 0, topologyMax s) else none }

def pHawserStats (n : Nat) : Param :=
  { size := 32, fields := fRos 0 [4, 4, 12, 3] ++ [fRsv 23 9] ++ fRos 32 [64, 32, 32, 32, 16, 16, 16, 8, 8]
    read := fun s _ =>
      let x := hawserPort s n
      pack [(0, 4, x.state.code), (4, 4, x.lanes), (8, 12, x.peerModule), (20, 3, x.peerPort), (32, 64, x.since), (96, 32, x.fecCorr), (128, 32, x.fecUncorr),
        (160, 32, x.replays), (192, 16, x.retrains), (208, 16, x.downs), (224, 16, x.badFrames), (240, 8, x.flowUnknown), (248, 8, x.noRoute)] }

/-! ### Storm (Tables 13.10 to 13.12) -/

def pStormControl : Param :=
  { regParam 8 [fRw 0 1 0 1, fRw 1 1 0 1, fRw 2 1 0 1, fRw 3 1 0 1, fRw 4 1 0 1, fRsv 5 3, fRw 8 11 5 2000, fRw 19 11 2 1999, fRsv 30 2, fRw 32 8 15 100,
      fRw 40 8 1 255, fRw 48 12 10 3600, fRsv 60 4] (fun r => r.stormControl.toNat) (fun v r => { r with stormControl := BitVec.ofNat 64 v }) with
    cross := fun _ _ v => if bits v 8 11 - 1 < bits v 19 11 then some (19, 11, 2, bits v 8 11 - 1) else none }

def holdOffNs (s : State) : Nat := stormCtl s 48 12 * 1000000000

def pStormStatus : Param :=
  { size := 32, fields := [fRo 0 2, fRo 2 4, fRo 6 1, fRo 7 1, fRo 8 8, fRo 16 16, fRo 32 16, fRo 48 16, fRo 64 64, fRo 128 32, fRo 160 32, fRo 192 16, fRo 208 16,
      fRo 224 16, fW1c 240, fRsv 244 12]
    read := fun s _ =>
      let m := s.storm.sensor
      pack [(0, 2, (stormNow s).code), (2, 4, conditions s), (6, 1, bitNat m.fault), (7, 1, bitNat (staltaArmed s)), (8, 8, s.storm.alerts.length),
        (16, 16, wholeOf 16 (peak1s s)), (32, 16, ltaUmg s),
        (48, 16, if stormNow s = .settle then (s.storm.holdAt + holdOffNs s - s.now) / 1000000000 else 0), (64, 64, s.storm.since), (128, 32, s.lb.braces),
        (160, 32, s.lb.announceNo), (192, 16, m.spikes), (208, 16, m.clipped), (224, 16, m.faults), (240, 4, s.storm.events.toNat)]
    write := fun _ v => modStorm (fun x => { x with events := BitVec.ofNat 4 (bits v 240 4) }) }

def pPowerStatus : Param :=
  { size := 32, fields := fRos 0 [16, 16, 1, 1] ++ [fRsv 34 30] ++ fRos 64 [32, 32, 32, 32, 32] ++ [fRsv 224 32]
    read := fun s _ =>
      let x := s.pf
      pack [(0, 16, (Config.freeWord s.now 88).toNat), (16, 16, x.holdupMj), (32, 1, bitNat x.holdupLow), (33, 1, bitNat x.flushOk), (64, 32, x.flushUs), (96, 32, x.flushKib),
        (128, 32, s.lb.pfEvents), (160, 32, x.glitches), (192, 32, if x.measured then (s.now - x.measuredAt) / 1000000000 else 0)] }

/-! ### Logbook and trust (Tables 15.7, 15.8, 16.9, 16.10) -/

def pLogStatus : Param :=
  { size := 32, fields := [fRo 0 8, fRo 8 8, fRo 16 8, fRo 24 1, fRo 25 1, fRsv 26 6, fRo 32 32, fRo 64 32, fRo 96 16, fRo 112 16, fRo 128 32, fRo 160 16, fW1c 176,
      fRsv 180 76]
    read := fun s _ =>
      let sp := (List.range 4).map (fun k => (freeLogSpares s k).length)
      pack [(0, 8, (s.logbook.bad.filter (fun b => b.cause == 0)).length), (8, 8, (s.logbook.bad.filter (fun b => b.cause != 0)).length),
        (16, 8, sp.foldl min (sp.headD 0)), (24, 1, bitNat s.logbook.readOnly), (25, 1, bitNat s.logLive.mirrorLost),
        (32, 32, maxNat (s.logbook.erases.map (fun e => e.2))), (64, 32, maxNat ((s.logbook.erases.filter (fun e => decide (userFirst ≤ e.1))).map (fun e => e.2))),
        (96, 16, s.lb.programFails), (112, 16, s.lb.eraseFails), (128, 32, s.logLive.eccCorrected), (160, 16, s.lb.eccUe), (176, 4, s.logLive.events.toNat)]
    write := fun _ v s => { s with logLive := { s.logLive with events := BitVec.ofNat 4 (bits v 176 4) } } }

/-- Bits of `n` that differ between two values. -/
def changedBits (n old new : Nat) : List Nat := (List.range n).filter (fun i => old.testBit i != new.testBit i)

def pLogControl : Param :=
  { size := 8, fields := [fRwl 0 8 0 255, fRo 8 32, fRsv 40 24]
    read := fun s _ => s.regs.userWp.toNat + pack ((List.range 8).map (fun g => (8 + 4 * g, 4, s.regs.userWpRemain.getD g 0)))
    write := fun _ v s =>
      let ch := changedBits 8 s.regs.userWp.toNat (bits v 0 8)
      { s with regs := { s.regs with userWp := BitVec.ofNat 8 v, userWpRemain := ch.foldl (fun l g => l.modify g (fun x => x - 1)) s.regs.userWpRemain } }
    spend := fun s v => (changedBits 8 s.regs.userWp.toNat (bits v 0 8)).map (fun g => (g + 9, g, g, s.regs.userWpRemain.getD g 0)) }

def pTrustStatus : Param :=
  { size := 16, fields := fRos 0 [3, 3, 3, 1, 3] ++ [fRsv 13 3] ++ fRos 16 [16, 16, 16, 16, 4, 2, 1] ++ [fRsv 87 1, fRo 88 8, fRo 96 32]
    read := fun s _ =>
      let x := s.boot
      let lock (c : Nat) : Nat := (loadedImage s c).interlock
      pack [(0, 3, x.running.toNat), (3, 3, s.trust.current.toNat), (6, 3, s.trust.knownGood.toNat), (9, 1, bitNat s.trust.trial), (10, 3, s.trust.trialLeft),
        (16, 16, lock 0), (32, 16, lock 1), (48, 16, lock 2), (64, 16, svnMin s), (80, 4, x.cause), (84, 2, x.comp),
        (86, 1, x.image), (88, 8, x.reason), (96, 32, s.lb.boots)] }

/-- The lowest SVN of the KNOWN_GOOD images. -/
def svnGood (s : State) : Nat :=
  let l := (compsInUse s).map (fun c => imgSvn (fwSlot s c (selOf s.trust.knownGood c)))
  l.foldl min (l.headD 0)

/-- The cases of R415. -/
def trustCross (s : State) (_b v : Nat) : Option (Nat × Nat × Nat × Nat) :=
  let fl := bits v 0 16
  let rv := bits v 24 4
  let goodKeys := (compsInUse s).map (fun c => imgKey (fwSlot s c (selOf s.trust.knownGood c)))
  let newly := (List.range 4).filter (fun n => rv.testBit n && !s.regs.revoke.getLsbD n)
  if fl < s.regs.floor.toNat ∨ (svnGood s < fl ∧ fl ≠ s.regs.floor.toNat) then some (0, 16, s.regs.floor.toNat, svnGood s)
  else
    match newly.find? (fun n => goodKeys.contains n || rv == 15) with
    | some n => some (24 + n, 1, 0, 0)
    | none => none

def pTrustControl : Param :=
  { size := 8, fields := [fRwl 0 16 0 65535, fRo 16 8, fRwl 24 4 0 15, fRo 28 4, fRw 32 3 1 7, fRsv 35 29]
    read := fun s _ => pack [(0, 16, s.regs.floor.toNat), (16, 8, s.regs.floorRemain), (24, 4, s.regs.revoke.toNat), (28, 4, s.regs.revokeRemain.toNat),
      (32, 3, s.regs.trialBoots.toNat)]
    write := fun _ v s =>
      let r := s.regs
      { s with regs := { r with
          floor := BitVec.ofNat 16 v, floorRemain := (if r.floor.toNat = bits v 0 16 then r.floorRemain else r.floorRemain - 1),
          revoke := BitVec.ofNat 4 (bits v 24 4), revokeRemain := r.revokeRemain &&& ~~~(r.revoke ^^^ BitVec.ofNat 4 (bits v 24 4)),
          trialBoots := BitVec.ofNat 3 (bits v 32 3) } }
    cross := trustCross
    spend := fun s v =>
      (if s.regs.floor.toNat = bits v 0 16 then [] else [(32, 0, 15, s.regs.floorRemain)])
        ++ (changedBits 4 s.regs.revoke.toNat (bits v 24 4)).map (fun n => (33 + n, 24 + n, 24 + n, bits s.regs.revokeRemain.toNat n 1)) }

/-! ### The parameter map -/

/-- Parameters of the groups 0x00 to 0x02. -/
def paramLow (p : Nat) : Option Param :=
  if p = 0x0010 then some pUnits
  else if p = 0x0011 then some pDevState
  else if p = 0x0012 then some pTrial
  else if 0x0020 ≤ p ∧ p ≤ 0x0027 then some (pClass (p - 0x0020))
  else if p = 0x0040 then some pPower
  else if p = 0x0041 then some pIdleP1
  else if p = 0x0042 then some pIdleP2
  else if p = 0x0043 then some pIdleP3
  else if p = 0x0050 then some pThermal
  else if p = 0x0051 then some pThermalControl
  else if p = 0x0120 then some pTransport
  else if 0x0130 ≤ p ∧ p ≤ 0x0137 then some (pPortStats (p - 0x0130))
  else if 0x0140 ≤ p ∧ p ≤ 0x0147 then some (pPortAddr (p - 0x0140))
  else if p = 0x0160 then some pMemControl
  else if p = 0x0161 then some pMemHealth
  else if 0x0168 ≤ p ∧ p ≤ 0x0188 then some (pMemUnit (p - 0x0168))
  else if p = 0x0200 then some pMediaHealth
  else if p = 0x0201 then some pMediaControl
  else if p = 0x0202 then some pNoticeDest
  else if 0x0220 ≤ p ∧ p ≤ 0x0237 then some (pQuayHealth (p - 0x0220))
  else none

/-- Parameters of the groups 0x03 to 0x06. -/
def paramMid (p : Nat) : Option Param :=
  if p = 0x0300 then some pArithCaps
  else if p = 0x0301 then some pArithControl
  else if p = 0x0302 then some pQuantThresh
  else if p = 0x0303 then some pArithTotals
  else if p = 0x0308 then some pQuayControl
  else if 0x0310 ≤ p ∧ p ≤ 0x0317 then some (pCraneStats (p - 0x0310))
  else if p = 0x0320 then some pPlanLimits
  else if p = 0x0321 then some pPlanStats
  else if 0x0340 ≤ p ∧ p ≤ 0x0357 then some (pQuayStats (p - 0x0340))
  else if p = 0x0400 then some pVectorCaps
  else if p = 0x0401 then some pVectorControl
  else if p = 0x0402 then some pVectorStats
  else if p = 0x0500 then some pSelectCaps
  else if p = 0x0501 then some pSelectStats
  else if p = 0x0600 then some pVaultCaps
  else if p = 0x0601 then some pVaultControl
  else if p = 0x0602 then some pVaultStats
  else if p = 0x0603 then some pReplState
  else none

/-- Parameters of the groups 0x07 to 0x0B. -/
def paramHigh (p : Nat) : Option Param :=
  if p = 0x0701 then some pShares
  else if p = 0x0702 then some pBreakwater
  else if p = 0x0703 then some pBerthUse
  else if p = 0x0710 then some pTideStatus
  else if p = 0x0720 then some pPtpConfig
  else if p = 0x0721 then some pTimeStatus
  else if p = 0x0800 then some pHawserConfig
  else if 0x0810 ≤ p ∧ p ≤ 0x0815 then some (pHawserStats (p - 0x0810))
  else if p = 0x0900 then some pStormControl
  else if p = 0x0901 then some pStormStatus
  else if p = 0x0902 then some pPowerStatus
  else if p = 0x0A00 then some pLogStatus
  else if p = 0x0A01 then some pLogControl
  else if p = 0x0B00 then some pTrustStatus
  else if p = 0x0B01 then some pTrustControl
  else none

/-- The parameter of an ID; none when the ID is not assigned. -/
def paramOf (p : Nat) : Option Param :=
  if p < 0x0300 then paramLow p else if p < 0x0700 then paramMid p else paramHigh p

/-! ### GET_PARAM (R62) -/

def paramCount (f : Frame) : Nat := par f 0 2

/-- COUNT 1 to 64 and six reserved bytes. -/
def countCheck (f : Frame) : Option Refuse := firstSome [ inRange f 0 2 1 64, rsv f 2 6, noTail f 8 ]

def getId (f : Frame) (i : Nat) : Nat := pay f (8 * i) 2

def getIds (f : Frame) : List Nat := (List.range (paramCount f)).map (getId f)

def isBerthParam (p : Nat) : Bool := ((paramOf p).map (fun x => x.berth)).getD false

/-- A refusal of a whole entry: its ID or its SIZE at body offset `loc` (R63). -/
def badEntry (loc pid mn mx : Nat) : Refuse := (stBadParam, .field loc pid 0 15 mn mx)

/-- Parameters that DRY_DOCK serves (Table 1.11). -/
def dockParam (p : Nat) : Bool := decide (p ≤ 0x01FF) || decide (0x0A00 ≤ p ∧ p ≤ 0x0BFF)

/-- The record of one parameter in the reply. -/
def paramRecord (s : State) (b p : Nat) : Bytes :=
  match paramOf p with
  | some x => toLE 2 p ++ toLE 2 x.size ++ zeros 4 ++ padTo (roundUp x.size 8) (toLE x.size (x.read s b))
  | none => []

def cmdGetParam : CmdSpec :=
  { opcode := 0x0101, cls := 0, ctrl := true
    device := fun s f =>
      s.dev.state == .ready || s.dev.state == .braced || s.dev.state == .draining || s.dev.state == .mounting
        || (s.dev.state == .dryDock && ((getIds f).filter (fun p => (paramOf p).isSome)).all dockParam)
    freeOk := fun _ f => !(getIds f).any isBerthParam
    check := fun _ f => firstSome
      [ countCheck f, payloadIs f (8 * paramCount f),
        (List.range (paramCount f)).findSome? (fun i => firstSome
          [ need (paramOf (getId f i)).isSome (badEntry (payLoc f (8 * i)) (getId f i) 0 0), payIn f (8 * i + 2) 6 0 0 ]) ]
    work := fun s a => (s, okOut [] ((getIds a.frame).flatMap (paramRecord s a.frame.berth))) }

/-! ### SET_PARAM (R62, R63) -/

/-- One entry: the payload offset at which it begins, its ID, its SIZE, VALUE and MASK. -/
structure SetEntry where
  off   : Nat
  pid   : Nat
  size  : Nat
  value : Nat
  mask  : Nat
  deriving DecidableEq, Repr

def goodSize (n : Nat) : Bool := n == 4 || n == 8 || n == 16 || n == 32 || n == 64

/-- Reads `n` entries from payload offset `off`; a SIZE that is none of the five, or a payload that ends too soon, refuses. -/
def readEntries (f : Frame) : Nat → Nat → Refuse ⊕ List SetEntry
  | 0, off => if off = f.payload.length then .inr [] else .inl (badPayloadLen off off)
  | n + 1, off =>
    if f.payload.length < off + 4 then .inl (badPayloadLen (off + 16 * (n + 1)) (off + 136 * (n + 1)))
    else
      let pid := pay f off 2
      let size := pay f (off + 2) 2
      if !goodSize size then
        .inl (match paramOf pid with
          | some p => badEntry (payLoc f (off + 2)) pid p.size p.size
          | none => badEntry (payLoc f (off + 2)) pid 4 64)
      else
        match readEntries f n (off + 8 + 2 * size) with
        | .inl r => .inl r
        | .inr l => .inr ({ off := off, pid := pid, size := size, value := pay f (off + 8) size, mask := pay f (off + 8 + size) size } :: l)

/-- A refusal that names a field within an entry's VALUE. -/
def badIn (f : Frame) (e : SetEntry) (lo w mn mx : Nat) : Refuse :=
  (stBadParam, .field (payLoc f (e.off + 8 + lo / 8)) e.pid (lo % 8) (lo % 8 + w - 1) mn mx)

/-- Whether an entry's mask covers a field. -/
def covers (e : SetEntry) (x : PField) : Bool := bits e.mask x.lo x.w != 0

/-- The value that an entry gives its parameter: masked RW and RWL fields take VALUE, ones in W1C fields clear. -/
def entryValue (s : State) (b : Nat) (p : Param) (e : SetEntry) : Nat :=
  p.fields.foldl (fun v x =>
    if !covers e x then v
    else match x.acc with
      | .rw => setBits v x.lo x.w (bits e.value x.lo x.w)
      | .rwl => setBits v x.lo x.w (bits e.value x.lo x.w)
      | .w1c => setBits v x.lo x.w (bits v x.lo x.w - (bits v x.lo x.w &&& bits e.value x.lo x.w))
      | .ro => v
      | .rsv => v) (p.read s b)

/-- The lowest and highest value that a field may take in the entry: those of the rule that ties it to other fields or berths,
where that is what the value or the field's highest value breaks, else its own range (Table 2.3). -/
def fieldRange (s : State) (b : Nat) (p : Param) (e : SetEntry) (x : PField) : Nat × Nat :=
  let v := entryValue s b p e
  match [v, setBits v x.lo x.w x.mx].findSome? (fun y => (p.cross s b y).filter (fun c => c.1 == x.lo)) with
  | some c => (c.2.2.1, c.2.2.2)
  | none => (x.mn, x.mx)

/-- R4, R5 and R63 for one field of an entry. -/
def fieldCheck (s : State) (f : Frame) (p : Param) (e : SetEntry) (x : PField) : Option Refuse :=
  let m := bits e.mask x.lo x.w
  let v := bits e.value x.lo x.w
  if m = 0 then none
  else
    match x.acc with
    | .rsv => if v = 0 then none else some (badIn f e x.lo x.w 0 0)
    | .ro => let now := bits (p.read s f.berth) x.lo x.w; some (badIn f e x.lo x.w now now)
    | .rw =>
      let r := fieldRange s f.berth p e x
      if m = 2 ^ x.w - 1 ∧ x.mn ≤ v ∧ v ≤ x.mx then none else some (badIn f e x.lo x.w r.1 r.2)
    | .rwl =>
      let r := fieldRange s f.berth p e x
      if m = 2 ^ x.w - 1 ∧ x.mn ≤ v ∧ v ≤ x.mx then none else some (badIn f e x.lo x.w r.1 r.2)
    | .w1c => if m = 2 ^ x.w - 1 then none else some (badIn f e x.lo x.w x.mn x.mx)

/-- One entry against the ones before it and its parameter's table. -/
def entryRefuse (s : State) (f : Frame) (before : List SetEntry) (e : SetEntry) : Option Refuse :=
  match paramOf e.pid with
  | none => some (badEntry (payLoc f e.off) e.pid 0 0)
  | some p => firstSome
    [ need (!before.any (fun y => y.pid == e.pid)) (badEntry (payLoc f e.off) e.pid 0 0),
      need (e.size == p.size) (badEntry (payLoc f (e.off + 2)) e.pid p.size p.size),
      payIn f (e.off + 4) 4 0 0,
      p.fields.findSome? (fieldCheck s f p e) ]

/-- The entries whose mask covers a field that can be written. -/
def touches (p : Param) (e : SetEntry) : Bool := p.fields.any (fun x => covers e x && x.acc != .ro && x.acc != .rsv)

/-- The entries that write something, with their parameters and the values they give. -/
def newValues (s : State) (b : Nat) (l : List SetEntry) : List (SetEntry × Param × Nat) :=
  l.filterMap (fun e => (paramOf e.pid).bind (fun p => if touches p e then some (e, p, entryValue s b p e) else none))

/-- The class of port `n` after the entries. -/
def newClass (s : State) (l : List (SetEntry × Param × Nat)) (n : Nat) : Nat :=
  match l.find? (fun x => x.1.pid == 0x0020 + n) with
  | some x => bits x.2.2 0 2
  | none => (s.regs.portClass.getD n 0).toNat

/-- R44: a set that leaves no ADMIN port names CLASS of the first entry that lowers one. -/
def adminCheck (s : State) (f : Frame) (l : List (SetEntry × Param × Nat)) : Option Refuse :=
  if (List.range 8).any (fun n => newClass s l n == 2) then none
  else
    (l.find? (fun x => decide (0x0020 ≤ x.1.pid ∧ x.1.pid ≤ 0x0027) && (s.regs.portClass.getD (x.1.pid - 0x0020) 0).toNat == 2)).map
      (fun x => badIn f x.1 0 2 0 2)

/-- The entries of a SET_PARAM, and everything that BAD_PARAM can say of them. -/
def setCheck (s : State) (f : Frame) : Refuse ⊕ List (SetEntry × Param × Nat) :=
  match readEntries f (paramCount f) 0 with
  | .inl r => .inl r
  | .inr l =>
    match (List.range l.length).findSome? (fun i => (l[i]?).bind (entryRefuse s f (l.take i))) with
    | some r => .inl r
    | none =>
      let ns := newValues s f.berth l
      match firstSome [ adminCheck s f ns,
          ns.findSome? (fun x => (x.2.1.cross s f.berth x.2.2).map (fun c => badIn f x.1 c.1 c.2.1 c.2.2.1 c.2.2.2)) ] with
      | some r => .inl r
      | none => .inr ns

/-- The refusal alone. -/
def setRefuse (s : State) (f : Frame) : Option Refuse :=
  match setCheck s f with
  | .inl r => some r
  | .inr _ => none

def setEntries (s : State) (f : Frame) : List (SetEntry × Param × Nat) :=
  match setCheck s f with
  | .inl _ => []
  | .inr l => l

/-- The IDs and SIZEs alone, for what does not depend on the state. -/
def rawEntries (f : Frame) : List SetEntry :=
  match readEntries f (paramCount f) 0 with
  | .inl _ => []
  | .inr l => l

/-- An entry covers a field of this kind. -/
def coversWith (g : PField → Bool) (e : SetEntry) : Bool := ((paramOf e.pid).map (fun p => p.fields.any (fun x => g x && covers e x))).getD false

def writesLb (f : Frame) : Bool := (rawEntries f).any (coversWith (fun x => x.lb && (x.acc == .rw || x.acc == .rwl)))

def writesLimited (f : Frame) : Bool := (rawEntries f).any (coversWith (fun x => x.acc == .rwl))

/-- COUNT_EXHAUSTED for the first limited-change setting that would change with none left (R6). -/
def spendCheck (s : State) (l : List (SetEntry × Param × Nat)) : Option Refuse :=
  l.findSome? (fun x => ((x.2.1.spend s x.2.2).find? (fun r => r.2.2.2 == 0)).map (fun r => (stCountExhausted, .limit x.1.pid r.2.1 r.2.2.1 r.1)))

/-- R46: queue pairs of a port whose class is OBSERVE move to ERROR. -/
def observeQps (s0 : State) (s : State) : State :=
  let lost := s.rdma.qps.filter (fun q => portClassOf s q.port == 0 && portClassOf s0 q.port != 0)
  lost.foldl (fun st q => replQpError q.qpn (qpError q.qpn st)) s

/-- The entries apply together (R7). -/
def applyEntries (b : Nat) (l : List (SetEntry × Param × Nat)) (s : State) : State :=
  observeQps s (l.foldl (fun st x => x.2.1.write b x.2.2 st) s)

/-- R341: a change of the fleet's configuration while an accepted command uses a hawser port. -/
def fleetBusy (s : State) (l : List (SetEntry × Param × Nat)) : Option Refuse :=
  need (!(l.any (fun x => x.1.pid == 0x0800 && fleetChanges s.regs.hawserConfig.toNat x.2.2) && s.cmds.active.any (fun a => a.hawser))) conflictNone

def setWork (s : State) (a : Active) : State × WorkOut :=
  match setCheck s a.frame with
  | .inl r => (s, failOut r)
  | .inr l =>
    match firstSome [ fleetBusy s l, (if writesLb a.frame then logOk s else none), spendCheck s l ] with
    | some r => (s, failOut r)
    | none => (applyEntries a.frame.berth l s, okOut [] [])

def cmdSetParam : CmdSpec :=
  { opcode := 0x0102, cls := 2
    check := fun s f => firstSome [ countCheck f, setRefuse s f ]
    objects := fun s f => fleetBusy s (setEntries s f)
    needs := fun s f => if writesLb f then logOk s else none
    wait := fun s a =>
      if writesLimited a.frame && s.cmds.active.any (fun x => decide (x.id < a.id) && x.opcode == 0x0102 && writesLimited x.frame) then 1 else 3
    work := setWork
    after := fun s _ =>
      if s.hawser.retrainAsked then retrainAll { s with hawser := { s.hawser with retrainAsked := false } } else refreshPorts s }

end Sys2Proof.Machine
end

