-- ==== Sys2Proof/Machine/Commands.lean ====
section
/-! DEFINITION. The table of assigned opcodes: every opcode of every chapter, by group. -/

namespace Sys2Proof.Machine

def deviceSpecs : List CmdSpec :=
  [cmdEcho, cmdGetParam, cmdSetParam, cmdReadResult, cmdRelease, cmdQueueStatus, cmdQueueSet, cmdDrain, cmdReset, cmdQpCreate, cmdQpDestroy,
    cmdRegionRegister, cmdRegionDeregister]

def mediaSpecs : List CmdSpec :=
  [cmdNsCreate, cmdNsDelete, cmdNsInfo, cmdNsRead, cmdNsWrite, cmdNsDiscard, cmdNsFlush, cmdHoldCreate, cmdHoldWrite, cmdHoldSeal, cmdHoldRead,
    cmdHoldDelete, cmdHoldInfo, cmdHoldMap, cmdRelocAck, cmdRelocList]

def planSpecs : List CmdSpec :=
  [cmdPlanLoad, cmdPlanBind, cmdPlanUnbind, cmdPlanDelete, cmdPlanInfo, cmdPlanRun, cmdPlanEstimate, cmdContextClear, cmdAdaptStep, cmdAdaptExport,
    cmdAdaptReset]

def indexSpecs : List CmdSpec :=
  [cmdIndexCreate, cmdIndexDelete, cmdIndexInfo, cmdIndexInsert, cmdIndexRemove, cmdIndexSearch, cmdIndexRebalance]

def selectSpecs : List CmdSpec := [cmdSelectTopk, cmdSelectMerge]

def vaultSpecs : List CmdSpec :=
  [cmdVaultCreate, cmdVaultDelete, cmdVaultInfo, cmdVaultPlan, cmdVaultBegin, cmdVaultCommit, cmdVaultCancel, cmdVaultList, cmdVaultManifest,
    cmdVaultRestore, cmdVaultVerify, cmdVaultConsolidate, cmdVaultKeep, cmdVaultDrop, cmdReplAccept, cmdReplSet]

def berthSpecs : List CmdSpec :=
  [cmdBerthCreate, cmdBerthRelease, cmdBerthSuspend, cmdBerthResume, cmdBerthInfo, cmdTideLoad, cmdTideRead, cmdBollard, cmdMailSend, cmdMailRecv]

def hawserSpecs : List CmdSpec := [cmdHawserInfo, cmdHawserRetrain, cmdFleetMap, cmdCollective]

def stormSpecs : List CmdSpec := [cmdBraceAlert, cmdMotionEvents, cmdMotionWaveform]

def logbookSpecs : List CmdSpec := [cmdLogbookInfo, cmdLogbookRead, cmdLogbookProgram, cmdLogbookErase, cmdLogbookSettings]

def trustSpecs : List CmdSpec := [cmdFwInfo, cmdFwStage, cmdFwActivate, cmdFwCommit, cmdIdentity, cmdAttest]

/-- The opcodes of a group, the high byte of the opcode. -/
def groupSpecs : Nat → List CmdSpec
  | 1 => deviceSpecs
  | 2 => mediaSpecs
  | 3 => planSpecs
  | 4 => indexSpecs
  | 5 => selectSpecs
  | 6 => vaultSpecs
  | 7 => berthSpecs
  | 8 => hawserSpecs
  | 9 => stormSpecs
  | 10 => logbookSpecs
  | 11 => trustSpecs
  | _ => []

/-- What an opcode does; none when it is not assigned. -/
def specOf (op : Nat) : Option CmdSpec := (groupSpecs (op / 256)).find? (fun sp => sp.opcode == op)

/-- The lowest and the highest assigned opcode (R41 step 5). -/
def opcodeMin : Nat := 0x0100
def opcodeMax : Nat := 0x0B05

end Sys2Proof.Machine
end

