-- ==== Sys2Proof/Machine/Admission.lean ====
section
/-! DEFINITION. The way of a command from its completing fragment to its completion: the checks of Table 2.5,
sequencing (R35 to R37), acceptance (R42, R47), start (R38, R58) and the end of its work. -/

namespace Sys2Proof.Machine

/-! ### Step 2: header faults that a whole command of `n` fragments can show (R26) -/

/-- Opcodes on which URGENT is permitted (R26, R348). -/
def urgentOpcode (op : Nat) : Bool := op == 0x0900 || op == 0x0980

def headerFault (op n : Nat) (f : Frame) : Option Refuse :=
  firstSome
    [ need (!f.urgent || urgentOpcode op) (stBadFrame, .field 0xFFFFFF03 0 2 2 0 0),
      need (!f.urgent || n == 1) (badFrameHeader 26 2 1 1),
      need (decide (f.berth ≤ 15)) (badFrameHeader 6 1 0 15),
      need (decide (f.queue ≤ 63) || f.queue == 0xFF) (badFrameHeader 7 1 0 0xFF),
      need (f.queue != 0xFF || f.seq == 0) (badFrameHeader 12 4 0 0),
      need (decide (f.params.length ≤ 65536)) (badFrameHeader 16 4 0 65536),
      need (decide (n ≤ 65535)) (badFrameHeader 26 2 n n),
      need (decide (f.params.length + f.payload.length ≤ 268435456))
        (badFrameHeader 20 4 0 (268435456 - f.params.length)) ]

/-! ### Steps 5 to 13 -/

/-- The state by which R17 judges: while a RESET drains in BRACED, the commands that DRAINING refuses are refused (R433). -/
def judgedState (s : State) : State :=
  if s.dev.state = .braced ∧ s.dev.drain.isSome then { s with dev := { s.dev with state := .draining } } else s

/-- The class an opcode needs: trust and firmware commands need ADMIN in DRY_DOCK (Table 1.11). -/
def neededClass (sp : CmdSpec) (s : State) : Nat := if s.dev.state = .dryDock ∧ sp.opcode / 256 = 11 then 2 else sp.cls

/-- Steps 5 to 13 of Table 2.5 for an assigned opcode: the first check that fails decides. -/
def admissionChecks (sp : CmdSpec) (s : State) (f : Frame) : Option Refuse :=
  firstSome
    [ need (f.queue != 0xFF || sp.ctrl) (badFrameHeader 7 1 0 63),
      sp.frameOk s f,
      need (sp.device (judgedState s) f) conflictNone,
      need (decide (neededClass sp s ≤ portClassOf s f.port)) (stDeniedPort, .none),
      need (berthLive s f.berth || sp.freeOk s f) conflictNone,
      need (missingUnits s (sp.units s f) == 0) (stAbsentUnit, .missing (BitVec.ofNat 64 (missingUnits s (sp.units s f)))),
      need (!(s.dev.state == .braced && sp.brace s f)) (stBraced, .none),
      sp.check s f,
      sp.objects s f,
      (if sp.result then
        (getSlot s f.berth f.tag).bind (fun x => some (conflict kSlot f.tag.toNat
          (match x.state with | .pending => 1 | .ready => 2 | .discard => 3)))
       else none),
      (if f.queue = 0xFF then none else
        let n := (s.cmds.active.filter (fun a => a.frame.berth == f.berth && a.frame.queue == f.queue)).length
        need (decide (n < 256)) (noResource 2 0 1)),
      (if sp.result then
        need (decide ((slotsOf s f.berth).length < slotLimit s)) (noResource 3 0 1) else none),
      (if sp.result && s.dev.state != .dryDock then
        let n := 32 + sp.size s f
        need (decide (n ≤ 2 ^ 30 ∧ n ≤ sramFree s f.berth)) (noResource 4 (sramFree s f.berth) n) else none),
      (match (sp.uses s f).lock with
       | none => none
       | some _ =>
         let all := (s.cmds.active.filter (fun a => a.lock.isSome)).length
         let own := (s.cmds.active.filter (fun a => a.lock.isSome && a.frame.berth == f.berth)).length
         need (decide (all < 65536 ∧ own < 4096)) (noResource 5 0 1)),
      sp.needs s f ]

/-! ### Start and completion -/

/-- The PHASE of an accepted command: 0 behind an earlier command of its queue, 2 in a SUSPENDED berth, its
own waits, 2 for a power-state exit, and otherwise 3 (Table 2.3, R38, R58, R302). -/
def phaseOf (sp : CmdSpec) (s : State) (a : Active) : Nat :=
  if a.sequenced && s.cmds.active.any (fun b => decide (b.id < a.id) && b.sequenced && b.frame.berth == a.frame.berth
      && b.frame.queue == a.frame.queue && decide (b.phase < 3)) then 0
  else if (a.frame.queue ≠ 0xFF ∨ a.origin.isSome) ∧ (getBerth s a.frame.berth).state = .suspended then 2
  else if sp.wait s a ≠ 3 then sp.wait s a
  else if a.depth < s.power.current then 2
  else 3

/-- A poisoned word that the command's work reads in a region, or of which it writes a part (R371, R372). -/
def poisonedRef (u : Uses) (s : State) (a : Active) : Option SramWord :=
  let at0 (g : Region → DRef → Option SramWord) (r : DRef) : Option SramWord :=
    if r.kind = 2 then (regionOf s a.frame.berth r.rkey).bind (fun x => g x r) else none
  if s.mem.poisoned.isEmpty then none
  else firstSome
    [ u.sources.findSome? (at0 (fun x r => poisonIn s x.berth (x.offset + r.offset) r.length)),
      (u.refs.filter (fun r => !u.sources.contains r)).findSome? (at0 (fun x r => poisonPart s x.berth (x.offset + r.offset) r.length)) ]

/-- Ends the command's work: an error that stopped it, a queue pair it used that failed, or the outcome of its
own meaning. -/
def endWork (sp : CmdSpec) (err : Option WorkError) (a : Active) (s : State) : State :=
  let ended := match err with
    | some e =>
      let s1 := match e with
        | .sram w => sramUe w s
        | .media .. => s
        | .link .. => s
      complete a (workErrorOut s e) (sp.fail s1 a e)
    | none =>
      match failedQp s a, poisonedRef (sp.uses s a.frame) s a with
      | some (n, since), _ => complete a { status := stLinkDown, detail := .link 2 n.toNat since } (sp.fail s a (.link 2 n.toNat))
      | none, some w => complete a (workErrorOut s (.sram w)) (sp.fail (sramUe w s) a (.sram w))
      | none, none => let r := sp.work s a; complete a r.2 r.1
  sp.after ended a

/-- RDMA READs for the host data the command needs (Table 2.20, R73). -/
def fetchAll (id : Nat) : List (Nat × DRef) → State → State
  | [], s => s
  | (i, r) :: l, s => fetchAll id l (sendRdmaRead r.qpn id i r s)

/-- Starts an accepted command if nothing holds it back; one whose work takes no time of its own completes
in the same step. -/
def tryStart (sp : CmdSpec) (id : Nat) (s : State) : State :=
  match getActive s id with
  | none => s
  | some a =>
    if a.phase = 3 then s else
    let ph := phaseOf sp s a
    let s1 := modActive id (fun a => { a with phase := ph }) s
    if ph < 3 then
      (if ph = 2 ∧ a.depth < s.power.current ∧ s.power.exitTo = none then
        { s1 with power := { s1.power with exitTo := some a.depth } } else s1)
    else
      let f := (sp.uses s a.frame).fetch
      let s2 := sp.start (fetchAll id f s1) { a with phase := 3 }
      let s3 := modActive id (fun a => { a with awaiting := f.map (fun x => x.1) }) s2
      match getActive s3 id with
      | some b => if f.isEmpty && !sp.slow s3 b then endWork sp none b s3 else s3
      | none => s3

/-- What is kept of a command from acceptance to completion. -/
def newActive (sp : CmdSpec) (f : Frame) (consumed : Bool) (s : State) : Active :=
  let u := sp.uses s f
  { id := s.cmds.nextId, opcode := sp.opcode, frame := f, phase := 0, accepted := ptpNow s, acceptedLocal := s.now,
    result := sp.result, lock := u.lock, objs := u.objs, regions := refRegions u.refs, qps := refQps u.refs,
    pin := u.pin, reserved := u.reserved, snap := u.snap, sequenced := consumed, depth := sp.depth s f }

/-- The result slot that a result-producing command takes, PENDING with its result memory (R47, R430). -/
def newSlot (sp : CmdSpec) (f : Frame) (s : State) : Slot :=
  { berth := f.berth, index := freeSlotIndex s f.berth, tag := f.tag, queue := f.queue, state := .pending,
    reserved := if s.dev.state = .dryDock then 0 else 32 + sp.size s f }

/-- The accepted command is entered, and its source becomes the destination of its queue's notices (R53). -/
def enter (sp : CmdSpec) (f : Frame) (consumed : Bool) (s : State) : State :=
  let s1 := { s with cmds := { s.cmds with
    nextId := s.cmds.nextId + 1, active := s.cmds.active ++ [newActive sp f consumed s],
    slots := if sp.result then newSlot sp f s :: s.cmds.slots else s.cmds.slots } }
  if f.queue = 0xFF then s1 else setQueue { getQueue s1 f.berth f.queue with dest := some (f.port, f.srcIp, f.srcUdp) } s1

/-- Acceptance (R42, R47): the command takes what it holds, a result-producing one takes a slot and result
memory and replies ACCEPTED, and the command starts if it may. -/
def accept (sp : CmdSpec) (f : Frame) (consumed : Bool) (s : State) : State :=
  let s1 := enter sp f consumed s
  let s2 := if sp.result then answer sp.opcode f consumed stOk (.accepted (freeSlotIndex s f.berth) (32 + sp.size s f) (ptpNow s)) [] [] s1 else s1
  tryStart sp s.cmds.nextId (sp.take s2 (newActive sp f consumed s))

/-- A command at admission: refused at the first failing check of steps 5 to 13, or accepted. -/
def admitCommand (op : Nat) (f : Frame) (consumed : Bool) (s : State) : State :=
  match specOf op with
  | none => answer op f consumed stBadFrame (.field 0xFFFFFF04 0 0 15 opcodeMin opcodeMax) [] [] s
  | some sp =>
    match admissionChecks sp s f with
    | some r => answer op f consumed r.1 r.2 [] [] s
    | none => accept sp f consumed s

/-! ### Step 4: sequencing -/

/-- R35: sequencing applies in READY, BRACED and DRAINING, on sequenced queues of berths that are not FREE. -/
def sequencedNow (s : State) (f : Frame) : Bool :=
  (s.dev.state == .ready || s.dev.state == .braced || s.dev.state == .draining) && f.queue != 0xFF && berthLive s f.berth

/-- The held command whose number the queue expects. -/
def heldNext (q : Queue) : Option HeldCmd := q.held.find? (fun h => h.frame.seq == q.expected)

/-- The reassembly a held command came from is freed when it goes to admission (R30). -/
def freeReasm (k : Frame) (s : State) : State :=
  let gone (x : Reasm) : Bool := x.held && x.key.port == k.port && x.key.srcIp == k.srcIp && x.key.srcUdp == k.srcUdp
    && x.key.berth == k.berth && x.key.queue == k.queue && x.key.tag == k.tag && x.key.seq == k.seq
  { s with net := { s.net with reasms := s.net.reasms.filter (fun x => !gone x) } }

/-- Held commands from E upward follow in order (R35); `n` bounds how many are held. -/
def followers (b q : Nat) : Nat → State → State
  | 0, s => s
  | n + 1, s =>
    let qu := getQueue s b q
    match heldNext qu with
    | none => s
    | some h =>
      let s1 := setQueue { qu with expected := qu.expected + 1, held := qu.held.filter (fun x => x.frame.seq != qu.expected) } s
      followers b q n (admitCommand h.opcode h.frame true (freeReasm h.frame s1))

/-- The gap timer belongs to the lowest missing number: it restarts when E has moved on and commands are
still held, and stops when none is (R36). -/
def gapTimer (b q : Nat) (e0 : BitVec 32) (s : State) : State :=
  let qu := getQueue s b q
  if qu.held.isEmpty then setQueue { qu with gapSince := none } s
  else if qu.gapSince.isNone || qu.expected != e0 then setQueue { qu with gapSince := some s.now } s
  else s

/-- A command with d = 0 goes to admission, then the held commands that follow it (R35). -/
def inOrder (op : Nat) (f : Frame) (s : State) : State :=
  let qu := getQueue s f.berth f.queue
  let s1 := setQueue { qu with expected := qu.expected + 1 } s
  let s2 := followers f.berth f.queue qu.held.length (admitCommand op f true s1)
  gapTimer f.berth f.queue qu.expected s2

def dupDrop (port : Nat) (s : State) : State :=
  modPortStats port (fun p => { p with dupDrop := satAdd 32 p.dupDrop 1 }) s

/-- A duplicate receives a fresh copy of the cached reply, or nothing (R37). The FRAGMENT_TIMEOUT of a skipped
number echoes the duplicate's own header (log entry 12). -/
def duplicate (op : Nat) (f : Frame) (s : State) : State :=
  match (getQueue s f.berth f.queue).cache.find? (fun c => c.1 == f.seq) with
  | some (_, .reply r) => sendReply f.port f.srcIp f.srcUdp r s
  | some (_, .skipped b) =>
    sendReply f.port f.srcIp f.srcUdp { replyOf s op f b.status b.detail [] [] with block := b } s
  | none => dupDrop f.port s

/-- Step 4: admission, hold, drop or duplicate by d = (s − E) mod 2^32 (R35). -/
def sequence (op : Nat) (f : Frame) (s : State) : State :=
  let qu := getQueue s f.berth f.queue
  let d := (f.seq - qu.expected).toNat
  if d = 0 then inOrder op f s
  else if d ≤ 63 then
    (if qu.held.any (fun h => h.frame.seq == f.seq) then dupDrop f.port s
     else gapTimer f.berth f.queue qu.expected (setQueue { qu with held := qu.held ++ [{ opcode := op, frame := f }] } s))
  else if d < 2 ^ 31 then
    answer op f false stBadFrame (.field 0xFFFFFF0C 0 0 31 qu.expected.toNat ((qu.expected + 63).toNat)) [] [] s
  else if d < 2 ^ 32 - 256 then dupDrop f.port s
  else duplicate op f s

/-- The urgent path: steps 5, 6, 7 and 11 and no others (R31, R348). -/
def urgentPath (op : Nat) (f : Frame) (s : State) : State :=
  match specOf op with
  | none => answer op f false stBadFrame (.field 0xFFFFFF04 0 0 15 opcodeMin opcodeMax) [] [] s
  | some sp =>
    match firstSome
      [ sp.frameOk s f, need (sp.device (judgedState s) f) conflictNone,
        need (decide (neededClass sp s ≤ portClassOf s f.port)) (stDeniedPort, .none), sp.check s f ] with
    | some r => answer op f false r.1 r.2 [] [] s
    | none => accept sp f false s

/-- A reassembled command goes through steps 4 to 13, or along the urgent path. -/
def submit (op : Nat) (f : Frame) (s : State) : State :=
  if f.urgent then urgentPath op f s else if sequencedNow s f then sequence op f s else admitCommand op f false s

/-! ### Whole commands -/

/-- The reassembly key of a command's fragments (R28). -/
def keyOf (f : Frame) : ReasmKey :=
  { port := f.port, srcIp := f.srcIp, srcUdp := f.srcUdp, berth := f.berth, queue := f.queue, tag := f.tag, seq := f.seq }

/-- Bytes of reassembly data reserved (R30). -/
def reasmBytes (s : State) : Nat := sumNat (s.net.reasms.map (fun x => x.paramLen + x.payloadLen))

/-- The refusal of R30 for the first fragment of a command of `n` bytes: for want of a reassembly AVAILABLE is 0 and REQUESTED
1, for want of data they are the unreserved bytes and `n` (Table 2.3, resource 1). -/
def reasmRefuse (s : State) (n : Nat) : Option Refuse :=
  if 2048 ≤ s.net.reasms.length then some (noResource 1 0 1)
  else if 268435456 - reasmBytes s < n then some (noResource 1 (268435456 - reasmBytes s) n)
  else none

/-- A refused key is remembered, the oldest of 2,048 forgotten. -/
def rememberRefused (k : ReasmKey) (s : State) : State :=
  let x : RefusedKey := { key := k, timeoutNs := fragTimeoutNs s, last := s.now }
  { s with net := { s.net with refused := (s.net.refused ++ [x]).drop (s.net.refused.length + 1 - 2048) } }

/-- A command held under R35 keeps its reassembly. -/
def keepIfHeld (r : Reasm) (f : Frame) (s : State) : State :=
  if (getQueue s f.berth f.queue).held.any (fun h => h.frame == f) then { s with net := { s.net with reasms := s.net.reasms ++ [{ r with held := true }] } }
  else s

/-- All `n` fragments of a command arrive, with no other fragment between them. A held command of the same key keeps its
fragments and these are dropped (R28), a remembered refusal drops them all, a partial reassembly is completed by them, and
otherwise a reassembly is reserved (R30). It is free when the command goes to admission and kept while the command is
held. -/
def manyFragments (op n : Nat) (f : Frame) (s : State) : State :=
  let k := keyOf f
  let full (s : State) : State := modPortStats f.port (fun p => { p with reasmFull := satAdd 32 p.reasmFull n }) s
  if s.net.reasms.any (fun x => x.held && x.key == k) then modPortStats f.port (fun p => { p with dupDrop := satAdd 32 p.dupDrop n }) s
  else if s.net.refused.any (fun x => x.key == k) then
    full { s with net := { s.net with refused := s.net.refused.map (fun x => if x.key == k then { x with last := s.now } else x) } }
  else
    let s1 := { s with net := { s.net with reasms := s.net.reasms.filter (fun x => x.key != k) } }
    match reasmRefuse s1 (f.params.length + f.payload.length) with
    | some r => full (rememberRefused k (answer op f false r.1 r.2 [] [] s1))
    | none =>
      let r : Reasm :=
        { key := k, opcode := op, urgent := f.urgent, paramLen := f.params.length, payloadLen := f.payload.length, fragCount := n, unit := fragUnit s,
          timeoutNs := fragTimeoutNs s, frags := [], last := s.now }
      keepIfHeld r f (submit op f s1)

/-- `n` copies of a refusal that consumes no number: each fragment of a frame that R26 refuses is refused by itself. -/
def answerEach (op : Nat) (f : Frame) (r : Refuse) : Nat → State → State
  | 0, s => s
  | n + 1, s => answerEach op f r n (answer op f false r.1 r.2 [] [] s)

/-- A whole command arrives, all its fragments in order: it counts as received datagrams of its port and its berth's HOST
bucket, R26 and R30 apply, and it goes on to steps 4 to 13. A port whose link is down, or a module in POWERED, receives
nothing (R17). -/
def runCommand (op : Nat) (t : Nat) (f : Frame) (s0 : State) : State :=
  let s := setNow t s0
  if portUp s f.port then
    let len := f.params.length + f.payload.length
    let n := max 1 (ceilDiv len (fragUnit s))
    let s1 := modPortStats f.port (fun p => { p with framesIn := satAdd 64 p.framesIn n }) s
    let s2 := hostCharge f.berth f.port (32 * n + len) s1
    match headerFault op n f with
    | some r => answerEach op f r n s2
    | none => if n = 1 then submit op f s2 else manyFragments op n f s2
  else s

end Sys2Proof.Machine
end

