-- ==== Sys2Proof/Machine/Transport.lean ====
section
/-! DEFINITION. Datagrams and reassembly (R23 to R31), gaps in a queue (R36), and the rows that start and end accepted
commands (R38, R49). -/

namespace Sys2Proof.Machine

/-! ### The header of a datagram (Table 2.1) -/

/-- The frame of a datagram's header, with an empty body. -/
def headFrame (d : Datagram) : Frame :=
  { port := d.port, srcIp := d.srcIp, srcUdp := d.srcUdp, urgent := bits (getLE d.bytes 3 1) 2 1 == 1, berth := getLE d.bytes 6 1,
    queue := getLE d.bytes 7 1, tag := BitVec.ofNat 32 (getLE d.bytes 8 4), seq := BitVec.ofNat 32 (getLE d.bytes 12 4), params := [], payload := [], hostList := d.hostList }

def hdrOpcode (d : Datagram) : Nat := getLE d.bytes 4 2
def hdrParamLen (d : Datagram) : Nat := getLE d.bytes 16 4
def hdrPayloadLen (d : Datagram) : Nat := getLE d.bytes 20 4
def hdrIndex (d : Datagram) : Nat := getLE d.bytes 24 2
def hdrCount (d : Datagram) : Nat := getLE d.bytes 26 2

/-- R25: the datagram is dropped without reply. -/
def dropsHeader (d : Datagram) : Bool :=
  decide (d.bytes.length < 32) || getLE d.bytes 0 2 != 0x4D4E || getLE d.bytes 28 4 != crc32c (d.bytes.take 28)
    || bits (getLE d.bytes 3 1) 1 1 == 1

/-- R26 for one frame, when the fragment body size is `unit`, in the order in which the rule lists its cases. -/
def frameFault (d : Datagram) (unit : Nat) : Option Refuse :=
  let flags := getLE d.bytes 3 1
  let f := headFrame d
  let n := hdrParamLen d + hdrPayloadLen d
  let count := max 1 (ceilDiv n unit)
  let i := hdrIndex d
  let body := min ((i + 1) * unit) n - i * unit
  firstSome
    [ need (getLE d.bytes 2 1 == 1) (badFrameHeader 2 1 1 1),
      need (bits flags 3 5 == 0) (stBadFrame, .field 0xFFFFFF03 0 3 7 0 0),
      need (!f.urgent || urgentOpcode (hdrOpcode d)) (stBadFrame, .field 0xFFFFFF03 0 2 2 0 0),
      need (!f.urgent || hdrCount d == 1) (badFrameHeader 26 2 1 1),
      need (decide (f.berth ≤ 15)) (badFrameHeader 6 1 0 15),
      need (decide (f.queue ≤ 63) || f.queue == 0xFF) (badFrameHeader 7 1 0 0xFF),
      need (f.queue != 0xFF || f.seq == 0) (badFrameHeader 12 4 0 0),
      need (decide (hdrParamLen d ≤ 65536)) (badFrameHeader 16 4 0 65536),
      need (decide (1 ≤ hdrCount d)) (badFrameHeader 26 2 1 65535),
      need (decide (i < hdrCount d)) (badFrameHeader 24 2 0 (hdrCount d - 1)),
      (let last := if i + 1 = hdrCount d then 1 else 0; need (bits flags 0 1 == last) (stBadFrame, .field 0xFFFFFF03 0 0 0 last last)),
      need (hdrCount d == count) (badFrameHeader 26 2 count count),
      need (decide (n ≤ 268435456)) (badFrameHeader 20 4 0 (268435456 - hdrParamLen d)),
      need (d.bytes.length == 32 + body) (stBadFrame, .field 0xFFFFFFFF 0 0 15 (32 + body) (32 + body)) ]

/-! ### Fragments -/

/-- The body of a complete reassembly. -/
def reasmBody (r : Reasm) : Bytes := (List.range r.fragCount).flatMap (fun i => ((r.frags.find? (fun x => x.1 == i)).map (fun x => x.2)).getD [])

/-- The command of a body. -/
def wholeFrame (h : Frame) (paramLen : Nat) (body : Bytes) : Frame := { h with params := body.take paramLen, payload := body.drop paramLen }

/-- The fragment carries the same command as the reassembly's first one (R28). -/
def sameCommand (d : Datagram) (r : Reasm) : Bool :=
  hdrOpcode d == r.opcode && hdrParamLen d == r.paramLen && hdrPayloadLen d == r.payloadLen && hdrCount d == r.fragCount

/-- A fragment of a key under which a reassembly is in progress, or is kept for a held command. -/
def nextFragment (d : Datagram) (r : Reasm) (s : State) : State :=
  if r.held || !sameCommand d r || r.frags.any (fun x => x.1 == hdrIndex d) then dupDrop d.port s
  else
    let r1 := { r with frags := r.frags ++ [(hdrIndex d, d.bytes.drop 32)], last := s.now }
    let others := s.net.reasms.filter (fun x => x.key != r.key)
    if r1.frags.length = r1.fragCount then
      let f := wholeFrame (headFrame d) r1.paramLen (reasmBody r1)
      keepIfHeld { r1 with frags := [] } f (submit r1.opcode f { s with net := { s.net with reasms := others } })
    else { s with net := { s.net with reasms := others ++ [r1] } }

/-- The first fragment of a key. -/
def firstFragment (d : Datagram) (s : State) : State :=
  let f := headFrame d
  if hdrCount d = 1 then submit (hdrOpcode d) (wholeFrame f (hdrParamLen d) (d.bytes.drop 32)) s
  else
    match reasmRefuse s (hdrParamLen d + hdrPayloadLen d) with
    | some r =>
      modPortStats d.port (fun p => { p with reasmFull := satAdd 32 p.reasmFull 1 })
        (rememberRefused (keyOf f) (answer (hdrOpcode d) f false r.1 r.2 [] [] s))
    | none =>
      let r : Reasm :=
        { key := keyOf f, opcode := hdrOpcode d, urgent := f.urgent, paramLen := hdrParamLen d, payloadLen := hdrPayloadLen d, fragCount := hdrCount d,
          unit := fragUnit s, timeoutNs := fragTimeoutNs s, frags := [(hdrIndex d, d.bytes.drop 32)], last := s.now }
      { s with net := { s.net with reasms := s.net.reasms ++ [r] } }

/-- A Nimox datagram through steps 1 to 3 of Table 2.5. A reassembly in progress keeps the fragment body size with which it
began (R65). -/
def takeDatagram (d : Datagram) (s0 : State) : State :=
  let s := modPortStats d.port (fun p => { p with framesIn := satAdd 64 p.framesIn 1 }) s0
  if dropsHeader d then modPortStats d.port (fun p => { p with dropHdr := satAdd 32 p.dropHdr 1 }) s
  else
    let f := headFrame d
    let k := keyOf f
    let going := s.net.reasms.find? (fun x => x.key == k)
    let s1 := if f.berth ≤ 15 then hostCharge f.berth d.port d.bytes.length s else s
    match frameFault d ((going.map (fun r => r.unit)).getD (fragUnit s)) with
    | some r => answer (hdrOpcode d) f false r.1 r.2 [] [] s1
    | none =>
      match going with
      | some r => nextFragment d r s1
      | none =>
        if s1.net.refused.any (fun x => x.key == k) then
          modPortStats d.port (fun p => { p with reasmFull := satAdd 32 p.reasmFull 1 })
            { s1 with net := { s1.net with refused := s1.net.refused.map (fun x => if x.key == k then { x with last := s1.now } else x) } }
        else firstFragment d s1

/-- NIMOX_FRAME: R23 takes datagrams to one of the port's addresses and to UDP_PORT; what reaches another UDP port is dropped
without reply (R65). -/
def execNimoxFrame (t : Nat) (d : Datagram) (s0 : State) : Host.Outcome State Fault Refusal :=
  let s := setNow t s0
  if portUp s d.port && portAnswers s d.port d.dstIp && d.dstUdp == udpPort s then .next (takeDatagram d s)
  else .next s

/-- REASSEMBLY_TIMEOUT (R29). -/
def execReassemblyTimeout (t : Nat) (k : ReasmKey) (s0 : State) : Host.Outcome State Fault Refusal :=
  let s := setNow t s0
  match s.net.reasms.find? (fun x => x.key == k && !x.held) with
  | some r =>
    if alive s && decide (r.last + r.timeoutNs < s.now) then
      let f : Frame := { port := k.port, srcIp := k.srcIp, srcUdp := k.srcUdp, urgent := false, berth := k.berth, queue := k.queue, tag := k.tag, seq := k.seq,
                         params := [], payload := [] }
      .next (answer r.opcode f false stFragmentTimeout .none [] [] { s with net := { s.net with reasms := s.net.reasms.filter (fun x => x.key != k) } })
    else .next s
  | none => .next s

/-- REFUSED_KEY_EXPIRY (R30). -/
def execRefusedKeyExpiry (t : Nat) (k : ReasmKey) (s0 : State) : Host.Outcome State Fault Refusal :=
  let s := setNow t s0
  let gone (x : RefusedKey) : Bool := x.key == k && decide (x.last + x.timeoutNs ≤ s.now)
  .next { s with net := { s.net with refused := s.net.refused.filter (fun x => !gone x) } }

/-! ### Gaps (R36) -/

/-- The held command with the lowest number. -/
def lowestHeld (q : Queue) : Option HeldCmd :=
  q.held.foldl (fun best h => match best with
    | none => some h
    | some b => if (h.frame.seq - q.expected).toNat < (b.frame.seq - q.expected).toNat then some h else some b) none

/-- Records FRAGMENT_TIMEOUT for `n` numbers from `x` on, each counted on a port. -/
def skipNumbers (b q port : Nat) : Nat → BitVec 32 → State → State
  | 0, _, s => s
  | n + 1, x, s =>
    skipNumbers b q port n (x + 1)
      (countReply port stFragmentTimeout (cachePut b q x (.skipped (blockNow s b stFragmentTimeout .none)) s))

/-- SEQUENCE_GAP_TIMEOUT. -/
def execSequenceGapTimeout (t berth queue : Nat) (s0 : State) : Host.Outcome State Fault Refusal :=
  let s := setNow t s0
  let qu := getQueue s berth queue
  match qu.gapSince, lowestHeld qu with
  | some g, some h =>
    if alive s && decide (g + fragTimeoutNs s ≤ s.now) then
      let s1 := setQueue { qu with expected := h.frame.seq } s
      let s2 := skipNumbers berth queue h.frame.port (h.frame.seq - qu.expected).toNat qu.expected s1
      .next (gapTimer berth queue qu.expected (followers berth queue qu.held.length s2))
    else .next s
  | _, _ => .next s

/-! ### Starting and ending accepted work -/

/-- COMMAND_START: an accepted command that nothing holds back any more starts. -/
def execCommandStart (t id : Nat) (s0 : State) : Host.Outcome State Fault Refusal :=
  let s := setNow t s0
  match getActive s id with
  | some a =>
    match specOf a.opcode with
    | some sp => .next (if alive s then tryStart sp id s else s)
    | none => .next s
  | none => .next s

/-- The work of a started command can end now: it is over, or something stopped it. -/
def canEnd (sp : CmdSpec) (s : State) (a : Active) (err : Option WorkError) : Bool :=
  a.phase == 3 && (err.isSome || (failedQp s a).isSome || (a.awaiting.isEmpty && sp.done s a))

/-- WORK_COMPLETION: the work ends, or makes its next commit where it makes several. -/
def execWorkCompletion (t id : Nat) (err : Option WorkError) (s0 : State) : Host.Outcome State Fault Refusal :=
  let s := setNow t s0
  match getActive s id with
  | some a =>
    match specOf a.opcode with
    | some sp =>
      if alive s && canEnd sp s a err then
        .next (match (if err.isNone && (failedQp s a).isNone then sp.step s a else none) with
          | some s1 => s1
          | none => endWork sp err a s)
      else .next s
    | none => .next s
  | none => .next s

/-- Data for reference `i` of command `id` has arrived; the last of it lets the work begin on it. -/
def hostData (id i : Nat) (data : Bytes) (s : State) : State :=
  let s1 := modActive id (fun a => { a with fetched := (i, data) :: a.fetched.filter (fun x => x.1 != i), awaiting := a.awaiting.filter (fun x => x != i) }) s
  match getActive s1 id with
  | some a =>
    match specOf a.opcode with
    | some sp => if a.awaiting.isEmpty then sp.arrived s1 a else s1
    | none => s1
  | none => s1

end Sys2Proof.Machine
end

