-- ==== Sys2Proof/Machine/Hawser.lean ====
section
/-! DEFINITION. Hawser frames and messages as they arrive (R323 to R325, R331 to R334, R350), and the rows of link retry,
training and failure (R324, R327, R328, R339). -/

namespace Sys2Proof.Machine

/-! ### Link retry (R324) -/

/-- The frames that wait for an acknowledgement go out again; more than 16 such resends in any 1 ms make the port retrain
(log entry 75). -/
def resendUnacked (p : Nat) (s : State) : State :=
  let h := hawserPort s p
  if h.replay.isEmpty then s
  else
    let log := s.now :: h.resendLog.filter (fun x => decide (s.now < x + 1000000))
    let s1 := modHawserPort p (fun h => { h with replays := satAdd 32 h.replays h.replay.length, resendLog := log, ackAt := s.now }) s
    let s2 := h.replay.foldl (fun st x => emit (.hawser p x.2) st) s1
    if 16 < log.length then startAttempt p s2 else s2

/-- After a discarded frame the port sends NAK, once until it has accepted another frame. -/
def nakOnce (p : Nat) (s : State) : State :=
  let h := hawserPort s p
  if carries h.state && !h.nakDone then sendIdle p true 31 0 (modHawserPort p (fun h => { h with nakDone := true }) s) else s

/-- ACK, NAK and the credits of a frame. -/
def takeHeader (p : Nat) (f : HFrame) (s : State) : State :=
  let ack := BitVec.ofNat 16 f.ack
  let acked (h : HawserPort) : Nat := ((h.replay.findIdx? (fun x => x.1 == ack)).map (fun i => i + 1)).getD 0
  let n := acked (hawserPort s p)
  let s1 := modHawserPort p (fun h => { h with replay := h.replay.drop n, ackAt := (if n = 0 then h.ackAt else s.now) }) s
  let s2 := if f.crCount = 0 then s1 else modCredits p (returnCredits f.crVl f.crCount) s1
  let s3 := if f.nak then resendUnacked p s2 else s2
  pump p s3

/-! ### Flows (R325) -/

def findFlow (s : State) (src : Nat) (n : BitVec 32) : Option Flow := s.hawser.flows.find? (fun f => f.src == src && f.flow == n)

/-- Flows open here as receiver. -/
def openFlows (s : State) : Nat := (s.hawser.flows.filter (fun f => !flowComplete f)).length

/-- The work whose step awaits these bytes and has no flow for them yet. -/
def workFor (s : State) (berth : Nat) (key : Nat × Nat × Nat) : Option Nat :=
  (s.hawser.works.find? (fun w =>
    ((getActive s w.cmd).map (fun a => a.frame.berth == berth)).getD false
      && decide ((s.hawser.flows.filter (fun f => f.work == some w.cmd && (f.src, f.offset, f.bytes) == key)).length
                  < ((w.steps.flatMap (fun st => st.recvs)).filter (fun r => r == key)).length))).map (fun w => w.cmd)

/-- FLOW_OPEN: a flow that work of this module awaits belongs to it, any other one goes to the berth's SRAM share. -/
def takeFlowOpen (src : Nat) (m : Bytes) (s : State) : State :=
  let n := BitVec.ofNat 32 (getLE m 2 4)
  let berth := getLE m 6 1
  let offset := getLE m 10 8
  let len := getLE m 18 8
  let s1 := { s with hawser := { s.hawser with flows := s.hawser.flows.filter (fun f => !(f.src == src && f.flow == n)) } }
  let ack (st : Nat) (x : State) : State := sendMessage src n.toNat (toLE 2 4 ++ toLE 4 n.toNat ++ toLE 2 st ++ zeros 2) x
  if 4096 ≤ openFlows s1 then ack stNoResource s1
  else
    let f : Flow := { src := src, flow := n, berth := berth, offset := offset, bytes := len, frames := [], work := workFor s1 berth (src, offset, len) }
    ack stOk { s1 with hawser := { s1.hawser with flows := s1.hawser.flows ++ [f] } }

/-- A failed RESULT stands among the work's results. -/
def addResult (cmd src : Nat) (r : Bytes) (s : State) : State :=
  modWork cmd (fun w => { w with waiting := w.waiting.erase src, results := w.results ++ [(src, r)] }) s

/-- FLOW_ACK: the DATA frames follow, or the work of the flow fails with the status. -/
def takeFlowAck (src : Nat) (m : Bytes) (s : State) : State :=
  let n := BitVec.ofNat 32 (getLE m 2 4)
  match s.hawser.txFlows.find? (fun t => t.flow == n && t.dest == src) with
  | none => s
  | some t =>
    let s1 := { s with hawser := { s.hawser with txFlows := s.hawser.txFlows.filter (fun x => x.flow != n) } }
    if getLE m 6 2 = stOk then sendFlowData t s1
    else
      let b := blockNow s1 t.berth (getLE m 6 2) (.resource 0x0801 0 1)
      let s2 := match getWork s1 t.cmd with
        | some w => endMembers w b 0x10000 s1
        | none => s1
      addResult t.cmd src b.bytes s2

/-- Bytes of a DATA frame that lie in its flow. -/
def dataBytes (fl : Flow) (f : HFrame) : Bytes := f.payload.take (fl.bytes - f.frameNo * 992)

/-- DATA: written at its place at once, in the work's receive space or in the berth's SRAM share. -/
def takeData (p : Nat) (f : HFrame) (s : State) : State :=
  match findFlow s f.src (BitVec.ofNat 32 f.flow) with
  | none => modHawserPort p (fun h => { h with flowUnknown := satAdd 8 h.flowUnknown 1 }) s
  | some fl =>
    if flowComplete fl then modHawserPort p (fun h => { h with flowUnknown := satAdd 8 h.flowUnknown 1 }) s
    else
      let d := dataBytes fl f
      let at0 := f.frameNo * 992
      let fl1 := { fl with frames := (if fl.frames.contains f.frameNo then fl.frames else f.frameNo :: fl.frames), data := memWrite fl.data at0 d }
      let s1 := { s with hawser := { s.hawser with flows := s.hawser.flows.map (fun x => if x.src == fl.src && x.flow == fl.flow then fl1 else x) } }
      match fl.work with
      | some cmd => workAdvance cmd fl.berth (workFuel s1 cmd) s1
      | none => setShareMem fl.berth (memWrite (shareMem s1 fl.berth) (fl.offset + at0) (d.take (sramShare s1 fl.berth - (fl.offset + at0)))) s1

/-! ### Work (R334) -/

/-- The command of a WORK message as this member runs it. -/
def memberFrame (berth : Nat) (sp : CmdSpec) (m : Bytes) : Frame :=
  let rest := m.drop 8
  { port := 0, srcIp := 0, srcUdp := 0, urgent := false, berth := berth, queue := 0xFF, tag := BitVec.ofNat 32 (getLE m 4 4), seq := 0,
    params := rest.take sp.memberParams, payload := rest.drop sp.memberParams }

/-- What keeps a member from its part. -/
def memberRefuse (sp : CmdSpec) (s : State) (f : Frame) : Option Refuse :=
  firstSome
    [ need ((getBerth s f.berth).state == .moored && decide (f.berth ≤ 15)) conflictNone,
      need (sp.device (judgedState s) f) conflictNone,
      need (missingUnits s (sp.units s f) == 0) (stAbsentUnit, .missing (BitVec.ofNat 64 (missingUnits s (sp.units s f)))),
      need (!(s.dev.state == .braced && sp.brace s f)) (stBraced, .none),
      sp.memberCheck s f ]

/-- WORK: the member accepts its part and starts it, or answers with its refusal. -/
def takeWork (src berth : Nat) (m : Bytes) (s : State) : State :=
  let tag := getLE m 4 4
  let refuse (r : Refuse) : State := sendResult src berth tag (blockNow s berth r.1 r.2) [] s
  match specOf (getLE m 2 2) with
  | none => refuse (stBadFrame, .field 0xFFFFFF04 0 0 15 opcodeMin opcodeMax)
  | some sp =>
    if sp.memberParams = 0 then refuse (stBadFrame, .field 0xFFFFFF04 0 0 15 opcodeMin opcodeMax)
    else
      let f := memberFrame berth sp m
      match memberRefuse sp s f with
      | some r => refuse r
      | none =>
        let u := sp.uses s f
        let a : Active :=
          { id := s.cmds.nextId, opcode := sp.opcode, frame := f, phase := 0, accepted := ptpNow s, acceptedLocal := s.now, result := false,
            lock := u.lock, objs := u.objs, regions := refRegions u.refs, qps := refQps u.refs, pin := u.pin, reserved := u.reserved, snap := u.snap,
            depth := sp.depth s f, hawser := true, origin := some (src, tag) }
        let s1 := { s with cmds := { s.cmds with nextId := s.cmds.nextId + 1, active := s.cmds.active ++ [a] } }
        let s2 := tryStart sp a.id (sp.take s1 a)
        workAdvance a.id berth (workFuel s2 a.id) s2

def readBlock (b : Bytes) : StatusBlock :=
  { status := getLE b 0 2, devState := getLE b 2 1, berthState := getLE b 3 1, detail := readDetail b }

/-- RESULT at the origin, where a failure ends the work on the other members, or at a member, whose work it ends. -/
def takeResult (src berth : Nat) (m : Bytes) (s : State) : State :=
  let tag := getLE m 2 4
  let body := m.drop 6
  let b := readBlock body
  let bad := !isSuccess b.status && b.status != stQuantAlarm
  let here (a : Active) : Bool := a.frame.berth == berth && a.frame.tag.toNat == tag && a.origin.isNone
    && ((getWork s a.id).map (fun w => w.waiting.contains src)).getD false
  match s.cmds.active.find? here with
  | some a =>
    let s1 := addResult a.id src body s
    (match bad, getWork s1 a.id with
     | true, some w => endMembers w b src s1
     | _, _ => s1)
  | none =>
    match s.cmds.active.find? (fun a => a.frame.berth == berth && a.origin == some (src, tag)) with
    | some a => if bad then addResult a.id src body s else s
    | none => s

/-! ### TOPO and ANNOUNCE (R331, R350) -/

def topoNeighbours (m : Bytes) : List (Nat × Nat) :=
  ((List.range 6).map (fun i => (getLE m (4 + 3 * i) 2, getLE m (6 + 3 * i) 1))).filter (fun x => x.1 != 0xFFFF)

/-- The version is newer than the one that is held. -/
def newerTopo (s : State) (src : Nat) (v : BitVec 16) : Bool :=
  match s.hawser.fleet.find? (fun x => x.module == src) with
  | none => true
  | some x => x.version == 0 || decide (0 < (v - x.version).toNat ∧ (v - x.version).toNat < 32768)

/-- TOPO: taken and flooded once for each source and version. -/
def takeTopo (p : Nat) (m : Bytes) (s : State) : State :=
  let src := getLE m 2 2
  let v := BitVec.ofNat 16 (getLE m 22 2)
  if src = moduleNo s ∨ !newerTopo s src v then s
  else
    let known := fleetModules s
    let old := (s.hawser.fleet.find? (fun x => x.module == src)).getD { module := src, serial := [], neighbours := [], version := 0 }
    let new := { old with neighbours := topoNeighbours m, version := v }
    let s1 := { s with hawser := { s.hawser with fleet := new :: s.hawser.fleet.filter (fun x => x.module != src) } }
    floodOn p 2 m (forgetLost known (failCut s s1))

/-- ANNOUNCE of another module: flooded once for each source and announcement number, and taken. -/
def takeAnnounceFrame (p : Nat) (f : HFrame) (s : State) : State :=
  let key := (f.src, getLE f.payload 0 4)
  if f.src = moduleNo s ∨ s.hawser.seenAnn.contains key then s
  else
    let s1 := { s with hawser := { s.hawser with seenAnn := key :: s.hawser.seenAnn } }
    let out := (List.range 6).filter (fun q => hawserUp s1 q && q != p)
    takeAnnounce f.src f.payload (out.foldl (fun st q => sendOn q { f with hops := f.hops + 1 } st) s1)

/-! ### Frames for this module and for others (R331, R333) -/

/-- A whole control message from a module. -/
def takeMessage (p src flow : Nat) (m : Bytes) (s : State) : State :=
  match getLE m 0 2 with
  | 2 => takeTopo p m s
  | 3 => takeFlowOpen src m s
  | 4 => takeFlowAck src m s
  | 5 => takeWork src flow m s
  | 6 => takeResult src flow m s
  | _ => s

/-- A CONTROL frame for this module: messages that span frames gather until their last one. -/
def takeControl (p : Nat) (f : HFrame) (s : State) : State :=
  let had := ((s.hawser.partialMsg.find? (fun x => x.1 == f.src)).map (fun x => x.2)).getD []
  let others := s.hawser.partialMsg.filter (fun x => x.1 != f.src)
  let m := had ++ f.payload
  if f.last then takeMessage p f.src f.flow m { s with hawser := { s.hawser with partialMsg := others } }
  else { s with hawser := { s.hawser with partialMsg := (f.src, m) :: others } }

/-- The lane whose credit a frame gives back. -/
def creditLane (f : HFrame) : Nat := if f.shared then 30 else f.vl

/-- An accepted frame: for this module, an announcement, or in transit. Its credit goes back when it leaves the input
buffer. -/
def takeAccepted (p : Nat) (f : HFrame) (s : State) : State :=
  if f.typ = 3 then takeAnnounceFrame p f (sendIdle p false (creditLane f) 1 s)
  else if f.dest = moduleNo s then
    let s1 := sendIdle p false (creditLane f) 1 s
    if f.typ = 1 then takeData p f s1 else takeControl p f s1
  else
    let g := { f with hops := f.hops + 1 }
    if (fleetModules s).length < g.hops then
      sendIdle p false (creditLane f) 1 (modHawserPort p (fun h => { h with noRoute := satAdd 8 h.noRoute 1 }) s)
    else sendRoutedFrom (some (p, creditLane f)) p (if f.typ = 1 then f.frameNo else 0) g s

/-! ### IDENT and credits while a port does not carry traffic -/

/-- IDENT: step 4 needs two identical valid ones; a port in FOREIGN, MISWIRED or CONFLICT keeps it for its next check. -/
def takeIdent (p : Nat) (m : Bytes) (s : State) : State :=
  let h := hawserPort s p
  if !identValid m then s
  else if h.state = .training ∧ h.step = 4 then
    let s1 := sendIdent p s
    if h.lastIdent = some m then judgeIdent p m s1 else modHawserPort p (fun h => { h with lastIdent := some m }) s1
  else if h.state = .foreign ∨ h.state = .miswired ∨ h.state = .conflict then modHawserPort p (fun h => { h with lastIdent := some m }) s
  else s

/-- Credits of step 6; they may come while this end is still in step 4. -/
def takeGrant (p : Nat) (f : HFrame) (s : State) : State :=
  let h := hawserPort s p
  if h.state = .training then
    let s1 := modCredits p (returnCredits f.crVl f.crCount) s
    if h.step = 6 ∧ 4096 ≤ creditTotal (creditsOf s1 p) then portTrained p s1 else s1
  else s

def isIdent (f : HFrame) : Bool := f.typ == 2 && getLE f.payload 0 2 == 1

/-- A frame whose CRC verifies and whose fields are sound. -/
def takeFrame (p : Nat) (f : HFrame) (s : State) : State :=
  if isIdent f then takeIdent p (padTo 32 f.payload) s
  else if carries (hawserPort s p).state then
    let s1 := takeHeader p f s
    let h := hawserPort s1 p
    if f.typ = 0 then s1
    else if carries h.state && h.rxNext.toNat == f.seqNo then
      takeAccepted p f (modHawserPort p (fun h => { h with rxNext := h.rxNext + 1, nakDone := false }) s1)
    else s1
  else if f.typ = 0 then takeGrant p f s
  else s

/-- The port's lanes deliver frames. -/
def listens (h : HawserPort) : Bool := carries h.state || (h.state == .training && decide (4 ≤ h.step)) || h.state == .foreign || h.state == .miswired || h.state == .conflict

/-- A frame arrives on a hawser port (R323). -/
def hawserReceive (t : Nat) (r : HawserRx) (s0 : State) : State :=
  let s := setNow t s0
  let p := r.port
  if alive s && decide (p < 6) && listens (hawserPort s p) then
    let s1 := modHawserPort p (fun h => { h with fecCorr := satAdd 32 h.fecCorr r.corrected }) s
    if !r.fecOk then nakOnce p (modHawserPort p (fun h => { h with fecUncorr := satAdd 32 h.fecUncorr 1 }) s1)
    else if !frameCrcOk r.bytes then nakOnce p s1
    else if frameBad r.bytes then nakOnce p (modHawserPort p (fun h => { h with badFrames := satAdd 16 h.badFrames 1 }) s1)
    else takeFrame p (readFrame r.bytes) s1
  else s

/-! ### The rows: what a frame is follows from its bytes -/

/-- IDLE (R323). -/
def execIdle (t : Nat) (r : HawserRx) (s : State) : Host.Outcome State Fault Refusal := .next (hawserReceive t r s)

/-- DATA (R325). -/
def execData (t : Nat) (r : HawserRx) (s : State) : Host.Outcome State Fault Refusal := .next (hawserReceive t r s)

/-- IDENT (R328). -/
def execIdent (t : Nat) (r : HawserRx) (s : State) : Host.Outcome State Fault Refusal := .next (hawserReceive t r s)

/-- TOPO (R331). -/
def execTopo (t : Nat) (r : HawserRx) (s : State) : Host.Outcome State Fault Refusal := .next (hawserReceive t r s)

/-- FLOW_OPEN (R325). -/
def execFlowOpen (t : Nat) (r : HawserRx) (s : State) : Host.Outcome State Fault Refusal := .next (hawserReceive t r s)

/-- FLOW_ACK (R325). -/
def execFlowAck (t : Nat) (r : HawserRx) (s : State) : Host.Outcome State Fault Refusal := .next (hawserReceive t r s)

/-- WORK (R334). -/
def execWork (t : Nat) (r : HawserRx) (s : State) : Host.Outcome State Fault Refusal := .next (hawserReceive t r s)

/-- RESULT (R334). -/
def execResult (t : Nat) (r : HawserRx) (s : State) : Host.Outcome State Fault Refusal := .next (hawserReceive t r s)

/-- ANNOUNCE (R350). -/
def execAnnounce (t : Nat) (r : HawserRx) (s : State) : Host.Outcome State Fault Refusal := .next (hawserReceive t r s)

/-! ### Timers and signal -/

/-- HAWSER_REPLAY_TIMEOUT: 10 µs without progress of ACK while frames are outstanding (R324). -/
def execHawserReplayTimeout (t port : Nat) (s0 : State) : Host.Outcome State Fault Refusal :=
  let s := setNow t s0
  let h := hawserPort s port
  if alive s && carries h.state && !h.replay.isEmpty && decide (h.ackAt + 10000 ≤ s.now) then .next (resendUnacked port s) else .next s

/-- HAWSER_TRAINING: signal on a port's lanes; a port that waits for it starts an attempt (R326, R327). -/
def execHawserTraining (t port : Nat) (s0 : State) : Host.Outcome State Fault Refusal :=
  let s := setNow t s0
  let h := hawserPort s port
  if alive s && decide (port < 6) && !h.signal then
    let s1 := modHawserPort port (fun h => { h with signal := true }) s
    .next (if mayTrain s1 port ∧ (h.state = .down ∨ h.state = .absent) then startAttempt port s1 else s1)
  else .next s

/-- LANE_LOCK: steps 2 and 3 have succeeded on 8 or on 4 lanes, and the IDENT exchange begins. -/
def execLaneLock (t port lanes : Nat) (s0 : State) : Host.Outcome State Fault Refusal :=
  let s := setNow t s0
  let h := hawserPort s port
  if alive s && h.state == .training && (h.step == 2 || h.step == 3) && (lanes == 4 || lanes == 8) then
    .next (sendIdent port (modHawserPort port (fun h => { h with locked := lanes, step := 4, stepAt := s.now, lastIdent := none }) s))
  else .next s

/-- The timeout of a training step in ns (Table 12.5). -/
def stepTimeout (n : Nat) : Nat := if n = 2 then 20000000 else if n = 3 then 2000000 else if n = 4 then 1000000 else 10000

/-- TRAINING_STEP_TIMEOUT: after step 2 the lanes that are not equalised are left out, and any other step's timeout ends the
attempt. -/
def execTrainingStepTimeout (t port : Nat) (s0 : State) : Host.Outcome State Fault Refusal :=
  let s := setNow t s0
  let h := hawserPort s port
  if alive s && h.state == .training && decide (h.stepAt + stepTimeout h.step ≤ s.now) then
    .next (if h.step = 2 then modHawserPort port (fun h => { h with step := 3, stepAt := s.now }) s else failAttempt port s)
  else .next s

/-- HAWSER_DOWN_RETRY: every 10 s a DOWN port with signal, or a port that runs on 4 lanes, starts an attempt (R327). -/
def execHawserDownRetry (t port : Nat) (s0 : State) : Host.Outcome State Fault Refusal :=
  let s := setNow t s0
  let h := hawserPort s port
  if alive s && mayTrain s port && ((h.state == .down && h.signal) || h.state == .narrow) && decide (h.stepAt + 10000000000 ≤ s.now) then
    .next (startAttempt port s)
  else .next s

/-- IDENT_RECHECK: every 10 s a port in FOREIGN, MISWIRED or CONFLICT repeats the checks on the last IDENT it has (R328). -/
def execIdentRecheck (t port : Nat) (s0 : State) : Host.Outcome State Fault Refusal :=
  let s := setNow t s0
  let h := hawserPort s port
  if alive s && mayTrain s port && (h.state == .foreign || h.state == .miswired || h.state == .conflict) && decide (h.stepAt + 10000000000 ≤ s.now) then
    let s1 := sendIdent port (modHawserPort port (fun h => { h with stepAt := s.now }) s)
    .next (match h.lastIdent with
      | some m => judgeIdent port m s1
      | none => s1)
  else .next s

/-- HAWSER_SIGNAL_LOSS: the port goes DOWN; frames in flight move to the link's other ports or are lost (R339). -/
def execHawserSignalLoss (t port : Nat) (s0 : State) : Host.Outcome State Fault Refusal :=
  let s := setNow t s0
  let h := hawserPort s port
  if alive s && decide (port < 6) && h.signal then
    let s1 := modHawserPort port (fun h => { h with signal := false }) s
    .next (if h.state = .absent ∨ h.state = .down then s1 else portDown port s1)
  else .next s

end Sys2Proof.Machine
end

