-- ==== Sys2Proof/Machine/Ports.lean ====
section
/-! DEFINITION. The host ports below Nimox: links and their speeds (R442), ARP, neighbour discovery, echo and LLDP
(R66), and priority flow control (R72). -/

namespace Sys2Proof.Machine

/-- The port is in service: HOSTPORTS after sea trial, every port before it (R11, R13). -/
def portInService (s : State) (n : Nat) : Bool := decide (n < 8) && (!s.dev.trialPassed || unitBit s (32 + n))

/-- The speeds of R442 in order; 0 is the rest of the 2 s sequence. -/
def nextSpeed (gbps : Nat) : Nat :=
  if gbps = 400 then 200 else if gbps = 200 then 100 else if gbps = 100 then 0 else 400

/-- HOST_LINK_ATTEMPT_TIMEOUT: a down port's 500 ms attempt ends and the next speed is tried. -/
def execHostLinkAttemptTimeout (t port : Nat) (s0 : State) : Host.Outcome State Fault Refusal :=
  let s := setNow t s0
  if !alive s then .next s else
  let p := hostPort s port
  if s.dev.state ≠ .powered ∧ portInService s port ∧ !p.linkUp ∧ p.trySince + 500000000 ≤ s.now then
    .next (modPort port (fun p => { p with trying := nextSpeed p.trying, trySince := s.now }) s)
  else .next s

/-- HOST_LINK_UP: the link comes up at the speed being tried and the port starts answering frames. -/
def execHostLinkUp (t port gbps : Nat) (s0 : State) : Host.Outcome State Fault Refusal :=
  let s := setNow t s0
  if !alive s then .next s else
  let p := hostPort s port
  if s.dev.state ≠ .powered ∧ portInService s port ∧ !p.linkUp ∧ gbps = p.trying ∧ gbps ≠ 0 then
    .next (modPort port (fun p => { p with linkUp := true, gbps := gbps }) s)
  else .next s

/-- HOST_LINK_LOSS: the link goes down and negotiation begins at 400 Gb/s. -/
def execHostLinkLoss (t port : Nat) (s0 : State) : Host.Outcome State Fault Refusal :=
  let s := setNow t s0
  if (hostPort s port).linkUp then
    .next (modPort port (fun p => { p with linkUp := false, trying := 400, trySince := s.now, downSince := ptpNow s, paused := 0, rxFill := 0, pauseSent := 0 }) s)
  else .next s

/-- ARP_REQUEST: answered for the port's IPv4 address. -/
def execArpRequest (t port : Nat) (target senderIp : BitVec 32) (senderMac : BitVec 48) (s0 : State) : Host.Outcome State Fault Refusal :=
  let s := setNow t s0
  if portUp s port ∧ ipv4On s port ∧ target.toNat = portAddrBits s port 0 32 then
    .next (emit (.arpReply port target senderIp senderMac) s)
  else .next s

/-- NEIGHBOR_DISCOVERY: answered for the port's link-local and global IPv6 addresses. -/
def execNeighborDiscovery (t port : Nat) (target srcIp : Addr) (s0 : State) : Host.Outcome State Fault Refusal :=
  let s := setNow t s0
  if portUp s port ∧ portAnswers s port target ∧ !isMapped target then
    .next (emit (.neighborAdvert port target srcIp) s)
  else .next s

/-- ICMP_ECHO: answered on every address of the port. -/
def execIcmpEcho (t port : Nat) (dstIp srcIp : Addr) (ident seqNo : BitVec 16) (data : Bytes) (s0 : State) : Host.Outcome State Fault Refusal :=
  let s := setNow t s0
  if portUp s port ∧ portAnswers s port dstIp then
    .next (emit (.icmpReply port dstIp srcIp ident seqNo data) s)
  else .next s

/-- LLDP_TRANSMIT: every 30 s, with the serial number and the port name. -/
def execLldpTransmit (t port : Nat) (s0 : State) : Host.Outcome State Fault Refusal :=
  let s := setNow t s0
  if portUp s port ∧ (hostPort s port).lldpAt + 30000000000 ≤ s.now then
    .next (emit (.lldp port s.fixed.serial port) (modPort port (fun p => { p with lldpAt := s.now }) s))
  else .next s

/-- PFC_FRAME: PAUSE or resume of a priority that PFC_EN enables (R72). -/
def execPfcFrame (t port priority : Nat) (pause : Bool) (s0 : State) : Host.Outcome State Fault Refusal :=
  let s := setNow t s0
  if portUp s port ∧ priority < 8 ∧ (bits s.regs.nimoxTransport.toNat 38 8).testBit priority then
    .next (modPort port (fun p => { p with paused := BitVec.ofNat 8 (setBits p.paused.toNat priority 1 (if pause then 1 else 0)) }) s)
  else .next s

end Sys2Proof.Machine
end

