-- ==== Sys2Proof/Machine/StormPower.lean ====
section
/-! DEFINITION. The rows of brace and of power failure: sealing, the return to READY, the flush, and the holdup bank (R344,
R352, R355 to R361). -/

namespace Sys2Proof.Machine

/-! ### Brace -/

/-- BRACE_SEAL_COMPLETE: the write buffer is on media and a map checkpoint is written (R352). -/
def execBraceSealComplete (t : Nat) (s0 : State) : Host.Outcome State Fault Refusal :=
  let s := setNow t s0
  if alive s && s.dev.state == .braced && !s.storm.sealDone then
    let s1 := mapCheckpoint (flushBuffer s)
    .next { s1 with storm := { s1.storm with sealDone := true } }
  else .next s

/-- Space of vault captures that brace kept is freed (R355). -/
def freeKept (s : State) : State := { s with vaults := s.vaults.map (fun v => v.gc false) }

/-- Entry to READY restarts the idle timers (R60). -/
def restartIdle (s : State) : State := { s with power := { s.power with lastP0 := s.now, lastNand := s.now, lastSram := s.now } }

/-- A held power-down request takes effect (R434). -/
def takeHeldDown (s : State) : State :=
  if s.side.pdPending then startDrain false 0 true { s with side := { s.side with pdPending := false, busy := true } } else s

/-- The return to CALM and READY (Table 13.2, R355, R362). -/
def calmDown (s : State) : State :=
  let s1 := closeEvent (enterState .ready { s with storm := { s.storm with state := .calm, since := ptpNow s } })
  takeHeldDown (freeKept (restartIdle (announce s1)))

/-- HOLD_OFF_EXPIRY. A RESET that drains in BRACED leaves the device state as it is (R433). -/
def execHoldOffExpiry (t : Nat) (s0 : State) : Host.Outcome State Fault Refusal :=
  let s := setNow t s0
  if alive s && s.dev.state == .braced && s.storm.state == .settle && s.dev.drain.isNone && decide (s.storm.holdAt + holdOffNs s ≤ s.now) then
    .next (calmDown s)
  else .next s

/-! ### Power failure (R356 to R360) -/

/-- READY, BRACED and DRAINING: the states whose power loss flushes. -/
def flushes (s : State) : Bool := s.dev.state == .ready || s.dev.state == .braced || s.dev.state == .draining

/-- What the assertion stops in every state: accepted commands, drains, resets and requests that wait; the logbook's
programs finish their word. An open event closes with CAUSE [4]. PF_EVENTS counts assertions since manufacture, so this
one survives (log entry 105). -/
def powerLost (s : State) : State :=
  let s1 := closeEvent (modOpenEvent (fun e => { e with cause := e.cause ||| 16 }) s)
  let s2 := { s1 with
    lb := { s1.lb with pfEvents := satAdd 32 s1.lb.pfEvents 1 }
    lbSaved := { s1.lbSaved with pfEvents := satAdd 32 s1.lb.pfEvents 1 }
    pf := { s1.pf with armed := false }
    storm := { s1.storm with power := true }
    dev := { s1.dev with drain := none, resetSeal := none, resetAsked := false }
    side := { s1.side with pdPending := false, busy := false }
    hawser := { s1.hawser with works := [] } }
  logPowerFail { s2 with cmds := { s2.cmds with active := [] } }

/-- POWER_FAIL_ASSERTION: the flush starts with its one announcement, or the shutdown of R360; from here on nothing that
arrives is answered. -/
def execPowerFailAssertion (t : Nat) (s0 : State) : Host.Outcome State Fault Refusal :=
  let s := setNow t s0
  if alive s && s.pf.armed then
    let s1 := powerLost s
    let s2 := if flushes s then announce { s1 with storm := { s1.storm with state := .flush, since := ptpNow s1 } } else s1
    .next { s2 with pf := { s2.pf with flushAt := some s.now } }
  else .next s

/-- PF_GLITCH: a dip below 38 V of less than 50 µs is counted (R356). -/
def execPfGlitch (t : Nat) (s0 : State) : Host.Outcome State Fault Refusal :=
  let s := setNow t s0
  if alive s then .next { s with pf := { s.pf with glitches := satAdd 32 s.pf.glitches 1 } } else .next s

/-- Steps 5 and 6 of Table 13.7: the buffer, the vault's commit records and the flush record are on media. -/
def flushMedia (began : Nat) (s : State) : State :=
  let kib := ceilDiv (bufTotal s) 1024
  let s1 := vaultFlush (flushBuffer s)
  { s1 with media := { s1.media with record := .flush (clampTo 32 ((s1.now - began) / 1000)) (clampTo 32 kib) } }

/-- FLUSH_COMPLETE: step 7, the rails are off. A flush that did not complete leaves no flush record and loses the buffer. -/
def execFlushComplete (t : Nat) (ok : Bool) (s0 : State) : Host.Outcome State Fault Refusal :=
  let s := setNow t s0
  match s.pf.flushAt with
  | some began =>
    let s1 := powerOff (if flushes s && ok then flushMedia began s else s)
    .next { s1 with pf := { s1.pf with flushed := true } }
  | none => .next s

/-- POWER_RESTORED: the input has stayed above 40 V for 100 ms, and power-on begins (R359). -/
def execPowerRestored (t : Nat) (s0 : State) : Host.Outcome State Fault Refusal :=
  let s := setNow t s0
  if s.dev.state == .powered && s.pf.flushed && s.side.switchClosed then
    .next { s with pf := { s.pf with flushed := false }, side := { s.side with powerOnDue := true, nextKind := 1 } }
  else .next s

/-- COMPARATOR_REARM: the input has stayed above 40 V for 10 ms (R356). -/
def execComparatorRearm (t : Nat) (s0 : State) : Host.Outcome State Fault Refusal :=
  let s := setNow t s0
  if s.side.switchClosed then .next { s with pf := { s.pf with armed := true } } else .next s

/-! ### The holdup bank (R361) -/

/-- Usable energy in mJ from the bank's voltages in mV: ½ × C × 4,800 with C = 0.1 ÷ (V1² − V2²). Where V2 is not below V1
the formula has no value (free). -/
def holdupEnergy (s : State) (v1 v2 : Nat) : Nat :=
  if v2 < v1 then 240000000000 / (v1 * v1 - v2 * v2) else Config.amount s.fresh

/-- HOLDUP_MEASUREMENT: from sea trial's, which ends in MOUNTING or READY, every 24 h in READY. A V1 below 79 V discards it. -/
def execHoldupMeasurement (t v1 v2 : Nat) (s0 : State) : Host.Outcome State Fault Refusal :=
  let s := setNow t s0
  let due := !s.pf.measured || (s.dev.state == .ready && decide (s.pf.measuredAt + 86400000000000 ≤ s.now))
  if alive s && (s.dev.state == .mounting || s.dev.state == .ready) && due && decide (79000 ≤ v1) then
    let mj := clampTo 16 (holdupEnergy s v1 v2)
    let low := decide (mj < 6000)
    .next (useFresh { s with
      pf := { s.pf with holdupMj := mj, holdupLow := low, measured := true, measuredAt := s.now }
      storm := { s.storm with events := if low && !s.pf.holdupLow then s.storm.events ||| 4 else s.storm.events } })
  else .next s

end Sys2Proof.Machine
end

