-- ==== Sys2Proof/Machine/PowerOn.lean ====
section
/-! DEFINITION. From 48 V to READY: the input switch and the rails, the start of the components, sea trial and mounting
(R408, R420 to R429, R438 to R440). -/

namespace Sys2Proof.Machine

/-! ### The input switch and the rails (R422, R438, R439, R451) -/

/-- A removal of at least 1 s clears the latches that wait for it. -/
def inputRemoved (s : State) : State :=
  { s with side := { s.side with tripped := 0, lockout := false, railTries := 0, railFault := false, drained := false } }

/-- INPUT_SWITCH_CLOSE: the input is good after it had been removed for `removedMs`. A latched trip keeps the switch open. A
module that R359 holds waits for POWER_RESTORED, and a shorter removal than 1 s leaves a drained or locked out one as it
was. -/
def execInputSwitchClose (t removedMs : Nat) (s0 : State) : Host.Outcome State Fault Refusal :=
  let s := setNow t s0
  let s1 := if 1000 ≤ removedMs then inputRemoved s else s
  if s1.side.tripped ≠ 0 then .next s1
  else
    let s2 := { s1 with side := { s1.side with switchClosed := true, senseOk := true, bladeOk := true } }
    if s2.dev.state == .powered && !s2.pf.flushed && !s2.side.drained && !s2.side.lockout && !s2.side.railFault && !s2.side.powerOnDue && s2.dev.railsOffAt.isNone then
      .next { s2 with side := { s2.side with powerOnDue := true, nextKind := 1 } }
    else .next s2

/-- SENSE_BREAK: 100 µs without a sense contact. -/
def execSenseBreak (t : Nat) (s0 : State) : Host.Outcome State Fault Refusal :=
  let s1 := openSwitch 6 (setNow t s0)
  .next { s1 with side := { s1.side with senseOk := false } }

/-- OVERVOLTAGE: the blade above 62 V for 1 ms. -/
def execOvervoltage (t : Nat) (s0 : State) : Host.Outcome State Fault Refusal :=
  let s1 := openSwitch 5 (setNow t s0)
  .next { s1 with side := { s1.side with bladeOk := false } }

/-- A power-on is under way: its rails are rising. -/
def railsRising (s : State) : Bool := s.dev.state == .powered && s.side.powerOnDue && s.side.switchClosed && s.dev.railsOffAt.isNone

/-- RAIL_FAULT: every rail is off again; the third failure locks the module out (R422). -/
def execRailFault (t : Nat) (s0 : State) : Host.Outcome State Fault Refusal :=
  let s := setNow t s0
  if railsRising s then
    .next { s with side := { s.side with
      railFault := true, railTries := s.side.railTries + 1, railFaultAt := s.now, powerOnDue := false, lockout := decide (3 ≤ s.side.railTries + 1) } }
  else .next s

/-- RAIL_RETRY: 1 s after a rail fault. -/
def execRailRetry (t : Nat) (s0 : State) : Host.Outcome State Fault Refusal :=
  let s := setNow t s0
  if s.dev.state == .powered && s.side.railFault && !s.side.lockout && !s.side.powerOnDue && decide (s.side.railFaultAt + 1000000000 ≤ s.now) then
    .next { s with side := { s.side with powerOnDue := true } }
  else .next s

/-- Steps 2 to 4 of Table 17.1: TRIAL, the LB counters as last written, one boot more, the trip that came before, time from
the last map checkpoint, and the repairs. SRAM is filled with zero already. -/
def enterTrial (s : State) : State :=
  let trip := decide (0 < s.side.tripNote)
  let boots := satAdd 32 s.lbSaved.boots 1
  let s1 := { s with
    lbSaved := { s.lbSaved with boots := boots }
    lb := { s.lbSaved with boots := boots, trips := satAdd 16 s.lbSaved.trips (if trip then 1 else 0) }
    clock := { s.clock with offset := (s.media.ckpt.ptp : Int) - (s.now : Int), state := .unsync }
    thermal := { s.thermal with events := if trip then s.thermal.events ||| 2 else s.thermal.events }
    side := { s.side with tripNote := 0, railsOn := true, railFault := false, railTries := 0, powerOnDue := false, drained := false, busy := false } }
  let s2 := enterState .trial s1
  applyRepairs { s2 with dev := { s2.dev with trialAt := s2.now, record := { resetKind := s2.side.nextKind, trialTime := ptpNow s2 } } }

/-- RAILS_IN_REGULATION: TRIAL, repairs and fill, then the pilot boots (R407). -/
def execRailsInRegulation (t : Nat) (s0 : State) : Host.Outcome State Fault Refusal :=
  let s := setNow t s0
  if railsRising s then .next (pilotBoot (enterTrial s)) else .next s

/-! ### The start of the components (R408) -/

/-- The time within which a component must report, in ns. -/
def startLimit (c : Nat) : Nat := if c = 0 then 3000000000 else if c = 1 then 200000000 else 50000000

/-- The pilot has released the cores and sea trial has not ended. -/
def starting (s : State) : Bool := alive s && s.dev.state == .trial && s.boot.loaded && !s.dev.trialPassed

/-- The units that run a component. -/
def unitsOf (s : State) (c : Nat) : List Nat := if c = 1 then List.range 24 else if c = 2 then List.range (cranesOf s.fixed.variant) else []

/-- COMPONENT_START. -/
def execComponentStart (t component unitNo : Nat) (s0 : State) : Host.Outcome State Fault Refusal :=
  let s := setNow t s0
  if starting s && decide (s.now ≤ s.boot.releasedAt + startLimit component) then
    .next (if component = 0 then (if s.boot.mgmtUp then s else { s with boot := { s.boot with mgmtUp := true, mgmtAt := s.now } })
      else if component = 1 ∧ (unitsOf s 1).contains unitNo ∧ !s.boot.quaysUp.contains unitNo ∧ !s.boot.quayFail.contains unitNo then
        { s with boot := { s.boot with quaysUp := unitNo :: s.boot.quaysUp } }
      else if component = 2 ∧ (unitsOf s 2).contains unitNo ∧ !s.boot.seqsUp.contains unitNo ∧ !s.boot.seqFail.contains unitNo then
        { s with boot := { s.boot with seqsUp := unitNo :: s.boot.seqsUp } }
      else s)
  else .next s

/-- The firmware does not start: a trial boot is reverted and the module resets (kind 4), another ends in dry dock. -/
def noStart (c : Nat) (s : State) : State :=
  if s.boot.wasTrial then railsOff 4 (revert 2 0 s) else bootDock 7 c (selOf s.boot.running c) 0 s

/-- START_TIMEOUT: a component that no unit has started does not start; otherwise the units without it have failed. -/
def execStartTimeout (t component : Nat) (s0 : State) : Host.Outcome State Fault Refusal :=
  let s := setNow t s0
  if starting s && decide (s.boot.releasedAt + startLimit component ≤ s.now) then
    if component = 0 then .next (if s.boot.mgmtUp then s else noStart 0 s)
    else if component = 1 then
      .next (if s.boot.quaysUp.isEmpty then noStart 1 s
        else { s with boot := { s.boot with quayFail := (unitsOf s 1).filter (fun q => !s.boot.quaysUp.contains q) } })
    else if component = 2 ∧ !(unitsOf s 2).isEmpty then
      .next (if s.boot.seqsUp.isEmpty then noStart 2 s
        else { s with boot := { s.boot with seqFail := (unitsOf s 2).filter (fun c => !s.boot.seqsUp.contains c) } })
    else .next s
  else .next s

/-! ### Sea trial (R11 to R14, R423, R425) -/

/-- Every quay and sequencer has started or has failed to, and management firmware runs. -/
def allReported (s : State) : Bool :=
  s.boot.mgmtUp && (unitsOf s 1).all (fun q => s.boot.quaysUp.contains q || s.boot.quayFail.contains q)
    && (unitsOf s 2).all (fun c => s.boot.seqsUp.contains c || s.boot.seqFail.contains c)

/-- The faults sea trial counts: those it finds, components that have not started, and repairs that found no spare. When T1
finds an I/O-die fault no other stage runs. -/
def trialFaults (s : State) (x : TrialFaults) : TrialFaults :=
  let failedRepair (u : Nat) : List Nat := (s.repairs.failed.filter (fun r => r.1 == u)).map (fun r => r.2)
  if x.ioDie ∨ !(failedRepair 3).isEmpty then
    { cranes := [], hawsers := [], hosts := [], quays := [], computes := [], srams := [], ioDie := true, logbook := x.logbook, seismic := false }
  else
    { x with
      cranes := x.cranes ++ s.boot.seqFail
      quays := x.quays ++ s.boot.quayFail ++ failedRepair 2
      srams := x.srams ++ failedRepair 0 ++ failedRepair 1 }

/-- A bit map of the units of `l` below `n`. -/
def unitMap (n : Nat) (l : List Nat) : Nat := sumNat (((List.range n).filter l.contains).map (fun i => 2 ^ i))

/-- HTOPO and bits [23:16] of the word with every unit in service (Table 1.8). -/
def topoCode : Variant → Nat
  | .X => 2 | .S => 1 | .V => 0

def serviceBits : Variant → Nat
  | .X => 0xFF | .S => 0xFD | .V => 0x3C

/-- The unit-presence word (Table 1.7, R12 to R14). -/
def unitsWord (v : Variant) (x : TrialFaults) : Nat :=
  let up (n : Nat) (l : List Nat) : Nat := 2 ^ n - 1 - unitMap n l
  let cranes := up (cranesOf v) x.cranes
  let svc0 := if cranes = 0 then setBits (setBits (serviceBits v) 0 2 0) 7 1 0 else serviceBits v
  let svc := if x.seismic then setBits svc0 5 1 0 else svc0
  cranes + up (hawsersOf v) x.hawsers * 2 ^ 8 + topoCode v * 2 ^ 14 + svc * 2 ^ 16 + sramGibOf v * 2 ^ 24 + up 8 x.hosts * 2 ^ 32 + variantCode v * 2 ^ 40

/-- DOCK_CAUSE, FAIL_STAGE and FAIL_UNIT of the first stage that found a fault leading to DRY_DOCK. -/
def dockOf (x : TrialFaults) : Option (Nat × Nat × Nat) :=
  let low (l : List Nat) : Nat := l.foldl min (l.headD 0)
  if x.ioDie then some (4, 1, 0)
  else if x.logbook then some (5, 1, 0)
  else if !x.computes.isEmpty then some (2, 2, low x.computes)
  else if !x.srams.isEmpty then some (3, 2, low x.srams)
  else if !x.quays.isEmpty then some (1, 4, low x.quays)
  else none

def msSince (s : State) (t : Nat) : Nat := (s.now - t) / 1000000

/-- What the record takes from sea trial. -/
def trialRecord (s : State) (x : TrialFaults) : TrialRecord :=
  { s.dev.record with
    failedCrane := BitVec.ofNat 8 (unitMap 8 x.cranes), failedHawser := BitVec.ofNat 6 (unitMap 6 x.hawsers), failedHost := BitVec.ofNat 8 (unitMap 8 x.hosts),
    failedSeismic := x.seismic, failedQuay := BitVec.ofNat 24 (unitMap 24 x.quays), failedSram := BitVec.ofNat 8 (unitMap 8 x.srams),
    trialMs := clampTo 16 (msSince s s.boot.mgmtAt) }

/-- Entry to MOUNTING, with HOLDUP_LOW where the bank is not full (R440); the hawser ports in service may train. -/
def enterMounting (s : State) : State :=
  let s1 := enterState .mounting { s with dev := { s.dev with record := { s.dev.record with trialMs := clampTo 16 (msSince s s.boot.mgmtAt) } } }
  let s2 := if s1.dev.bankFull then s1
    else { s1 with
      pf := { s1.pf with holdupLow := true }
      storm := { s1.storm with events := if s1.pf.holdupLow then s1.storm.events else s1.storm.events ||| 4 } }
  refreshPorts s2

/-- MOUNTING follows once sea trial has passed and the bank is full, or 2 s have gone by. -/
def mayMount (s : State) : State :=
  if s.dev.state == .trial && s.dev.trialPassed && (s.dev.bankFull || s.dev.bankLate) then enterMounting s else s

/-- Host ports that failed leave service. -/
def dropPorts (l : List Nat) (s : State) : State := l.foldl (fun st p => modPort p (fun h => { h with linkUp := false }) st) s

/-- SEA_TRIAL_COMPLETE. In DRY_DOCK management firmware is halted and time runs on the local oscillator (R429). -/
def execSeaTrialComplete (t : Nat) (faults : TrialFaults) (s0 : State) : Host.Outcome State Fault Refusal :=
  let s := setNow t s0
  if starting s && allReported s then
    let x := trialFaults s faults
    let s1 := { s with dev := { s.dev with units := BitVec.ofNat 64 (unitsWord s.fixed.variant x), record := trialRecord s x, trialPassed := !x.ioDie } }
    match dockOf x with
    | none => .next (mayMount (dropPorts x.hosts s1))
    | some (cause, stage, no) =>
      let s2 := enterState .dryDock (dropPorts x.hosts s1)
      .next { s2 with
        dev := { s2.dev with record := { s2.dev.record with dockCause := cause, failStage := stage, failUnit := no, readyMs := clampTo 32 (msSince s2 s2.dev.trialAt) } }
        boot := { s2.boot with mgmtUp := false }
        clock := { s2.clock with state := .unsync } }
  else .next s

/-- HOLDUP_BANK_FULL (R440). -/
def execHoldupBankFull (t : Nat) (s0 : State) : Host.Outcome State Fault Refusal :=
  let s := setNow t s0
  if alive s && s.dev.state == .trial then .next (mayMount { s with dev := { s.dev with bankFull := true } }) else .next s

/-- HOLDUP_CHARGE_TIMEOUT: 2 s after step 2 (R440). -/
def execHoldupChargeTimeout (t : Nat) (s0 : State) : Host.Outcome State Fault Refusal :=
  let s := setNow t s0
  if alive s && s.dev.state == .trial && !s.dev.bankFull && decide (s.dev.trialAt + 2000000000 ≤ s.now) then
    .next (mayMount { s with dev := { s.dev with bankLate := true } })
  else .next s

/-! ### Mounting (R426, R428) -/

/-- Steps 3 and 4: what cannot be mounted is OFFLINE, the rest is as it was or ONLINE, and READ_ONLY_WORN while WORN. -/
def mountObjects (offNs offIx : List Nat) (s : State) : State :=
  { s with
    media := { s.media with nss := s.media.nss.map (fun n =>
      { n with state := if offNs.contains n.nsid then .offline else if s.media.worn then .worn else .online }) }
    indexes := s.indexes.map (fun x =>
      { x with state := if offIx.contains x.id then .offline else if s.media.worn then .worn else .online }) }

/-- Step 6: what the newest record says of the last power loss. -/
def mountRecord (s : State) : State :=
  match s.media.record with
  | .flush us kib => { s with pf := { s.pf with flushOk := true, flushUs := us, flushKib := kib } }
  | .session => { s with pf := { s.pf with flushOk := false }, storm := { s.storm with events := s.storm.events ||| 8 } }
  | .closing | .none => s

/-- R428: counters that reset at power-on read zero, queues are new, bollards and inboxes empty, and the module is in P0. -/
def freshStart (s : State) : State :=
  { s with
    net := { s.net with ports := s.net.ports.map (fun p => { p with stats := {} }), queues := [] }
    cmds := { s.cmds with slots := [] }
    berths := s.berths.map (fun b => { b with bollards := List.replicate 64 0, inbox := [], mailSeq := 0 })
    power := { s.power with current := 0, exitTo := none, lastP0 := s.now, lastNand := s.now, lastSram := s.now }
    eng := { s.eng with
      quays := s.eng.quays.map (fun q => { q with replays := 0, arrayBusy := 0, tiles := 0, mediaStall := 0, linkStall := 0, softReads := 0 })
      cranes := s.eng.cranes.map (fun _ => {}) }
    hawser := { s.hawser with ports := s.hawser.ports.map (fun p =>
      { p with fecCorr := 0, fecUncorr := 0, replays := 0, retrains := 0, downs := 0, badFrames := 0, flowUnknown := 0, noRoute := 0 }) }
    storm := { s.storm with sensor := { s.storm.sensor with spikes := 0, clipped := 0, faults := 0 } }
    pf := { s.pf with glitches := 0 }
    mem := { s.mem with ce := 0, rdmaUe := 0, deferred := 0, units := s.mem.units.map (fun u => { u with ce := 0, passes := 0 }) }
    logLive := { s.logLive with eccCorrected := 0 }
    clock := { s.clock with rejects := 0, steps := 0, holdovers := 0 }
    tide := { s.tide with late := 0 }
    thermal := { s.thermal with throttleMs := 0, faults := 0 } }

/-- The entry to READY from MOUNTING, with the session record. -/
def enterReady (s : State) : State :=
  let s1 := { s with
    media := { s.media with record := .session }
    dev := { s.dev with record := { s.dev.record with mountMs := clampTo 16 (msSince s s.dev.enteredAt), readyMs := clampTo 32 (msSince s s.dev.trialAt) } } }
  enterState .ready (freshStart s1)

/-- R19: MOTION or POWER that holds now braces the module in the same step. -/
def braceAtOnce (s : State) : State := if s.storm.motion || s.storm.power then enterBrace s else s

/-- MOUNTING_COMPLETE. -/
def execMountingComplete (t : Nat) (offlineNs offlineIndex : List Nat) (brokenCkpts : List (Nat × Nat)) (s0 : State) : Host.Outcome State Fault Refusal :=
  let s := setNow t s0
  if alive s && s.dev.state == .mounting then
    .next (braceAtOnce (enterReady (mountRecord (freeKept (vaultMountBroken brokenCkpts (mountObjects offlineNs offlineIndex (logMount s)))))))
  else .next s

end Sys2Proof.Machine
end

