-- ==== Sys2Proof/Machine/PowerStates.lean ====
section
/-! DEFINITION. Power states P0 to P3: the end of an exit and the idle timers (R58 to R60, Table 2.13). -/

namespace Sys2Proof.Machine

/-- Every waiting command starts that may, in acceptance order. -/
def startWaiting : List Nat → State → State
  | [], s => s
  | id :: l, s =>
    startWaiting l (match getActive s id with
      | some a =>
        match specOf a.opcode with
        | some sp => tryStart sp id s
        | none => s
      | none => s)

def waitingIds (s : State) : List Nat := (s.cmds.active.filter (fun a => decide (a.phase < 3))).map (fun a => a.id)

/-- POWER_EXIT_COMPLETE: the module is in the state it moved up to, its idle timers begin, and waiting work starts. -/
def execPowerExitComplete (t : Nat) (s0 : State) : Host.Outcome State Fault Refusal :=
  let s := setNow t s0
  match s.power.exitTo with
  | some p =>
    if alive s then
      let s1 := { s with power := { s.power with current := p, exitTo := none, lastP0 := s.now, lastNand := s.now, lastSram := s.now } }
      .next (startWaiting (waitingIds s1) s1)
    else .next s
  | none => .next s

/-- A started command uses a unit that is on only in states up to `p`. -/
def usesUpTo (s : State) (p : Nat) : Bool := s.cmds.active.any (fun a => a.phase == 3 && decide (a.depth ≤ p))

/-- The idle timers run only in READY, with no exit in progress (R60). -/
def idleRuns (s : State) : Bool := s.dev.state == .ready && s.power.exitTo.isNone && alive s

/-- IDLE_P1_TIMEOUT. -/
def execIdleP1Timeout (t : Nat) (s0 : State) : Host.Outcome State Fault Refusal :=
  let s := setNow t s0
  if idleRuns s && s.power.current == 0 && decide (1 ≤ s.power.maxState.toNat) && !usesUpTo s 0 && decide (s.power.lastP0 + s.power.idleP1.toNat * 1000 ≤ s.now) then
    .next { s with power := { s.power with current := 1, lastNand := s.now } }
  else .next s

/-- IDLE_P2_TIMEOUT. -/
def execIdleP2Timeout (t : Nat) (s0 : State) : Host.Outcome State Fault Refusal :=
  let s := setNow t s0
  if idleRuns s && s.power.current == 1 && decide (2 ≤ s.power.maxState.toNat) && !usesUpTo s 1 && decide (s.power.lastNand + s.power.idleP2.toNat * 1000000 ≤ s.now) then
    .next { s with power := { s.power with current := 2, lastSram := s.now } }
  else .next s

/-- IDLE_P3_TIMEOUT. -/
def execIdleP3Timeout (t : Nat) (s0 : State) : Host.Outcome State Fault Refusal :=
  let s := setNow t s0
  if idleRuns s && s.power.current == 2 && decide (3 ≤ s.power.maxState.toNat) && !usesUpTo s 2 && decide (s.power.lastSram + s.power.idleP3.toNat * 1000000 ≤ s.now) then
    .next { s with power := { s.power with current := 3 } }
  else .next s

end Sys2Proof.Machine
end

