-- ==== Sys2Proof/Machine/RdmaPackets.lean ====
section
/-! DEFINITION. RoCEv2 packets (R46, R58, R61, R69 to R73, R258 to R261, R284, R285, R305, R371, R372): requests served as
responder, and responses, acknowledgements and congestion as requester. The order of packet numbers is that of a
reliable-connected queue pair, which R69 names and does not restate (log entry 13). -/

namespace Sys2Proof.Machine

/-- A queue pair fails, and replication that runs on it is told (R70, R288). -/
def failQp (qpn : BitVec 24) (s : State) : State := replQpError qpn (qpError qpn s)

def ecnReact (s : State) : Bool := s.regs.nimoxTransport.toNat.testBit 53

/-! ### Responder: what comes before the operation -/

/-- A congestion notification packet, at most one per queue pair per 50 µs. -/
def sendCnp (q : Qp) (s : State) : State :=
  let due := match q.lastCnpOut with
    | some x => decide (x + 50000 ≤ s.now)
    | none => true
  if due then emit (.cnp q.port q.qpn) (modQp q.qpn (fun q => { q with lastCnpOut := some s.now }) s) else s

/-- The reasons for which a request packet is discarded unacknowledged: P3 (R61) and the berth's HOST breakwater (R305). A
packet in P3 begins the exit. -/
def discards (q : Qp) (s : State) : Option State :=
  if s.power.current = 3 then
    some (if s.power.exitTo.isNone then { s with power := { s.power with exitTo := some 2 } } else s)
  else if hostLevel s q.berth q.port < -(hostBurst s q.berth) then
    some (modBerth q.berth (fun b => { b with use := { b.use with hostDrops := satAdd 16 b.use.hostDrops 1 } }) s)
  else none

/-- PFC frames for the priorities of a mask. -/
def sendPfc (port : Nat) (mask : BitVec 8) (pause : Bool) (s : State) : State :=
  ((List.range 8).filter mask.getLsbD).foldl (fun st k => emit (.pfc port k pause) st) s

/-- The priorities on which the module honours PFC (PFC_EN). -/
def pfcEn (s : State) : BitVec 8 := BitVec.ofNat 8 (bits s.regs.nimoxTransport.toNat 38 8)

/-- How full the port's receive buffer stands when a request arrives, in percent: the traffic's own (free, log entry 14). Above
75 % PAUSE goes out on each priority of PFC_EN that is not paused yet, at 50 % or below every pause is released (R72). -/
def bufferLevel (port : Nat) (s : State) : State :=
  let fill := Config.amount s.fresh % 101
  let sent := (hostPort s port).pauseSent
  let s1 := useFresh (modPort port (fun p => { p with rxFill := fill }) s)
  if 75 < fill then sendPfc port (pfcEn s &&& ~~~sent) true (modPort port (fun p => { p with pauseSent := sent ||| pfcEn s }) s1)
  else if fill ≤ 50 then sendPfc port sent false (modPort port (fun p => { p with pauseSent := 0 }) s1)
  else s1

/-- The packet's bytes count in the bucket, and congestion is reported: for a CE mark with ECN_REACT set (R72), and for a
bucket that has gone below zero whatever ECN_REACT is (R305). -/
def congestion (q : Qp) (p : RdmaPkt) (s0 : State) : State :=
  let s := hostCharge q.berth q.port p.data.length { bufferLevel q.port s0 with power := { s0.power with lastSram := s0.now } }
  if (p.ce && ecnReact s) || decide (hostLevel s q.berth q.port < 0) then sendCnp q s else s

/-- A NAK that the module sends as responder moves its queue pair to ERROR (R70). -/
def nakQp (q : Qp) (psn : BitVec 24) (code : NakCode) (s : State) : State := failQp q.qpn (emit (.rdmaNak q.port q.qpn psn code) s)

/-- `n` packets from `psn` on have been served: the last of them is acknowledged. -/
def ackPackets (q : Qp) (psn : BitVec 24) (n : Nat) (s : State) : State :=
  emit (.rdmaAck q.port q.qpn (psn + BitVec.ofNat 24 (n - 1))) (modQp q.qpn (fun x => { x with recvPsn := psn + BitVec.ofNat 24 n }) s)

/-! ### Responder: the operations -/

/-- The region that a packet names, if it may do this to these bytes (R71, R284). -/
def permitted (s : State) (q : Qp) (p : RdmaPkt) (len : Nat) (writes : Bool) : Option Region :=
  (getRegion s p.rkey).filter (fun r =>
    r.berth == q.berth && decide (p.offset + len ≤ r.length) && (if writes then r.canWrite else r.canRead)
      && (match r.owner with
        | .replica => ((getVault s q.berth).bind (fun v => v.recv)).any (fun x => x.qpn == q.qpn || (x.altQpn == q.qpn && x.altQpn != 0))
        | .plain => true
        | .intake _ => true
        | .ackArea => true))

/-- RDMA WRITE: the bytes land where the region's owner has them. -/
def serveWrite (q : Qp) (p : RdmaPkt) (imm : Option (BitVec 32)) (s : State) : State :=
  let n := packetsOf q.mtu p.data.length
  match permitted s q p p.data.length true with
  | none => nakQp q p.psn .remoteAccess s
  | some r =>
    match r.owner with
    | .plain =>
      let at0 := r.offset + p.offset
      if (poisonPart s r.berth at0 p.data.length).isSome then nakQp q p.psn .remoteOperational s
      else ackPackets q p.psn n (clearPoison r.berth at0 p.data.length (setShareMem r.berth (memWrite (shareMem s r.berth) at0 p.data) s))
    | .intake id =>
      match intakeWrite r.berth id p.offset p.data q.port s with
      | none => stagingDiscard r.berth s
      | some s1 =>
        ackPackets q p.psn n (match imm with
          | some v => intakeImm r.berth id v.toNat s1
          | none => s1)
    | .replica =>
      let s1 := replicaWrite r.berth r.index q.qpn p.offset p.data s
      ackPackets q p.psn n (match imm with
        | some v => replicaImm r.berth r.index v.toNat s1
        | none => s1)
    | .ackArea => ackPackets q p.psn n (setSide r.berth r.index (memWrite (sideMem s r.berth r.index) p.offset p.data) s)

/-- The bytes of a region as a READ response, after `go`; a poisoned word gives a remote operational error (R371). -/
def answerRead (q : Qp) (p : RdmaPkt) (r : Region) (go : State → State) (s : State) : State :=
  let at0 := r.offset + p.offset
  match poisonIn s r.berth at0 p.length with
  | some w =>
    let s1 := sramUe w s
    nakQp q p.psn .remoteOperational { s1 with mem := { s1.mem with rdmaUe := satAdd 32 s1.mem.rdmaUe 1 } }
  | none => emit (.rdmaReadData q.port q.qpn p.psn (memRead (shareMem s r.berth) at0 p.length)) (go s)

/-- RDMA READ of regions that peers may read. -/
def serveRead (q : Qp) (p : RdmaPkt) (s : State) : State :=
  match permitted s q p p.length false with
  | none => nakQp q p.psn .remoteAccess s
  | some r => answerRead q p r (modQp q.qpn (fun x => { x with recvPsn := p.psn + BitVec.ofNat 24 (packetsOf q.mtu p.length) })) s

/-- A request whose packet number has gone by: a WRITE is acknowledged again without effect, a READ is served again. -/
def serveOld (q : Qp) (p : RdmaPkt) (s : State) : State :=
  match p.op with
  | .read =>
    match permitted s q p p.length false with
    | some r => answerRead q p r (fun x => x) s
    | none => s
  | .write => emit (.rdmaAck q.port q.qpn (q.recvPsn - 1)) s
  | .send => s
  | .atomic => s
  | .otherOp => s

/-- A request packet in its place by packet number. -/
def serveInOrder (q : Qp) (p : RdmaPkt) (imm : Option (BitVec 32)) (s : State) : State :=
  match p.op with
  | .write => serveWrite q p imm s
  | .read => serveRead q p s
  | .send => nakQp q p.psn .invalidRequest s
  | .atomic => nakQp q p.psn .invalidRequest s
  | .otherOp => nakQp q p.psn .invalidRequest s

/-- A request by its distance from the expected packet number: in order, ahead (a sequence-error NAK), or old. -/
def serveByPsn (q : Qp) (p : RdmaPkt) (imm : Option (BitVec 32)) (s : State) : State :=
  let d := (p.psn - q.recvPsn).toNat
  if d = 0 then serveInOrder q p imm s
  else if d < 2 ^ 23 then emit (.rdmaNak q.port q.qpn q.recvPsn .sequenceError) s
  else serveOld q p s

/-- A request packet arrives. On a port of class OBSERVE it is discarded and counted (R46); for a number that names no queue
pair of the port, or one in ERROR, it is discarded (R70). -/
def takeRequest (p : RdmaPkt) (imm : Option (BitVec 32)) (s : State) : State :=
  if !portUp s p.port then s
  else if portClassOf s p.port = 0 then modPortStats p.port (fun x => { x with denied := satAdd 32 x.denied 1 }) s
  else
    match (getQp s p.qpn).filter (fun q => q.port == p.port && q.state == .rts) with
    | none => s
    | some q =>
      match discards q s with
      | some s1 => s1
      | none => serveByPsn q p imm (congestion q p s)

/-- RDMA_WRITE. -/
def execRdmaWrite (t : Nat) (p : RdmaPkt) (s : State) : Host.Outcome State Fault Refusal := .next (takeRequest p none (setNow t s))

/-- RDMA_WRITE_WITH_IMMEDIATE: the value goes to the function that owns the region. -/
def execRdmaWriteWithImmediate (t : Nat) (p : RdmaPkt) (imm : BitVec 32) (s : State) : Host.Outcome State Fault Refusal :=
  .next (takeRequest p (some imm) (setNow t s))

/-- RDMA_READ. -/
def execRdmaRead (t : Nat) (p : RdmaPkt) (s : State) : Host.Outcome State Fault Refusal := .next (takeRequest p none (setNow t s))

/-! ### Requester -/

/-- A queue pair in RTS whose port hears packets. -/
def liveQp (s : State) (qpn : BitVec 24) : Option Qp :=
  (getQp s qpn).filter (fun q => q.state == .rts && portUp s q.port && portClassOf s q.port != 0)

/-- A packet for no queue pair in RTS has no effect; on a port of class OBSERVE it is discarded and counted (R46). -/
def discardObserved (qpn : BitVec 24) (s : State) : State :=
  match getQp s qpn with
  | some q => if portUp s q.port ∧ portClassOf s q.port = 0 then modPortStats q.port (fun x => { x with denied := satAdd 32 x.denied 1 }) s else s
  | none => s

/-- The packet number of the last packet of a request. -/
def lastPsn (q : Qp) (r : QpRequest) : BitVec 24 := r.psn + BitVec.ofNat 24 (packetsOf q.mtu r.len - 1)

/-- A packet number lies at or before another, in the order of 24-bit numbers. -/
def psnUpTo (x y : BitVec 24) : Bool := decide ((y - x).toNat < 2 ^ 23)

/-- The outstanding requests go out again. -/
def resendRequests (q : Qp) : List QpRequest → State → State
  | [], s => s
  | r :: l, s =>
    resendRequests q l (emit (if r.isRead then .rdmaReadRequest q.port q.qpn r.psn r.rkey r.va r.len
      else .rdmaWriteRequest q.port q.qpn r.psn r.rkey r.va r.data r.imm) s)

/-- A retry of everything outstanding, or ERROR when RETRY_CNT is used up. -/
def retryQp (q : Qp) (s : State) : State :=
  if q.retries < q.retryCnt then
    resendRequests q q.requests (modQp q.qpn (fun x => { x with retries := x.retries + 1, timerAt := s.now }) s)
  else failQp q.qpn s

/-- Requests up to a packet number are acknowledged: WRITEs go, and the first READ that still awaits its data stays. -/
def ackRequests (q : Qp) (psn : BitVec 24) : List QpRequest → List QpRequest
  | [] => []
  | r :: l => if !r.isRead && psnUpTo (lastPsn q r) psn then ackRequests q psn l else r :: l

/-- ACK_RECEIVED. -/
def execAckReceived (t : Nat) (qpn psn : BitVec 24) (s0 : State) : Host.Outcome State Fault Refusal :=
  let s := setNow t s0
  match liveQp s qpn with
  | some q =>
    let left := ackRequests q psn q.requests
    if left.length < q.requests.length then .next (modQp qpn (fun x => { x with requests := left, retries := 0, timerAt := s.now }) s) else .next s
  | none => .next (discardObserved qpn s)

/-- NAK_RECEIVED: a sequence error resends, any other NAK moves the queue pair to ERROR (R70). -/
def execNakReceived (t : Nat) (qpn psn : BitVec 24) (code : NakCode) (s0 : State) : Host.Outcome State Fault Refusal :=
  let s := setNow t s0
  match (liveQp s qpn).filter (fun q => !q.requests.isEmpty) with
  | some q =>
    match code with
    | .sequenceError =>
      let left := ackRequests q (psn - 1) q.requests
      let s1 := modQp qpn (fun x => { x with requests := left }) s
      .next (if left.isEmpty then s1 else retryQp { q with requests := left } s1)
    | .invalidRequest => .next (failQp qpn s)
    | .remoteAccess => .next (failQp qpn s)
    | .remoteOperational => .next (failQp qpn s)
  | none => .next (discardObserved qpn s)

/-- ACK_TIMEOUT: 4.096 µs × 2^ACK_TIMEOUT without progress (Table 2.21). -/
def execAckTimeout (t : Nat) (qpn : BitVec 24) (s0 : State) : Host.Outcome State Fault Refusal :=
  let s := setNow t s0
  match (getQp s qpn).filter (fun q => q.state == .rts && !q.requests.isEmpty) with
  | some q => if alive s && decide (q.timerAt + 4096 * 2 ^ q.ackTimeout ≤ s.now) then .next (retryQp q s) else .next s
  | none => .next s

/-- The response that a READ request awaits: WRITEs before it are acknowledged by it. -/
def readHead : List QpRequest → Option (QpRequest × List QpRequest)
  | [] => none
  | r :: l => if r.isRead then some (r, l) else readHead l

/-- RDMA_READ_RESPONSE: data for an input of an accepted command. -/
def execRdmaReadResponse (t : Nat) (qpn psn : BitVec 24) (data : Bytes) (s0 : State) : Host.Outcome State Fault Refusal :=
  let s := setNow t s0
  match liveQp s qpn with
  | some q =>
    match readHead q.requests with
    | some (r, l) =>
      if r.psn = psn ∧ r.len = data.length then
        let s1 := modQp qpn (fun x => { x with requests := l, retries := 0, timerAt := s.now }) s
        .next (hostData r.cmd r.ref data { s1 with power := { s1.power with lastSram := s1.now } })
      else .next s
    | none => .next s
  | none => .next (discardObserved qpn s)

/-! ### Send rate (R72) -/

/-- CONGESTION_NOTIFICATION_PACKET: with ECN_REACT set, half the rate, to a floor of 1 Gb/s. -/
def execCongestionNotificationPacket (t : Nat) (qpn : BitVec 24) (s0 : State) : Host.Outcome State Fault Refusal :=
  let s := setNow t s0
  match liveQp s qpn with
  | some _ => if ecnReact s then .next (modQp qpn (fun x => { x with rateMbps := max 1000 (x.rateMbps / 2), lastCnpIn := s.now }) s) else .next s
  | none => .next (discardObserved qpn s)

/-- RATE_RECOVERY: 5 % of line rate for each 55 µs without a congestion notification packet. -/
def execRateRecovery (t : Nat) (qpn : BitVec 24) (s0 : State) : Host.Outcome State Fault Refusal :=
  let s := setNow t s0
  match (getQp s qpn).filter (fun q => q.state == .rts) with
  | some q =>
    let line := (hostPort s q.port).gbps * 1000
    if ecnReact s && alive s && decide (q.lastCnpIn + 55000 ≤ s.now) && decide (q.rateMbps < line) then
      .next (modQp qpn (fun x => { x with rateMbps := min line (x.rateMbps + line * 5 / 100), lastCnpIn := s.now }) s)
    else .next s
  | none => .next s

end Sys2Proof.Machine
end

