-- ==== Sys2Proof/Machine/RowsDevice.lean ====
section
/-! DEFINITION. Rows: the commands of group 0x01 (Tables 2.8 and 2.19). A row is the arrival of the whole command. -/

namespace Sys2Proof.Machine

/-- ECHO (R67). -/
def execEcho (t : Nat) (f : Frame) (s : State) : Host.Outcome State Fault Refusal := .next (runCommand 0x0100 t f s)

/-- GET_PARAM (R62). -/
def execGetParam (t : Nat) (f : Frame) (s : State) : Host.Outcome State Fault Refusal := .next (runCommand 0x0101 t f s)

/-- SET_PARAM (R63). -/
def execSetParam (t : Nat) (f : Frame) (s : State) : Host.Outcome State Fault Refusal := .next (runCommand 0x0102 t f s)

/-- READ_RESULT (R49). -/
def execReadResult (t : Nat) (f : Frame) (s : State) : Host.Outcome State Fault Refusal := .next (runCommand 0x0103 t f s)

/-- RELEASE (R49). -/
def execRelease (t : Nat) (f : Frame) (s : State) : Host.Outcome State Fault Refusal := .next (runCommand 0x0104 t f s)

/-- QUEUE_STATUS (R67). -/
def execQueueStatus (t : Nat) (f : Frame) (s : State) : Host.Outcome State Fault Refusal := .next (runCommand 0x0105 t f s)

/-- QUEUE_SET (R53). -/
def execQueueSet (t : Nat) (f : Frame) (s : State) : Host.Outcome State Fault Refusal := .next (runCommand 0x0106 t f s)

/-- DRAIN (R434). -/
def execDrain (t : Nat) (f : Frame) (s : State) : Host.Outcome State Fault Refusal := .next (runCommand 0x0107 t f s)

/-- RESET (R433). -/
def execReset (t : Nat) (f : Frame) (s : State) : Host.Outcome State Fault Refusal := .next (runCommand 0x0108 t f s)

/-- QP_CREATE (R70). -/
def execQpCreate (t : Nat) (f : Frame) (s : State) : Host.Outcome State Fault Refusal := .next (runCommand 0x0110 t f s)

/-- QP_DESTROY (R70). -/
def execQpDestroy (t : Nat) (f : Frame) (s : State) : Host.Outcome State Fault Refusal := .next (runCommand 0x0111 t f s)

/-- REGION_REGISTER (R71). -/
def execRegionRegister (t : Nat) (f : Frame) (s : State) : Host.Outcome State Fault Refusal := .next (runCommand 0x0112 t f s)

/-- REGION_DEREGISTER (R71). -/
def execRegionDeregister (t : Nat) (f : Frame) (s : State) : Host.Outcome State Fault Refusal := .next (runCommand 0x0113 t f s)

/-! ### Single-field SET_PARAM commands -/

/-- One entry of Table 2.14, its SIZE the parameter's width. -/
def setEntry (pid value mask : Nat) : Bytes :=
  let n := ((paramOf pid).map (fun p => p.size)).getD 4
  padTo (roundUp (8 + 2 * n) 8) (toLE 2 pid ++ toLE 2 n ++ zeros 4 ++ toLE n value ++ toLE n mask)

/-- SET_PARAM with one entry. -/
def setOne (f : Frame) (pid value mask : Nat) : Frame := { f with params := toLE 2 1 ++ zeros 6, payload := setEntry pid value mask }

/-- PORT_CLASS: CLASS of parameter 0x0020 + n (R44). -/
def execPortClass (t : Nat) (f : Frame) (port : Nat) (cls : BitVec 2) (s : State) : Host.Outcome State Fault Refusal :=
  .next (runCommand 0x0102 t (setOne f (0x0020 + port) cls.toNat 3) s)

/-- NIMOX_TRANSPORT: parameter 0x0120 (R65). -/
def execNimoxTransport (t : Nat) (f : Frame) (value mask : BitVec 64) (s : State) : Host.Outcome State Fault Refusal :=
  .next (runCommand 0x0102 t (setOne f 0x0120 value.toNat mask.toNat) s)

/-- BERTH_SHARES: parameter 0x0701 of the header's berth (R297). -/
def execBerthShares (t : Nat) (f : Frame) (value mask : BitVec 128) (s : State) : Host.Outcome State Fault Refusal :=
  .next (runCommand 0x0102 t (setOne f 0x0701 value.toNat mask.toNat) s)

/-- BREAKWATER: parameter 0x0702 of the header's berth (R304). -/
def execBreakwater (t : Nat) (f : Frame) (value mask : BitVec 128) (s : State) : Host.Outcome State Fault Refusal :=
  .next (runCommand 0x0102 t (setOne f 0x0702 value.toNat mask.toNat) s)

/-- HAWSER_CONFIG: parameter 0x0800 (R341). -/
def execHawserConfig (t : Nat) (f : Frame) (value mask : BitVec 64) (s : State) : Host.Outcome State Fault Refusal :=
  .next (runCommand 0x0102 t (setOne f 0x0800 value.toNat mask.toNat) s)

/-- USER_WP: one bit of the write-protect map, the others as they stand (R401). -/
def execUserWp (t : Nat) (f : Frame) (group : Nat) (on : Bool) (s : State) : Host.Outcome State Fault Refusal :=
  .next (runCommand 0x0102 t (setOne f 0x0A01 (setBits s.regs.userWp.toNat group 1 (if on then 1 else 0)) 0xFF) s)

/-- FLOOR: the rollback floor (R415). -/
def execFloor (t : Nat) (f : Frame) (value : BitVec 16) (s : State) : Host.Outcome State Fault Refusal :=
  .next (runCommand 0x0102 t (setOne f 0x0B01 value.toNat 0xFFFF) s)

/-- REVOKE: one more release key, the others as they stand (R415). -/
def execRevoke (t : Nat) (f : Frame) (key : Nat) (s : State) : Host.Outcome State Fault Refusal :=
  .next (runCommand 0x0102 t (setOne f 0x0B01 (setBits s.regs.revoke.toNat key 1 1 * 2 ^ 24) (0xF * 2 ^ 24)) s)

/-- The lowest bit of a parameter's W1C field. -/
def eventsAt (pid : Nat) : Nat := ((paramOf pid).bind (fun p => (p.fields.find? (fun x => x.acc == .w1c)).map (fun x => x.lo))).getD 0

/-- EVENTS_CLEAR: ones to the EVENTS field of a parameter (R4). -/
def execEventsClear (t : Nat) (f : Frame) (pid : Nat) (bits : BitVec 4) (s : State) : Host.Outcome State Fault Refusal :=
  .next (runCommand 0x0102 t (setOne f pid (bits.toNat * 2 ^ eventsAt pid) (0xF * 2 ^ eventsAt pid)) s)

end Sys2Proof.Machine
end

