-- ==== Sys2Proof/Machine/RowsEngines.lean ====
section
/-! DEFINITION. Rows: the commands of groups 0x03 to 0x05: plans, vector search and selection. A row is the arrival of the whole command. -/

namespace Sys2Proof.Machine

/-- PLAN_LOAD (R173). -/
def execPlanLoad (t : Nat) (f : Frame) (s : State) : Host.Outcome State Fault Refusal := .next (runCommand 0x0300 t f s)

/-- PLAN_BIND (R178). -/
def execPlanBind (t : Nat) (f : Frame) (s : State) : Host.Outcome State Fault Refusal := .next (runCommand 0x0301 t f s)

/-- PLAN_UNBIND (R179). -/
def execPlanUnbind (t : Nat) (f : Frame) (s : State) : Host.Outcome State Fault Refusal := .next (runCommand 0x0302 t f s)

/-- PLAN_DELETE (R179). -/
def execPlanDelete (t : Nat) (f : Frame) (s : State) : Host.Outcome State Fault Refusal := .next (runCommand 0x0303 t f s)

/-- PLAN_INFO (R179). -/
def execPlanInfo (t : Nat) (f : Frame) (s : State) : Host.Outcome State Fault Refusal := .next (runCommand 0x0304 t f s)

/-- PLAN_RUN (R185). -/
def execPlanRun (t : Nat) (f : Frame) (s : State) : Host.Outcome State Fault Refusal := .next (runCommand 0x0305 t f s)

/-- PLAN_ESTIMATE (R188). -/
def execPlanEstimate (t : Nat) (f : Frame) (s : State) : Host.Outcome State Fault Refusal := .next (runCommand 0x0306 t f s)

/-- CONTEXT_CLEAR (R184). -/
def execContextClear (t : Nat) (f : Frame) (s : State) : Host.Outcome State Fault Refusal := .next (runCommand 0x0307 t f s)

/-- ADAPT_STEP (R189). -/
def execAdaptStep (t : Nat) (f : Frame) (s : State) : Host.Outcome State Fault Refusal := .next (runCommand 0x0310 t f s)

/-- ADAPT_EXPORT (R190). -/
def execAdaptExport (t : Nat) (f : Frame) (s : State) : Host.Outcome State Fault Refusal := .next (runCommand 0x0311 t f s)

/-- ADAPT_RESET (R190). -/
def execAdaptReset (t : Nat) (f : Frame) (s : State) : Host.Outcome State Fault Refusal := .next (runCommand 0x0312 t f s)

/-- INDEX_CREATE (R203). -/
def execIndexCreate (t : Nat) (f : Frame) (s : State) : Host.Outcome State Fault Refusal := .next (runCommand 0x0400 t f s)

/-- INDEX_DELETE (R204). -/
def execIndexDelete (t : Nat) (f : Frame) (s : State) : Host.Outcome State Fault Refusal := .next (runCommand 0x0401 t f s)

/-- INDEX_INFO (R204). -/
def execIndexInfo (t : Nat) (f : Frame) (s : State) : Host.Outcome State Fault Refusal := .next (runCommand 0x0402 t f s)

/-- INDEX_INSERT (R211). -/
def execIndexInsert (t : Nat) (f : Frame) (s : State) : Host.Outcome State Fault Refusal := .next (runCommand 0x0403 t f s)

/-- INDEX_REMOVE (R212). -/
def execIndexRemove (t : Nat) (f : Frame) (s : State) : Host.Outcome State Fault Refusal := .next (runCommand 0x0404 t f s)

/-- INDEX_SEARCH (R216). -/
def execIndexSearch (t : Nat) (f : Frame) (s : State) : Host.Outcome State Fault Refusal := .next (runCommand 0x0405 t f s)

/-- INDEX_REBALANCE (R228). -/
def execIndexRebalance (t : Nat) (f : Frame) (s : State) : Host.Outcome State Fault Refusal := .next (runCommand 0x0406 t f s)

/-- SELECT_TOPK (R246). -/
def execSelectTopk (t : Nat) (f : Frame) (s : State) : Host.Outcome State Fault Refusal := .next (runCommand 0x0500 t f s)

/-- SELECT_MERGE (R248). -/
def execSelectMerge (t : Nat) (f : Frame) (s : State) : Host.Outcome State Fault Refusal := .next (runCommand 0x0501 t f s)

end Sys2Proof.Machine
end

