-- ==== Sys2Proof/Machine/RowsFleet.lean ====
section
/-! DEFINITION. Rows: the commands of groups 0x07 to 0x0B: berths, hawser, storm, logbook and trust. A row is the arrival of the whole command. -/

namespace Sys2Proof.Machine

/-- BERTH_CREATE (R300). -/
def execBerthCreate (t : Nat) (f : Frame) (s : State) : Host.Outcome State Fault Refusal := .next (runCommand 0x0700 t f s)

/-- BERTH_RELEASE (R301). -/
def execBerthRelease (t : Nat) (f : Frame) (s : State) : Host.Outcome State Fault Refusal := .next (runCommand 0x0701 t f s)

/-- BERTH_SUSPEND (R302). -/
def execBerthSuspend (t : Nat) (f : Frame) (s : State) : Host.Outcome State Fault Refusal := .next (runCommand 0x0702 t f s)

/-- BERTH_RESUME (R302). -/
def execBerthResume (t : Nat) (f : Frame) (s : State) : Host.Outcome State Fault Refusal := .next (runCommand 0x0703 t f s)

/-- BERTH_INFO (R302). -/
def execBerthInfo (t : Nat) (f : Frame) (s : State) : Host.Outcome State Fault Refusal := .next (runCommand 0x0704 t f s)

/-- TIDE_LOAD (R316). -/
def execTideLoad (t : Nat) (f : Frame) (s : State) : Host.Outcome State Fault Refusal := .next (runCommand 0x0710 t f s)

/-- TIDE_READ (R316). -/
def execTideRead (t : Nat) (f : Frame) (s : State) : Host.Outcome State Fault Refusal := .next (runCommand 0x0711 t f s)

/-- MAIL_SEND (R318). -/
def execMailSend (t : Nat) (f : Frame) (s : State) : Host.Outcome State Fault Refusal := .next (runCommand 0x0721 t f s)

/-- MAIL_RECV (R318). -/
def execMailRecv (t : Nat) (f : Frame) (s : State) : Host.Outcome State Fault Refusal := .next (runCommand 0x0722 t f s)

/-- HAWSER_INFO (R338). -/
def execHawserInfo (t : Nat) (f : Frame) (s : State) : Host.Outcome State Fault Refusal := .next (runCommand 0x0800 t f s)

/-- HAWSER_RETRAIN (R338). -/
def execHawserRetrain (t : Nat) (f : Frame) (s : State) : Host.Outcome State Fault Refusal := .next (runCommand 0x0801 t f s)

/-- FLEET_MAP (R338). -/
def execFleetMap (t : Nat) (f : Frame) (s : State) : Host.Outcome State Fault Refusal := .next (runCommand 0x0802 t f s)

/-- MOTION_EVENTS (R363). -/
def execMotionEvents (t : Nat) (f : Frame) (s : State) : Host.Outcome State Fault Refusal := .next (runCommand 0x0901 t f s)

/-- MOTION_WAVEFORM (R363). -/
def execMotionWaveform (t : Nat) (f : Frame) (s : State) : Host.Outcome State Fault Refusal := .next (runCommand 0x0902 t f s)

/-- LOGBOOK_INFO (R399). -/
def execLogbookInfo (t : Nat) (f : Frame) (s : State) : Host.Outcome State Fault Refusal := .next (runCommand 0x0A00 t f s)

/-- LOGBOOK_READ (R398). -/
def execLogbookRead (t : Nat) (f : Frame) (s : State) : Host.Outcome State Fault Refusal := .next (runCommand 0x0A01 t f s)

/-- LOGBOOK_PROGRAM (R396). -/
def execLogbookProgram (t : Nat) (f : Frame) (s : State) : Host.Outcome State Fault Refusal := .next (runCommand 0x0A02 t f s)

/-- LOGBOOK_ERASE (R397). -/
def execLogbookErase (t : Nat) (f : Frame) (s : State) : Host.Outcome State Fault Refusal := .next (runCommand 0x0A03 t f s)

/-- LOGBOOK_SETTINGS (R400). -/
def execLogbookSettings (t : Nat) (f : Frame) (s : State) : Host.Outcome State Fault Refusal := .next (runCommand 0x0A04 t f s)

/-- FW_INFO (R411). -/
def execFwInfo (t : Nat) (f : Frame) (s : State) : Host.Outcome State Fault Refusal := .next (runCommand 0x0B00 t f s)

/-- FW_STAGE (R412). -/
def execFwStage (t : Nat) (f : Frame) (s : State) : Host.Outcome State Fault Refusal := .next (runCommand 0x0B01 t f s)

/-- FW_ACTIVATE (R413). -/
def execFwActivate (t : Nat) (f : Frame) (s : State) : Host.Outcome State Fault Refusal := .next (runCommand 0x0B02 t f s)

/-- FW_COMMIT (R414). -/
def execFwCommit (t : Nat) (f : Frame) (s : State) : Host.Outcome State Fault Refusal := .next (runCommand 0x0B03 t f s)

/-- IDENTITY (R416). -/
def execIdentity (t : Nat) (f : Frame) (s : State) : Host.Outcome State Fault Refusal := .next (runCommand 0x0B04 t f s)

/-- ATTEST (R417). -/
def execAttest (t : Nat) (f : Frame) (s : State) : Host.Outcome State Fault Refusal := .next (runCommand 0x0B05 t f s)

/-! ### BOLLARD by its operation (R317) -/

/-- BOLLARD's parameter block: the bollard, the operation, the count. -/
def bollardFrame (f : Frame) (n : Byte) (op : Nat) (count : Nat) : Frame := { f with params := [n] ++ toLE 1 op ++ toLE 2 count ++ zeros 4 }

/-- BOLLARD_READ. -/
def execBollardRead (t : Nat) (f : Frame) (bollard : Byte) (s : State) : Host.Outcome State Fault Refusal :=
  .next (runCommand 0x0720 t (bollardFrame f bollard 0 0) s)

/-- BOLLARD_GIVE. -/
def execBollardGive (t : Nat) (f : Frame) (bollard : Byte) (count : BitVec 16) (s : State) : Host.Outcome State Fault Refusal :=
  .next (runCommand 0x0720 t (bollardFrame f bollard 1 count.toNat) s)

/-- BOLLARD_TAKE. -/
def execBollardTake (t : Nat) (f : Frame) (bollard : Byte) (count : BitVec 16) (s : State) : Host.Outcome State Fault Refusal :=
  .next (runCommand 0x0720 t (bollardFrame f bollard 2 count.toNat) s)

/-- BOLLARD_SET. -/
def execBollardSet (t : Nat) (f : Frame) (bollard : Byte) (count : BitVec 16) (s : State) : Host.Outcome State Fault Refusal :=
  .next (runCommand 0x0720 t (bollardFrame f bollard 3 count.toNat) s)

/-! ### COLLECTIVE by its kind (R335) -/

/-- COLLECTIVE with KIND 1. -/
def execAllReduce (t : Nat) (f : Frame) (s : State) : Host.Outcome State Fault Refusal :=
  .next (runCommand 0x0810 t { f with params := putBytes f.params 0 [1] } s)

/-- COLLECTIVE with KIND 2. -/
def execAllGather (t : Nat) (f : Frame) (s : State) : Host.Outcome State Fault Refusal :=
  .next (runCommand 0x0810 t { f with params := putBytes f.params 0 [2] } s)

/-! ### The urgent path (R348) -/

/-- BRACE_ALERT. -/
def execBraceAlert (t : Nat) (f : Frame) (s : State) : Host.Outcome State Fault Refusal := .next (runCommand 0x0900 t f s)

end Sys2Proof.Machine
end

