-- ==== Sys2Proof/Machine/RowsMedia.lean ====
section
/-! DEFINITION. Rows: the commands of group 0x02: namespaces and holds. A row is the arrival of the whole command. -/

namespace Sys2Proof.Machine

/-- NS_CREATE (R82). -/
def execNsCreate (t : Nat) (f : Frame) (s : State) : Host.Outcome State Fault Refusal := .next (runCommand 0x0200 t f s)

/-- NS_DELETE (R86). -/
def execNsDelete (t : Nat) (f : Frame) (s : State) : Host.Outcome State Fault Refusal := .next (runCommand 0x0201 t f s)

/-- NS_INFO (R86). -/
def execNsInfo (t : Nat) (f : Frame) (s : State) : Host.Outcome State Fault Refusal := .next (runCommand 0x0202 t f s)

/-- NS_READ (R54). -/
def execNsRead (t : Nat) (f : Frame) (s : State) : Host.Outcome State Fault Refusal := .next (runCommand 0x0203 t f s)

/-- NS_WRITE (R83). -/
def execNsWrite (t : Nat) (f : Frame) (s : State) : Host.Outcome State Fault Refusal := .next (runCommand 0x0204 t f s)

/-- NS_DISCARD (R84). -/
def execNsDiscard (t : Nat) (f : Frame) (s : State) : Host.Outcome State Fault Refusal := .next (runCommand 0x0205 t f s)

/-- NS_FLUSH (R85). -/
def execNsFlush (t : Nat) (f : Frame) (s : State) : Host.Outcome State Fault Refusal := .next (runCommand 0x0206 t f s)

/-- HOLD_CREATE (R87). -/
def execHoldCreate (t : Nat) (f : Frame) (s : State) : Host.Outcome State Fault Refusal := .next (runCommand 0x0210 t f s)

/-- HOLD_WRITE (R88). -/
def execHoldWrite (t : Nat) (f : Frame) (s : State) : Host.Outcome State Fault Refusal := .next (runCommand 0x0211 t f s)

/-- HOLD_SEAL (R90). -/
def execHoldSeal (t : Nat) (f : Frame) (s : State) : Host.Outcome State Fault Refusal := .next (runCommand 0x0212 t f s)

/-- HOLD_READ (R92). -/
def execHoldRead (t : Nat) (f : Frame) (s : State) : Host.Outcome State Fault Refusal := .next (runCommand 0x0213 t f s)

/-- HOLD_DELETE (R93). -/
def execHoldDelete (t : Nat) (f : Frame) (s : State) : Host.Outcome State Fault Refusal := .next (runCommand 0x0214 t f s)

/-- HOLD_INFO (R89). -/
def execHoldInfo (t : Nat) (f : Frame) (s : State) : Host.Outcome State Fault Refusal := .next (runCommand 0x0215 t f s)

/-- HOLD_MAP (R90). -/
def execHoldMap (t : Nat) (f : Frame) (s : State) : Host.Outcome State Fault Refusal := .next (runCommand 0x0216 t f s)

/-- RELOC_ACK (R95). -/
def execRelocAck (t : Nat) (f : Frame) (s : State) : Host.Outcome State Fault Refusal := .next (runCommand 0x0217 t f s)

/-- RELOC_LIST (R94). -/
def execRelocList (t : Nat) (f : Frame) (s : State) : Host.Outcome State Fault Refusal := .next (runCommand 0x0218 t f s)

end Sys2Proof.Machine
end

