-- ==== Sys2Proof/Machine/RowsVault.lean ====
section
/-! DEFINITION. Rows: the commands of group 0x06: the vault. A row is the arrival of the whole command. -/

namespace Sys2Proof.Machine

/-- VAULT_CREATE (R253). -/
def execVaultCreate (t : Nat) (f : Frame) (s : State) : Host.Outcome State Fault Refusal := .next (runCommand 0x0600 t f s)

/-- VAULT_DELETE (R254). -/
def execVaultDelete (t : Nat) (f : Frame) (s : State) : Host.Outcome State Fault Refusal := .next (runCommand 0x0601 t f s)

/-- VAULT_INFO (R254). -/
def execVaultInfo (t : Nat) (f : Frame) (s : State) : Host.Outcome State Fault Refusal := .next (runCommand 0x0602 t f s)

/-- VAULT_PLAN (R271). -/
def execVaultPlan (t : Nat) (f : Frame) (s : State) : Host.Outcome State Fault Refusal := .next (runCommand 0x0603 t f s)

/-- VAULT_BEGIN (R256). -/
def execVaultBegin (t : Nat) (f : Frame) (s : State) : Host.Outcome State Fault Refusal := .next (runCommand 0x0604 t f s)

/-- VAULT_COMMIT (R266). -/
def execVaultCommit (t : Nat) (f : Frame) (s : State) : Host.Outcome State Fault Refusal := .next (runCommand 0x0605 t f s)

/-- VAULT_CANCEL (R269). -/
def execVaultCancel (t : Nat) (f : Frame) (s : State) : Host.Outcome State Fault Refusal := .next (runCommand 0x0606 t f s)

/-- VAULT_LIST (R278). -/
def execVaultList (t : Nat) (f : Frame) (s : State) : Host.Outcome State Fault Refusal := .next (runCommand 0x0607 t f s)

/-- VAULT_MANIFEST (R278). -/
def execVaultManifest (t : Nat) (f : Frame) (s : State) : Host.Outcome State Fault Refusal := .next (runCommand 0x0608 t f s)

/-- VAULT_RESTORE (R279). -/
def execVaultRestore (t : Nat) (f : Frame) (s : State) : Host.Outcome State Fault Refusal := .next (runCommand 0x0609 t f s)

/-- VAULT_VERIFY (R280). -/
def execVaultVerify (t : Nat) (f : Frame) (s : State) : Host.Outcome State Fault Refusal := .next (runCommand 0x060A t f s)

/-- VAULT_CONSOLIDATE (R273). -/
def execVaultConsolidate (t : Nat) (f : Frame) (s : State) : Host.Outcome State Fault Refusal := .next (runCommand 0x060B t f s)

/-- VAULT_KEEP (R277). -/
def execVaultKeep (t : Nat) (f : Frame) (s : State) : Host.Outcome State Fault Refusal := .next (runCommand 0x060C t f s)

/-- VAULT_DROP (R277). -/
def execVaultDrop (t : Nat) (f : Frame) (s : State) : Host.Outcome State Fault Refusal := .next (runCommand 0x060D t f s)

/-- REPL_ACCEPT (R284). -/
def execReplAccept (t : Nat) (f : Frame) (s : State) : Host.Outcome State Fault Refusal := .next (runCommand 0x0610 t f s)

/-- REPL_SET (R285). -/
def execReplSet (t : Nat) (f : Frame) (s : State) : Host.Outcome State Fault Refusal := .next (runCommand 0x0611 t f s)

end Sys2Proof.Machine
end

