-- ==== Sys2Proof/Machine/Sideband.lean ====
section
/-! DEFINITION. The sideband: its transactions, its registers, and the requests of Table 18.8 (R445, R446). -/

namespace Sys2Proof.Machine

/-! ### Registers (Table 18.7) -/

def sbBit (n : Nat) (b : Bool) : Nat := if b then 2 ^ n else 0

/-- STATUS. -/
def sbStatus (s : State) : Nat :=
  sbBit 0 s.side.bladeOk + sbBit 1 s.side.switchClosed + sbBit 2 s.side.railsOn + sbBit 3 s.side.railFault + sbBit 4 s.side.pdPending
    + sbBit 5 (s.side.tripped != 0) + sbBit 6 s.side.senseOk

/-- TEMP_MAX: the hottest sensor in whole °C. -/
def sbTempMax (s : State) : Nat :=
  if s.side.railsOn then
    maxNat ((s.thermal.sensors.filterMap (fun x => filtered s x.sensor)).map (fun v => min 255 (v / 16).toNat))
  else 0

/-- The value of a register. -/
def sbValue (s : State) (reg : Nat) : Nat :=
  match reg with
  | 0 => sbStatus s
  | 1 => s.dev.state.code
  | 2 => if s.dev.state = .dryDock then s.dev.record.dockCause else 0
  | 3 => s.side.request
  | 4 => sbTempMax s
  | _ => 0

/-! ### Requests (Table 18.8) -/

/-- RESULT codes of Table 18.6. -/
def sbOk : Nat := 0
def sbHeld : Nat := 1
def sbRefused : Nat := 2
def sbBadFrame : Nat := 3
def sbBusy : Nat := 4

/-- A flush runs, or a reset or drain that an earlier request started has not reached its end point. -/
def sbIsBusy (s : State) : Bool := s.side.busy || s.pf.flushAt.isSome

/-- The request's code is accepted. -/
def sbAccept (code : Nat) (s : State) : State := { s with side := { s.side with request := code } }

/-- RESET: at once where no media is mounted; otherwise what Table 17.3 lists comes first. -/
def requestReset (s : State) : State × Nat :=
  let s1 := sbAccept 1 s
  match s.dev.state with
  | .powered => (s, sbRefused)
  | .trial | .mounting | .dryDock => let s2 := railsOff 3 s1; ({ s2 with side := { s2.side with busy := true } }, sbOk)
  | .ready | .braced | .draining =>
    ({ s1 with dev := { s1.dev with resetSeal := some 3 }, side := { s1.side with busy := true } }, sbOk)

/-- POWER_DOWN: a drain with HOLD_S 0, held in BRACED. -/
def requestDown (s : State) : State × Nat :=
  match s.dev.state with
  | .ready => (startDrain false 0 true (sbAccept 2 { s with side := { s.side with busy := true } }), sbOk)
  | .braced => (sbAccept 2 { s with side := { s.side with pdPending := true } }, sbHeld)
  | .draining => (sbAccept 2 s, sbOk)
  | .powered | .trial | .mounting | .dryDock => (s, sbRefused)

/-- POWER_UP: after a DRAIN, while the input switch lets power in. -/
def requestUp (s : State) : State × Nat :=
  if s.dev.state == .powered && s.side.drained && s.side.tripped == 0 && !s.side.lockout then
    (sbAccept 3 { s with side := { s.side with drained := false, powerOnDue := true, nextKind := 6, busy := true } }, sbOk)
  else (s, sbRefused)

/-- CANCEL of a held POWER_DOWN. -/
def requestCancel (s : State) : State × Nat :=
  if s.dev.state == .braced && s.side.pdPending then (sbAccept 4 { s with side := { s.side with pdPending := false } }, sbOk)
  else (s, sbRefused)

/-- A write to REQUEST. -/
def sbRequest (code : Nat) (s : State) : State × Nat :=
  if code = 0 ∨ 4 < code then (s, sbRefused)
  else if sbIsBusy s then (s, sbBusy)
  else
    match code with
    | 1 => requestReset s
    | 2 => requestDown s
    | 3 => requestUp s
    | _ => requestCancel s

/-- The reply of a transaction: RESULT, the register's value after it, and the CRC over both. -/
def sbReply (result reg : Nat) (s : State) : State :=
  let r : Byte := BitVec.ofNat 8 result
  let v : Byte := BitVec.ofNat 8 (sbValue s reg)
  emit (.sideband r v (BitVec.ofNat 8 (crc8 [r, v]))) s

/-- A transaction of 24 bits from the host, most significant bit first. -/
def sbTransaction (w : Nat) (s : State) : State :=
  let b0 := bits w 16 8
  let b1 := bits w 8 8
  let reg := bits b0 0 3
  if bits b0 4 4 ≠ 0xA ∨ crc8 [BitVec.ofNat 8 b0, BitVec.ofNat 8 b1] ≠ bits w 0 8 then sbReply sbBadFrame reg s
  else if bits b0 3 1 = 0 then sbReply sbOk reg s
  else if reg ≠ 3 then sbReply sbRefused reg s
  else let r := sbRequest b1 s; sbReply r.2 3 r.1

/-! ### Rows -/

/-- SIDEBAND_TRANSACTION: the controller answers in every device state. -/
def execSidebandTransaction (t : Nat) (frame : BitVec 24) (s0 : State) : Host.Outcome State Fault Refusal :=
  .next (sbTransaction frame.toNat (setNow t s0))

/-- SIDEBAND_TIMEOUT: a transaction not completed within 10 ms leaves nothing and has no reply. -/
def execSidebandTimeout (t : Nat) (s0 : State) : Host.Outcome State Fault Refusal := .next (setNow t s0)

/-- A REQUEST write of `code` with its reply. -/
def sbWrite (code t : Nat) (s0 : State) : State := let r := sbRequest code (setNow t s0); sbReply r.2 3 r.1

/-- SIDEBAND_RESET. -/
def execSidebandReset (t : Nat) (s0 : State) : Host.Outcome State Fault Refusal := .next (sbWrite 1 t s0)

/-- POWER_DOWN. -/
def execPowerDown (t : Nat) (s0 : State) : Host.Outcome State Fault Refusal := .next (sbWrite 2 t s0)

/-- POWER_UP. -/
def execPowerUp (t : Nat) (s0 : State) : Host.Outcome State Fault Refusal := .next (sbWrite 3 t s0)

/-- CANCEL. -/
def execCancel (t : Nat) (s0 : State) : Host.Outcome State Fault Refusal := .next (sbWrite 4 t s0)

end Sys2Proof.Machine
end

