-- ==== Sys2Proof/Machine/Dispatch.lean ====
section
/-! DEFINITION. The dispatch: one arm per constructor of `Instr`. -/

namespace Sys2Proof.Machine

def exec (i : Instr) (s : State) : Host.Outcome State Fault Refusal :=
  match i with
  | .nimoxFrame t d => Sys2Proof.Machine.execNimoxFrame t d s
  | .reassemblyTimeout t k => Sys2Proof.Machine.execReassemblyTimeout t k s
  | .refusedKeyExpiry t k => Sys2Proof.Machine.execRefusedKeyExpiry t k s
  | .sequenceGapTimeout t berth queue => Sys2Proof.Machine.execSequenceGapTimeout t berth queue s
  | .commandStart t id => Sys2Proof.Machine.execCommandStart t id s
  | .workCompletion t id err => Sys2Proof.Machine.execWorkCompletion t id err s
  | .powerExitComplete t => Sys2Proof.Machine.execPowerExitComplete t s
  | .idleP1Timeout t => Sys2Proof.Machine.execIdleP1Timeout t s
  | .idleP2Timeout t => Sys2Proof.Machine.execIdleP2Timeout t s
  | .idleP3Timeout t => Sys2Proof.Machine.execIdleP3Timeout t s
  | .echo t f => Sys2Proof.Machine.execEcho t f s
  | .getParam t f => Sys2Proof.Machine.execGetParam t f s
  | .setParam t f => Sys2Proof.Machine.execSetParam t f s
  | .portClass t f port cls => Sys2Proof.Machine.execPortClass t f port cls s
  | .nimoxTransport t f value mask => Sys2Proof.Machine.execNimoxTransport t f value mask s
  | .berthShares t f value mask => Sys2Proof.Machine.execBerthShares t f value mask s
  | .breakwater t f value mask => Sys2Proof.Machine.execBreakwater t f value mask s
  | .hawserConfig t f value mask => Sys2Proof.Machine.execHawserConfig t f value mask s
  | .userWp t f group on => Sys2Proof.Machine.execUserWp t f group on s
  | .floor t f value => Sys2Proof.Machine.execFloor t f value s
  | .revoke t f key => Sys2Proof.Machine.execRevoke t f key s
  | .eventsClear t f pid bits => Sys2Proof.Machine.execEventsClear t f pid bits s
  | .readResult t f => Sys2Proof.Machine.execReadResult t f s
  | .release t f => Sys2Proof.Machine.execRelease t f s
  | .queueStatus t f => Sys2Proof.Machine.execQueueStatus t f s
  | .queueSet t f => Sys2Proof.Machine.execQueueSet t f s
  | .drain t f => Sys2Proof.Machine.execDrain t f s
  | .reset t f => Sys2Proof.Machine.execReset t f s
  | .qpCreate t f => Sys2Proof.Machine.execQpCreate t f s
  | .qpDestroy t f => Sys2Proof.Machine.execQpDestroy t f s
  | .regionRegister t f => Sys2Proof.Machine.execRegionRegister t f s
  | .regionDeregister t f => Sys2Proof.Machine.execRegionDeregister t f s
  | .rdmaWrite t p => Sys2Proof.Machine.execRdmaWrite t p s
  | .rdmaWriteWithImmediate t p imm => Sys2Proof.Machine.execRdmaWriteWithImmediate t p imm s
  | .rdmaRead t p => Sys2Proof.Machine.execRdmaRead t p s
  | .rdmaReadResponse t qpn psn data => Sys2Proof.Machine.execRdmaReadResponse t qpn psn data s
  | .ackReceived t qpn psn => Sys2Proof.Machine.execAckReceived t qpn psn s
  | .nakReceived t qpn psn code => Sys2Proof.Machine.execNakReceived t qpn psn code s
  | .ackTimeout t qpn => Sys2Proof.Machine.execAckTimeout t qpn s
  | .congestionNotificationPacket t qpn => Sys2Proof.Machine.execCongestionNotificationPacket t qpn s
  | .rateRecovery t qpn => Sys2Proof.Machine.execRateRecovery t qpn s
  | .pfcFrame t port priority pause => Sys2Proof.Machine.execPfcFrame t port priority pause s
  | .arpRequest t port target senderIp senderMac => Sys2Proof.Machine.execArpRequest t port target senderIp senderMac s
  | .neighborDiscovery t port target srcIp => Sys2Proof.Machine.execNeighborDiscovery t port target srcIp s
  | .icmpEcho t port dstIp srcIp ident seqNo data => Sys2Proof.Machine.execIcmpEcho t port dstIp srcIp ident seqNo data s
  | .lldpTransmit t port => Sys2Proof.Machine.execLldpTransmit t port s
  | .hostLinkAttemptTimeout t port => Sys2Proof.Machine.execHostLinkAttemptTimeout t port s
  | .hostLinkLoss t port => Sys2Proof.Machine.execHostLinkLoss t port s
  | .sync t m => Sys2Proof.Machine.execSync t m s
  | .followUp t m => Sys2Proof.Machine.execFollowUp t m s
  | .delayReqSend t => Sys2Proof.Machine.execDelayReqSend t s
  | .delayResp t m => Sys2Proof.Machine.execDelayResp t m s
  | .ptpAnnounce t m => Sys2Proof.Machine.execPtpAnnounce t m s
  | .masterLoss t => Sys2Proof.Machine.execMasterLoss t s
  | .syncTimeout t => Sys2Proof.Machine.execSyncTimeout t s
  | .ppsPulse t => Sys2Proof.Machine.execPpsPulse t s
  | .nsCreate t f => Sys2Proof.Machine.execNsCreate t f s
  | .nsDelete t f => Sys2Proof.Machine.execNsDelete t f s
  | .nsInfo t f => Sys2Proof.Machine.execNsInfo t f s
  | .nsRead t f => Sys2Proof.Machine.execNsRead t f s
  | .nsWrite t f => Sys2Proof.Machine.execNsWrite t f s
  | .nsDiscard t f => Sys2Proof.Machine.execNsDiscard t f s
  | .nsFlush t f => Sys2Proof.Machine.execNsFlush t f s
  | .holdCreate t f => Sys2Proof.Machine.execHoldCreate t f s
  | .holdWrite t f => Sys2Proof.Machine.execHoldWrite t f s
  | .holdSeal t f => Sys2Proof.Machine.execHoldSeal t f s
  | .holdRead t f => Sys2Proof.Machine.execHoldRead t f s
  | .holdDelete t f => Sys2Proof.Machine.execHoldDelete t f s
  | .holdInfo t f => Sys2Proof.Machine.execHoldInfo t f s
  | .holdMap t f => Sys2Proof.Machine.execHoldMap t f s
  | .relocAck t f => Sys2Proof.Machine.execRelocAck t f s
  | .relocList t f => Sys2Proof.Machine.execRelocList t f s
  | .nandReadComplete t r => Sys2Proof.Machine.execNandReadComplete t r s
  | .nandProgramComplete t p => Sys2Proof.Machine.execNandProgramComplete t p s
  | .nandEraseComplete t quay sb failed => Sys2Proof.Machine.execNandEraseComplete t quay sb failed s
  | .dieCommandTimeout t quay die => Sys2Proof.Machine.execDieCommandTimeout t quay die s
  | .dredging t quay => Sys2Proof.Machine.execDredging t quay s
  | .wearLevelling t quay => Sys2Proof.Machine.execWearLevelling t quay s
  | .pslcPoolTarget t quay => Sys2Proof.Machine.execPslcPoolTarget t quay s
  | .mapCheckpoint t => Sys2Proof.Machine.execMapCheckpoint t s
  | .relocation t hold run cause => Sys2Proof.Machine.execRelocation t hold run cause s
  | .noticeRepeat t hold token => Sys2Proof.Machine.execNoticeRepeat t hold token s
  | .forwardingExpiry t hold token => Sys2Proof.Machine.execForwardingExpiry t hold token s
  | .quayLinkLoss t quay resent => Sys2Proof.Machine.execQuayLinkLoss t quay resent s
  | .quayLinkTrainTimeout t quay => Sys2Proof.Machine.execQuayLinkTrainTimeout t quay s
  | .enginePartBoundary t e => Sys2Proof.Machine.execEnginePartBoundary t e s
  | .tideWindowStart t entry => Sys2Proof.Machine.execTideWindowStart t entry s
  | .tideWindowEnd t entry => Sys2Proof.Machine.execTideWindowEnd t entry s
  | .tideTableSwitch t => Sys2Proof.Machine.execTideTableSwitch t s
  | .planLoad t f => Sys2Proof.Machine.execPlanLoad t f s
  | .planBind t f => Sys2Proof.Machine.execPlanBind t f s
  | .planUnbind t f => Sys2Proof.Machine.execPlanUnbind t f s
  | .planDelete t f => Sys2Proof.Machine.execPlanDelete t f s
  | .planInfo t f => Sys2Proof.Machine.execPlanInfo t f s
  | .planRun t f => Sys2Proof.Machine.execPlanRun t f s
  | .planEstimate t f => Sys2Proof.Machine.execPlanEstimate t f s
  | .contextClear t f => Sys2Proof.Machine.execContextClear t f s
  | .adaptStep t f => Sys2Proof.Machine.execAdaptStep t f s
  | .adaptExport t f => Sys2Proof.Machine.execAdaptExport t f s
  | .adaptReset t f => Sys2Proof.Machine.execAdaptReset t f s
  | .indexCreate t f => Sys2Proof.Machine.execIndexCreate t f s
  | .indexDelete t f => Sys2Proof.Machine.execIndexDelete t f s
  | .indexInfo t f => Sys2Proof.Machine.execIndexInfo t f s
  | .indexInsert t f => Sys2Proof.Machine.execIndexInsert t f s
  | .indexRemove t f => Sys2Proof.Machine.execIndexRemove t f s
  | .indexSearch t f => Sys2Proof.Machine.execIndexSearch t f s
  | .indexRebalance t f => Sys2Proof.Machine.execIndexRebalance t f s
  | .indexFold t index quay => Sys2Proof.Machine.execIndexFold t index quay s
  | .selectTopk t f => Sys2Proof.Machine.execSelectTopk t f s
  | .selectMerge t f => Sys2Proof.Machine.execSelectMerge t f s
  | .vaultCreate t f => Sys2Proof.Machine.execVaultCreate t f s
  | .vaultDelete t f => Sys2Proof.Machine.execVaultDelete t f s
  | .vaultInfo t f => Sys2Proof.Machine.execVaultInfo t f s
  | .vaultPlan t f => Sys2Proof.Machine.execVaultPlan t f s
  | .vaultBegin t f => Sys2Proof.Machine.execVaultBegin t f s
  | .vaultCommit t f => Sys2Proof.Machine.execVaultCommit t f s
  | .vaultCancel t f => Sys2Proof.Machine.execVaultCancel t f s
  | .vaultList t f => Sys2Proof.Machine.execVaultList t f s
  | .vaultManifest t f => Sys2Proof.Machine.execVaultManifest t f s
  | .vaultRestore t f => Sys2Proof.Machine.execVaultRestore t f s
  | .vaultVerify t f => Sys2Proof.Machine.execVaultVerify t f s
  | .vaultConsolidate t f => Sys2Proof.Machine.execVaultConsolidate t f s
  | .vaultKeep t f => Sys2Proof.Machine.execVaultKeep t f s
  | .vaultDrop t f => Sys2Proof.Machine.execVaultDrop t f s
  | .replAccept t f => Sys2Proof.Machine.execReplAccept t f s
  | .replSet t f => Sys2Proof.Machine.execReplSet t f s
  | .consolidation t berth => Sys2Proof.Machine.execConsolidation t berth s
  | .captureDue t berth => Sys2Proof.Machine.execCaptureDue t berth s
  | .hello t berth => Sys2Proof.Machine.execHello t berth s
  | .begin t berth => Sys2Proof.Machine.execBegin t berth s
  | .endRecord t berth => Sys2Proof.Machine.execEndRecord t berth s
  | .credit t berth => Sys2Proof.Machine.execCredit t berth s
  | .acknowledgement t berth => Sys2Proof.Machine.execAcknowledgement t berth s
  | .replTimeout t berth => Sys2Proof.Machine.execReplTimeout t berth s
  | .replRetry t berth => Sys2Proof.Machine.execReplRetry t berth s
  | .berthCreate t f => Sys2Proof.Machine.execBerthCreate t f s
  | .berthRelease t f => Sys2Proof.Machine.execBerthRelease t f s
  | .berthSuspend t f => Sys2Proof.Machine.execBerthSuspend t f s
  | .berthResume t f => Sys2Proof.Machine.execBerthResume t f s
  | .berthInfo t f => Sys2Proof.Machine.execBerthInfo t f s
  | .tideLoad t f => Sys2Proof.Machine.execTideLoad t f s
  | .tideRead t f => Sys2Proof.Machine.execTideRead t f s
  | .bollardRead t f bollard => Sys2Proof.Machine.execBollardRead t f bollard s
  | .bollardGive t f bollard count => Sys2Proof.Machine.execBollardGive t f bollard count s
  | .bollardTake t f bollard count => Sys2Proof.Machine.execBollardTake t f bollard count s
  | .bollardSet t f bollard count => Sys2Proof.Machine.execBollardSet t f bollard count s
  | .mailSend t f => Sys2Proof.Machine.execMailSend t f s
  | .mailRecv t f => Sys2Proof.Machine.execMailRecv t f s
  | .hawserInfo t f => Sys2Proof.Machine.execHawserInfo t f s
  | .hawserRetrain t f => Sys2Proof.Machine.execHawserRetrain t f s
  | .fleetMap t f => Sys2Proof.Machine.execFleetMap t f s
  | .allReduce t f => Sys2Proof.Machine.execAllReduce t f s
  | .allGather t f => Sys2Proof.Machine.execAllGather t f s
  | .idle t r => Sys2Proof.Machine.execIdle t r s
  | .data t r => Sys2Proof.Machine.execData t r s
  | .ident t r => Sys2Proof.Machine.execIdent t r s
  | .topo t r => Sys2Proof.Machine.execTopo t r s
  | .flowOpen t r => Sys2Proof.Machine.execFlowOpen t r s
  | .flowAck t r => Sys2Proof.Machine.execFlowAck t r s
  | .work t r => Sys2Proof.Machine.execWork t r s
  | .result t r => Sys2Proof.Machine.execResult t r s
  | .announce t r => Sys2Proof.Machine.execAnnounce t r s
  | .hawserReplayTimeout t port => Sys2Proof.Machine.execHawserReplayTimeout t port s
  | .hawserTraining t port => Sys2Proof.Machine.execHawserTraining t port s
  | .trainingStepTimeout t port => Sys2Proof.Machine.execTrainingStepTimeout t port s
  | .hawserDownRetry t port => Sys2Proof.Machine.execHawserDownRetry t port s
  | .identRecheck t port => Sys2Proof.Machine.execIdentRecheck t port s
  | .braceAlert t f => Sys2Proof.Machine.execBraceAlert t f s
  | .motionEvents t f => Sys2Proof.Machine.execMotionEvents t f s
  | .motionWaveform t f => Sys2Proof.Machine.execMotionWaveform t f s
  | .accelerometerSample t sample => Sys2Proof.Machine.execAccelerometerSample t sample s
  | .braceSealComplete t => Sys2Proof.Machine.execBraceSealComplete t s
  | .accelerometerFault t => Sys2Proof.Machine.execAccelerometerFault t s
  | .alertExpiry t source => Sys2Proof.Machine.execAlertExpiry t source s
  | .peerExpiry t moduleNo => Sys2Proof.Machine.execPeerExpiry t moduleNo s
  | .announcementRepeat t => Sys2Proof.Machine.execAnnouncementRepeat t s
  | .holdOffExpiry t => Sys2Proof.Machine.execHoldOffExpiry t s
  | .powerFailAssertion t => Sys2Proof.Machine.execPowerFailAssertion t s
  | .pfGlitch t => Sys2Proof.Machine.execPfGlitch t s
  | .flushComplete t ok => Sys2Proof.Machine.execFlushComplete t ok s
  | .powerRestored t => Sys2Proof.Machine.execPowerRestored t s
  | .holdupMeasurement t v1 v2 => Sys2Proof.Machine.execHoldupMeasurement t v1 v2 s
  | .patrolScrub t w r => Sys2Proof.Machine.execPatrolScrub t w r s
  | .poisonRewrite t w => Sys2Proof.Machine.execPoisonRewrite t w s
  | .logbookInfo t f => Sys2Proof.Machine.execLogbookInfo t f s
  | .logbookRead t f => Sys2Proof.Machine.execLogbookRead t f s
  | .logbookProgram t f => Sys2Proof.Machine.execLogbookProgram t f s
  | .logbookErase t f => Sys2Proof.Machine.execLogbookErase t f s
  | .logbookSettings t f => Sys2Proof.Machine.execLogbookSettings t f s
  | .logbookCompaction t region => Sys2Proof.Machine.execLogbookCompaction t region s
  | .fwInfo t f => Sys2Proof.Machine.execFwInfo t f s
  | .fwStage t f => Sys2Proof.Machine.execFwStage t f s
  | .fwActivate t f => Sys2Proof.Machine.execFwActivate t f s
  | .fwCommit t f => Sys2Proof.Machine.execFwCommit t f s
  | .identity t f => Sys2Proof.Machine.execIdentity t f s
  | .attest t f => Sys2Proof.Machine.execAttest t f s
  | .inputSwitchClose t removedMs => Sys2Proof.Machine.execInputSwitchClose t removedMs s
  | .senseBreak t => Sys2Proof.Machine.execSenseBreak t s
  | .overvoltage t => Sys2Proof.Machine.execOvervoltage t s
  | .railsInRegulation t => Sys2Proof.Machine.execRailsInRegulation t s
  | .railFault t => Sys2Proof.Machine.execRailFault t s
  | .railRetry t => Sys2Proof.Machine.execRailRetry t s
  | .componentStart t component unitNo => Sys2Proof.Machine.execComponentStart t component unitNo s
  | .startTimeout t component => Sys2Proof.Machine.execStartTimeout t component s
  | .seaTrialComplete t faults => Sys2Proof.Machine.execSeaTrialComplete t faults s
  | .holdupBankFull t => Sys2Proof.Machine.execHoldupBankFull t s
  | .holdupChargeTimeout t => Sys2Proof.Machine.execHoldupChargeTimeout t s
  | .mountingComplete t offlineNs offlineIndex brokenCkpts => Sys2Proof.Machine.execMountingComplete t offlineNs offlineIndex brokenCkpts s
  | .holdSExpiry t => Sys2Proof.Machine.execHoldSExpiry t s
  | .drainComplete t => Sys2Proof.Machine.execDrainComplete t s
  | .sidebandTransaction t frame => Sys2Proof.Machine.execSidebandTransaction t frame s
  | .sidebandTimeout t => Sys2Proof.Machine.execSidebandTimeout t s
  | .sidebandReset t => Sys2Proof.Machine.execSidebandReset t s
  | .powerDown t => Sys2Proof.Machine.execPowerDown t s
  | .powerUp t => Sys2Proof.Machine.execPowerUp t s
  | .cancel t => Sys2Proof.Machine.execCancel t s
  | .temperatureSample t sensor value => Sys2Proof.Machine.execTemperatureSample t sensor value s
  | .tempSensorTimeout t sensor => Sys2Proof.Machine.execTempSensorTimeout t sensor s
  | .thermalStepExit t sensor => Sys2Proof.Machine.execThermalStepExit t sensor s
  | .thermalTrip t sensor => Sys2Proof.Machine.execThermalTrip t sensor s
  | .powerSample t watts => Sys2Proof.Machine.execPowerSample t watts s
  | .powerSampleTimeout t => Sys2Proof.Machine.execPowerSampleTimeout t s
  | .powerStepExit t => Sys2Proof.Machine.execPowerStepExit t s
  | .hostLinkUp t port gbps => Sys2Proof.Machine.execHostLinkUp t port gbps s
  | .hawserSignalLoss t port => Sys2Proof.Machine.execHawserSignalLoss t port s
  | .quayLinkLock t quay => Sys2Proof.Machine.execQuayLinkLock t quay s
  | .laneLock t port lanes => Sys2Proof.Machine.execLaneLock t port lanes s
  | .comparatorRearm t => Sys2Proof.Machine.execComparatorRearm t s
  | .logbookOperationComplete t bank ok => Sys2Proof.Machine.execLogbookOperationComplete t bank ok s
  | .resetSealComplete t => Sys2Proof.Machine.execResetSealComplete t s
  | .railsOffExpiry t => Sys2Proof.Machine.execRailsOffExpiry t s

end Sys2Proof.Machine
end

