-- ==== Sys2Proof/Safety.lean ====
section
/-! DEFINITION. What claims speak of: the invariant of the block, when a whole command reaches admission, when an accepted
command runs at once, and what a reply is. -/

namespace Sys2Proof.Machine

/-! ### The invariant -/

/-- Every state the block is in: sixteen berths (R291), an identifier for the next command that no accepted command has, and
SRAM shares in canonical form. -/
def Sound (s : State) : Prop :=
  s.berths.length = 16 ∧ (∀ a ∈ s.cmds.active, a.id < s.cmds.nextId) ∧ ∀ x ∈ s.rdma.sram, memWf x.2 = true

/-! ### A whole command on its way to admission -/

/-- The command in `f` arrives as one datagram that step 1 to 3 of Table 2.5 let pass, at local time `t`, and is not URGENT. -/
def Arrives (op t : Nat) (f : Frame) (s : State) : Prop :=
  portUp (setNow t s) f.port = true ∧ headerFault op 1 f = none ∧ f.urgent = false ∧ f.params.length + f.payload.length ≤ fragUnit s

/-- The datagram of the command has been counted. -/
def counted (t : Nat) (f : Frame) (s : State) : State :=
  hostCharge f.berth f.port (32 + (f.params.length + f.payload.length))
    (modPortStats f.port (fun p => { p with framesIn := satAdd 64 p.framesIn 1 }) (setNow t s))

/-- Sequencing applies to the command (R35). -/
def sequenced (t : Nat) (f : Frame) (s : State) : Bool := sequencedNow (counted t f s) f

/-- Where sequencing applies, the command carries the number its queue expects, and no later command is held (R35). -/
def InOrder (t : Nat) (f : Frame) (s : State) : Prop :=
  sequenced t f s = true → f.seq = (getQueue (counted t f s) f.berth f.queue).expected ∧ (getQueue (counted t f s) f.berth f.queue).held = []

/-- The state in which the command meets step 5 of Table 2.5: a sequenced command has consumed its number. -/
def atAdmission (t : Nat) (f : Frame) (s : State) : State :=
  if sequenced t f s then
    let q := getQueue (counted t f s) f.berth f.queue
    setQueue { q with expected := q.expected + 1 } (counted t f s)
  else counted t f s

/-- The queue's gap timer after a command in order (R36). -/
def settled (t : Nat) (f : Frame) (s r : State) : State :=
  if sequenced t f s then gapTimer f.berth f.queue (getQueue (counted t f s) f.berth f.queue).expected r else r

/-- The command passes every check that stands before that of its result slot (steps 5 to 10 of Table 2.5 and those of its own). -/
def PassesToSlots (sp : CmdSpec) (s : State) (f : Frame) : Prop :=
  (f.queue = 0xFF → sp.ctrl = true) ∧ sp.frameOk s f = none ∧ sp.device (judgedState s) f = true ∧ neededClass sp s ≤ portClassOf s f.port ∧
    (berthLive s f.berth || sp.freeOk s f) = true ∧ missingUnits s (sp.units s f) = 0 ∧ (s.dev.state = .braced → sp.brace s f = false) ∧
    sp.check s f = none ∧ sp.objects s f = none

/-! ### Acceptance and start -/

/-- The command passes every check of Table 2.5. -/
def Accepted (sp : CmdSpec) (t : Nat) (f : Frame) (s : State) : Prop :=
  Sound s ∧ Arrives sp.opcode t f s ∧ InOrder t f s ∧ admissionChecks sp (atAdmission t f s) f = none

/-- The state once the command is entered and has taken what it holds. -/
def taken (sp : CmdSpec) (t : Nat) (f : Frame) (s : State) : State :=
  let s1 := atAdmission t f s
  let s2 := enter sp f (sequenced t f s) s1
  let s3 := if sp.result then answer sp.opcode f (sequenced t f s) stOk (.accepted (freeSlotIndex s1 f.berth) (32 + sp.size s1 f) (ptpNow s1)) [] [] s2 else s2
  sp.take s3 (newActive sp f (sequenced t f s) s1)

/-- Nothing holds the accepted command back (R38, R58, R302): every earlier command of its queue has started, its berth is
not SUSPENDED, its units are on, and the waits of its own chapter are over. -/
def Unheld (sp : CmdSpec) (t : Nat) (f : Frame) (s : State) : Prop :=
  (∀ b ∈ s.cmds.active, b.sequenced = true → b.frame.berth = f.berth → b.frame.queue = f.queue → 3 ≤ b.phase) ∧
  (f.queue = 0xFF ∨ (getBerth s f.berth).state ≠ .suspended) ∧
  s.power.current ≤ sp.depth (atAdmission t f s) f ∧
  sp.wait (taken sp t f s) (newActive sp f (sequenced t f s) (atAdmission t f s)) = 3

/-- The command is accepted and starts in the same step. -/
def Starts (sp : CmdSpec) (t : Nat) (f : Frame) (s : State) : Prop := Accepted sp t f s ∧ Unheld sp t f s

/-- The started command as its queue entry shows it. -/
def startedCmd (sp : CmdSpec) (t : Nat) (f : Frame) (s : State) : Active :=
  { newActive sp f (sequenced t f s) (atAdmission t f s) with phase := 3 }

/-- The state in which the work of a command that starts at once is done: the command is the newest accepted one, in PHASE 3. -/
def running (sp : CmdSpec) (t : Nat) (f : Frame) (s : State) : State :=
  let s1 := taken sp t f s
  { s1 with cmds := { s1.cmds with active := (atAdmission t f s).cmds.active ++ [startedCmd sp t f s] } }

/-- Neither a failed queue pair nor a poisoned word stops the work at its end (R70, R371). -/
def Unhurt (sp : CmdSpec) (t : Nat) (f : Frame) (s : State) : Prop :=
  failedQp (running sp t f s) (startedCmd sp t f s) = none ∧
  poisonedRef (sp.uses (running sp t f s) f) (running sp t f s) (startedCmd sp t f s) = none

/-- The command completes with outcome `o` where its work left state `w`; the queue's gap timer settles. -/
def finish (sp : CmdSpec) (t : Nat) (f : Frame) (s w : State) (o : WorkOut) : State :=
  settled t f s (complete (startedCmd sp t f s) o w)

/-! ### Replies -/

/-- The step from `s` to `u` sent a reply to the command: through its port, to its source, with its tag and number, and with
this status and detail (R32, R33). -/
def Replied (s u : State) (op : Nat) (f : Frame) (status : Nat) (d : Detail) (fields payload : Bytes) : Prop :=
  ∃ later earlier r, u.out = later ++ Output.reply f.port f.srcIp f.srcUdp (fragUnit s) r :: (earlier ++ s.out) ∧
    r.opcode = op ∧ r.berth = f.berth ∧ r.queue = f.queue ∧ r.tag = f.tag ∧ r.seq = f.seq ∧ r.block.status = status ∧ r.block.detail = d ∧
    r.fields = fields ∧ r.payload = payload

/-- `w` with what every answered command changes as `u` has it: time, what is sent, the free-value counter, the berths'
counters and buckets, the ports' counters and the queues, and the idle timers; hawser work of the command is over. The next
command's identifier has moved on, and no command is accepted that was not accepted before. -/
def answeredAs (u w : State) : State :=
  { w with
    now := u.now, fresh := u.fresh, out := u.out, berths := u.berths
    net := { w.net with ports := u.net.ports, queues := u.net.queues }
    cmds := { w.cmds with nextId := w.cmds.nextId + 1 }
    power := { w.power with lastP0 := u.power.lastP0, lastNand := u.power.lastNand, lastSram := u.power.lastSram }
    hawser := (dropWork w.cmds.nextId w).hawser }

/-- Every berth is as it was but for its use counters and HOST buckets, every host port but for its counters, and every
queue but for what the command's own queue counts and caches. -/
def PlacesKept (f : Frame) (w u : State) : Prop :=
  (∀ b, getBerth u b = { getBerth w b with use := (getBerth u b).use, buckets := (getBerth u b).buckets }) ∧
  (∀ n, hostPort u n = { hostPort w n with stats := (hostPort u n).stats }) ∧
  ∀ b q, getQueue u b q =
    if b = f.berth ∧ q = f.queue then
      { getQueue w b q with
        expected := (getQueue u b q).expected
        cache := (getQueue u b q).cache
        dest := (getQueue u b q).dest
        gapSince := (getQueue u b q).gapSince }
    else getQueue w b q

/-- The row `i`, the arrival of command `f` of opcode `sp`, is answered in its step with outcome `o`, and but for what every
answered command changes the state is `w` afterwards. -/
def Answers (sp : CmdSpec) (i : Instr) (f : Frame) (s : State) (o : WorkOut) (w : State) : Prop :=
  ∃ u, exec i s = .next u ∧ Replied s u sp.opcode f o.status o.detail o.fields o.payload ∧ u = answeredAs u w ∧ PlacesKept f w u

/-! ### Rows whose work is followed by more, and rows of one parameter -/

/-- A command that completes with outcome `o` where its work left state `w`, with what follows its reply. -/
def finishAfter (sp : CmdSpec) (t : Nat) (f : Frame) (s w : State) (o : WorkOut) : State :=
  settled t f s (sp.after (complete (startedCmd sp t f s) o w) (startedCmd sp t f s))

/-- The operands of the rows that set one parameter. -/
structure SettingArgs where
  port  : Nat
  cls   : BitVec 2
  v64   : BitVec 64
  m64   : BitVec 64
  v128  : BitVec 128
  m128  : BitVec 128
  group : Nat
  on    : Bool
  value : BitVec 16
  key   : Nat
  pid   : Nat
  ones  : BitVec 4

/-- SET_PARAM and the rows that set one parameter, each with the SET_PARAM command that it is: the parameter's ID, its value and
its mask (Tables 2.7, 2.13, 11.3, 11.6, 12.11, 15.8 and 16.10). -/
def settingRows (x : SettingArgs) (t : Nat) (f : Frame) (s : State) : List (Instr × Frame) :=
  [ (.setParam t f, f),
    (.portClass t f x.port x.cls, setOne f (0x0020 + x.port) x.cls.toNat 3),
    (.nimoxTransport t f x.v64 x.m64, setOne f 0x0120 x.v64.toNat x.m64.toNat),
    (.berthShares t f x.v128 x.m128, setOne f 0x0701 x.v128.toNat x.m128.toNat),
    (.breakwater t f x.v128 x.m128, setOne f 0x0702 x.v128.toNat x.m128.toNat),
    (.hawserConfig t f x.v64 x.m64, setOne f 0x0800 x.v64.toNat x.m64.toNat),
    (.userWp t f x.group x.on, setOne f 0x0A01 (setBits s.regs.userWp.toNat x.group 1 (if x.on then 1 else 0)) 0xFF),
    (.floor t f x.value, setOne f 0x0B01 x.value.toNat 0xFFFF),
    (.revoke t f x.key, setOne f 0x0B01 (setBits s.regs.revoke.toNat x.key 1 1 * 2 ^ 24) (0xF * 2 ^ 24)),
    (.eventsClear t f x.pid x.ones, setOne f x.pid (x.ones.toNat * 2 ^ eventsAt x.pid) (0xF * 2 ^ eventsAt x.pid)) ]

/-- The BOLLARD rows, each with the BOLLARD command that it is (R317). -/
def bollardRows (t : Nat) (f : Frame) (n : Byte) (count : BitVec 16) : List (Instr × Frame) :=
  [ (.bollardRead t f n, bollardFrame f n 0 0), (.bollardGive t f n count, bollardFrame f n 1 count.toNat),
    (.bollardTake t f n count, bollardFrame f n 2 count.toNat), (.bollardSet t f n count, bollardFrame f n 3 count.toNat) ]

/-- A BRACE_ALERT on its urgent path passes every check that path makes (R31, R348). -/
def AlertArrives (t : Nat) (f : Frame) (s : State) : Prop :=
  Sound s ∧ portUp (setNow t s) f.port = true ∧ headerFault 0x0900 1 f = none ∧ f.urgent = true ∧ f.params.length + f.payload.length ≤ fragUnit s ∧
  f.berth = 0 ∧ f.queue = 0xFF ∧ (s.dev.state = .ready ∨ s.dev.state = .braced ∨ s.dev.state = .draining) ∧ 1 ≤ portClassOf s f.port ∧ alertCheck f = none

/-! ### What a storm can change -/

/-- `s` with what motion, alerts and peers can change as `u` has it: storm state, motion records, what is announced, the device
state, and the exit to P0. -/
def stormedAs (u s : State) : State :=
  { s with
    now := u.now, fresh := u.fresh, out := u.out, storm := u.storm, motionLog := u.motionLog, lastEvent := u.lastEvent, hawser := u.hawser
    dev := { s.dev with state := u.dev.state, prev := u.dev.prev, enteredAt := u.dev.enteredAt }
    power := { s.power with exitTo := u.power.exitTo }
    lb := { s.lb with braces := u.lb.braces, announceNo := u.lb.announceNo }
    media := { s.media with service := u.media.service }
    net := { s.net with ports := u.net.ports } }

/-! ### Hawser frames -/

/-- The row's frame is taken in order on a link that carries traffic, and neither acknowledges, returns credits nor lets anything
of this port go out. -/
def HawserTakes (r : HawserRx) (s : State) : Prop :=
  let f := readFrame r.bytes
  let h := hawserPort s r.port
  alive s = true ∧ r.port < 6 ∧ r.port < s.hawser.ports.length ∧ carries h.state = true ∧ r.fecOk = true ∧ frameCrcOk r.bytes = true ∧
    frameBad r.bytes = false ∧ isIdent f = false ∧ f.typ ≠ 0 ∧ h.rxNext.toNat = f.seqNo ∧ h.txq = [] ∧ h.replay = [] ∧ f.crCount = 0 ∧ f.nak = false

/-- The port with the corrections of a received frame counted. -/
def hawserHeard (t : Nat) (r : HawserRx) (s : State) : State :=
  modHawserPort r.port (fun h => { h with fecCorr := satAdd 32 h.fecCorr r.corrected }) (setNow t s)

/-- The port with the frame accepted and the credit of its buffer given back. -/
def hawserTaken (t : Nat) (r : HawserRx) (s : State) : State :=
  sendIdle r.port false (creditLane (readFrame r.bytes)) 1
    (modHawserPort r.port (fun h => { h with rxNext := h.rxNext + 1, nakDone := false }) (hawserHeard t r s))

/-! ### Rows that are one whole command -/

/-- A row that is the arrival of one command: its opcode's rules, the row, and the command that the row's frame becomes. -/
structure CmdRow where
  spec  : CmdSpec
  row   : Nat → Frame → Instr
  frame : Frame → Frame := fun f => f

/-- Commands whose work takes no time of its own: they are answered in the step in which they start. -/
def quickRows : List CmdRow :=
  [ ⟨cmdEcho, .echo, id⟩, ⟨cmdGetParam, .getParam, id⟩, ⟨cmdReadResult, .readResult, id⟩, ⟨cmdRelease, .release, id⟩,
    ⟨cmdQueueStatus, .queueStatus, id⟩, ⟨cmdQueueSet, .queueSet, id⟩, ⟨cmdDrain, .drain, id⟩, ⟨cmdReset, .reset, id⟩, ⟨cmdQpCreate, .qpCreate, id⟩,
    ⟨cmdQpDestroy, .qpDestroy, id⟩, ⟨cmdRegionRegister, .regionRegister, id⟩, ⟨cmdRegionDeregister, .regionDeregister, id⟩,
    ⟨cmdNsCreate, .nsCreate, id⟩, ⟨cmdNsDelete, .nsDelete, id⟩, ⟨cmdNsInfo, .nsInfo, id⟩, ⟨cmdHoldCreate, .holdCreate, id⟩,
    ⟨cmdHoldDelete, .holdDelete, id⟩, ⟨cmdHoldInfo, .holdInfo, id⟩, ⟨cmdRelocAck, .relocAck, id⟩ ] ++
  [ ⟨cmdPlanUnbind, .planUnbind, id⟩, ⟨cmdPlanDelete, .planDelete, id⟩, ⟨cmdPlanInfo, .planInfo, id⟩, ⟨cmdPlanEstimate, .planEstimate, id⟩,
    ⟨cmdContextClear, .contextClear, id⟩, ⟨cmdAdaptReset, .adaptReset, id⟩, ⟨cmdIndexDelete, .indexDelete, id⟩, ⟨cmdIndexInfo, .indexInfo, id⟩,
    ⟨cmdVaultCreate, .vaultCreate, id⟩, ⟨cmdVaultDelete, .vaultDelete, id⟩, ⟨cmdVaultInfo, .vaultInfo, id⟩, ⟨cmdVaultPlan, .vaultPlan, id⟩,
    ⟨cmdVaultBegin, .vaultBegin, id⟩, ⟨cmdVaultCancel, .vaultCancel, id⟩, ⟨cmdVaultKeep, .vaultKeep, id⟩, ⟨cmdVaultDrop, .vaultDrop, id⟩,
    ⟨cmdReplAccept, .replAccept, id⟩, ⟨cmdReplSet, .replSet, id⟩ ] ++
  [ ⟨cmdBerthCreate, .berthCreate, id⟩, ⟨cmdBerthRelease, .berthRelease, id⟩, ⟨cmdBerthSuspend, .berthSuspend, id⟩, ⟨cmdBerthResume, .berthResume, id⟩,
    ⟨cmdBerthInfo, .berthInfo, id⟩, ⟨cmdTideLoad, .tideLoad, id⟩, ⟨cmdTideRead, .tideRead, id⟩, ⟨cmdMailSend, .mailSend, id⟩,
    ⟨cmdMailRecv, .mailRecv, id⟩, ⟨cmdHawserInfo, .hawserInfo, id⟩, ⟨cmdHawserRetrain, .hawserRetrain, id⟩, ⟨cmdLogbookInfo, .logbookInfo, id⟩,
    ⟨cmdLogbookSettings, .logbookSettings, id⟩, ⟨cmdFwInfo, .fwInfo, id⟩, ⟨cmdFwCommit, .fwCommit, id⟩, ⟨cmdIdentity, .identity, id⟩ ]

/-- Result-producing commands whose work takes time: accepted now, their outcome read later (R47). -/
def resultRows : List CmdRow :=
  [ ⟨cmdHoldSeal, .holdSeal, id⟩, ⟨cmdHoldMap, .holdMap, id⟩, ⟨cmdRelocList, .relocList, id⟩, ⟨cmdPlanRun, .planRun, id⟩,
    ⟨cmdAdaptStep, .adaptStep, id⟩, ⟨cmdAdaptExport, .adaptExport, id⟩, ⟨cmdIndexInsert, .indexInsert, id⟩, ⟨cmdIndexRemove, .indexRemove, id⟩,
    ⟨cmdIndexSearch, .indexSearch, id⟩, ⟨cmdIndexRebalance, .indexRebalance, id⟩, ⟨cmdSelectTopk, .selectTopk, id⟩,
    ⟨cmdSelectMerge, .selectMerge, id⟩ ] ++
  [ ⟨cmdVaultCommit, .vaultCommit, id⟩, ⟨cmdVaultManifest, .vaultManifest, id⟩, ⟨cmdVaultRestore, .vaultRestore, id⟩,
    ⟨cmdVaultVerify, .vaultVerify, id⟩, ⟨cmdVaultConsolidate, .vaultConsolidate, id⟩, ⟨cmdMotionWaveform, .motionWaveform, id⟩,
    ⟨cmdFwStage, .fwStage, id⟩, ⟨cmdCollective, .allReduce, fun f => { f with params := putBytes f.params 0 [1] }⟩,
    ⟨cmdCollective, .allGather, fun f => { f with params := putBytes f.params 0 [2] }⟩ ]

/-- Result-producing commands whose outcome is stored in the step in which they start. -/
def storedRows : List CmdRow :=
  [ ⟨cmdVaultList, .vaultList, id⟩, ⟨cmdFleetMap, .fleetMap, id⟩, ⟨cmdMotionEvents, .motionEvents, id⟩ ]

/-- Commands that are not result-producing and whose work takes time: they are answered when it ends. -/
def slowRows : List CmdRow :=
  [ ⟨cmdNsRead, .nsRead, id⟩, ⟨cmdHoldWrite, .holdWrite, id⟩, ⟨cmdHoldRead, .holdRead, id⟩, ⟨cmdPlanLoad, .planLoad, id⟩,
    ⟨cmdPlanBind, .planBind, id⟩, ⟨cmdIndexCreate, .indexCreate, id⟩, ⟨cmdLogbookRead, .logbookRead, id⟩,
    ⟨cmdLogbookErase, .logbookErase, id⟩, ⟨cmdFwActivate, .fwActivate, id⟩, ⟨cmdAttest, .attest, id⟩ ]

end Sys2Proof.Machine
end

