-- ==== Sys2Proof/Certificates/Slice0/Obligations.lean ====
section
/-! DEFINITION. The statements for the provers. -/

open Sys2Proof Sys2Proof.Machine

/-! ### The step -/

/-- Step takes the command at the front of the queue and runs it on the state with the queue's rest. -/
def Obligations.StepRunsTheFrontCommand : Prop :=
  ∀ (c : Instr) (cs : List Instr) (s : State), step { s with pending := c :: cs } = exec c { s with pending := cs }

/-- The state after reset meets the invariant. -/
def Obligations.SoundAtReset : Prop := Sound State.reset

/-- Every step keeps the invariant. -/
def Obligations.SoundIsKept : Prop := ∀ s u : State, Sound s → step s = .next u → Sound u

/-- A step takes exactly the command at the front of the queue, never turns local time back, and leaves what the factory
fixed. -/
def Obligations.StepConsumesOneCommand : Prop :=
  ∀ s u : State, step s = .next u → u.pending = s.pending.tail ∧ s.now ≤ u.now ∧ u.fixed = s.fixed

/-! ### From arrival to acceptance, refusal and completion -/

/-- A command that a check of steps 5 to 13 refuses gets exactly that refusal as its reply, and the step changes nothing but
local time, what is sent, the counters and the sequence of its port, berth and queue. -/
def Obligations.RefusedCommandHasNoSideEffect : Prop :=
  ∀ r ∈ quickRows ++ resultRows ++ storedRows ++ slowRows, ∀ (t : Nat) (f : Frame) (s : State) (x : Refuse),
    Arrives r.spec.opcode t (r.frame f) s → InOrder t (r.frame f) s → admissionChecks r.spec (atAdmission t (r.frame f) s) (r.frame f) = some x →
    ∃ u, exec (r.row t f) s = .next u ∧ Replied s u r.spec.opcode (r.frame f) x.1 x.2 [] [] ∧
      u = { s with now := u.now, out := u.out, net := u.net, berths := u.berths } ∧
      ∀ b, (getBerth u b).regs = (getBerth s b).regs ∧ (getBerth u b).state = (getBerth s b).state ∧
        (getBerth u b).bollards = (getBerth s b).bollards ∧ (getBerth u b).inbox = (getBerth s b).inbox

/-- The berth's slots in states PENDING, READY and DISCARD count against the 4,096: with all of them taken a further result-producing
command is refused. One whose TAG names a slot of the berth that is not FREE is answered STATE_CONFLICT with detail OBJECT_STATE,
kind 0x01 and the TAG, and takes nothing. -/
def Obligations.UsedTagsAreRefused : Prop :=
  ∀ r ∈ resultRows ++ storedRows, ∀ (t : Nat) (f : Frame) (s : State),
    Arrives r.spec.opcode t (r.frame f) s → InOrder t (r.frame f) s → PassesToSlots r.spec (atAdmission t (r.frame f) s) (r.frame f) →
    (∀ sl, getSlot s f.berth f.tag = some sl → ∃ u k, exec (r.row t f) s = .next u ∧
      Replied s u r.spec.opcode (r.frame f) stStateConflict (.objectState 1 f.tag.toNat k) [] [] ∧ u.cmds = s.cmds) ∧
    (getSlot s f.berth f.tag = none → s.dev.state ≠ .dryDock →
      (f.queue = 0xFF ∨ (s.cmds.active.filter (fun a => a.frame.berth == f.berth && a.frame.queue == f.queue)).length < 256) →
      4096 ≤ (s.cmds.slots.filter (fun x => x.berth == f.berth && (x.state == .pending || x.state == .ready || x.state == .discard))).length →
      ∃ u, exec (r.row t f) s = .next u ∧ Replied s u r.spec.opcode (r.frame f) stNoResource (.resource 3 0 1) [] [] ∧ u.cmds = s.cmds)

/-- A command whose work takes no time of its own, that every check lets pass and nothing holds back, is answered in the
same step: its work is done on the state in which it runs, and it completes with the outcome of that work. -/
def Obligations.QuickCommandsComplete : Prop :=
  ∀ r ∈ quickRows, ∀ (t : Nat) (f : Frame) (s : State),
    Starts r.spec t f s → Unhurt r.spec t f s →
    exec (r.row t f) s = .next (finish r.spec t f s
      (r.spec.work (running r.spec t f s) (startedCmd r.spec t f s)).1 (r.spec.work (running r.spec t f s) (startedCmd r.spec t f s)).2)

/-- What completing a command changes. The reply goes out with the outcome's status, detail, fields and payload, the command
is no longer accepted, and outside a drain everything but what is sent, the ports and queues, the power timers, the berths'
use counters and the command's own hawser work stays as its work left it. -/
def Obligations.CompletionRepliesAndFrees : Prop :=
  ∀ (sp : CmdSpec) (t : Nat) (f : Frame) (s w : State) (o : WorkOut),
    sp.result = false → w.dev.drain = none → o.status ≠ stMediaUe →
    (portUp w f.port = true → Replied w (finish sp t f s w o) sp.opcode f o.status o.detail o.fields o.payload) ∧
    (finish sp t f s w o).cmds = { w.cmds with active := w.cmds.active.filter (fun a => a.id != s.cmds.nextId) } ∧
    finish sp t f s w o = { w with
      cmds := (finish sp t f s w o).cmds, out := (finish sp t f s w o).out, net := (finish sp t f s w o).net, power := (finish sp t f s w o).power,
      berths := (finish sp t f s w o).berths, fresh := (finish sp t f s w o).fresh, hawser := (finish sp t f s w o).hawser } ∧
    ∀ b, (getBerth (finish sp t f s w o) b).regs = (getBerth w b).regs ∧ (getBerth (finish sp t f s w o) b).state = (getBerth w b).state ∧
      (getBerth (finish sp t f s w o) b).bollards = (getBerth w b).bollards ∧ (getBerth (finish sp t f s w o) b).inbox = (getBerth w b).inbox

/-- A result-producing command that every check lets pass is accepted: it takes a PENDING slot and its result memory, it is
answered OK with detail ACCEPTED naming the slot, the size reserved and the acceptance time, and its work goes on. One whose
work takes no time stores its outcome in the step in which it starts: its slot is READY with the status block and the body. -/
def Obligations.ResultCommandsComplete : Prop :=
  (∀ r ∈ resultRows, ∀ (t : Nat) (f : Frame) (s : State), Accepted r.spec t (r.frame f) s →
    ∃ u, exec (r.row t f) s = .next u ∧
      getSlot u f.berth f.tag = some (newSlot r.spec (r.frame f) (atAdmission t (r.frame f) s)) ∧
      Replied s u r.spec.opcode f stOk (.accepted (freeSlotIndex (atAdmission t (r.frame f) s) f.berth)
        (32 + r.spec.size (atAdmission t (r.frame f) s) (r.frame f)) (ptpNow (atAdmission t (r.frame f) s))) [] [] ∧
      u.cmds.nextId = s.cmds.nextId + 1 ∧
      ∃ a ∈ u.cmds.active, a.id = s.cmds.nextId ∧ a.opcode = r.spec.opcode ∧ a.frame = r.frame f ∧ a.result = true) ∧
  (∀ r ∈ storedRows, ∀ (t : Nat) (f : Frame) (s : State), Starts r.spec t f s →
    ∃ u sl, exec (r.row t f) s = .next u ∧
      Replied s u r.spec.opcode f stOk (.accepted (freeSlotIndex (atAdmission t f s) f.berth) (32 + r.spec.size (atAdmission t f s) f)
        (ptpNow (atAdmission t f s))) [] [] ∧
      getSlot u f.berth f.tag = some sl ∧ sl.state = .ready ∧ sl.reserved = sl.outcome.length ∧
      sl.outcome.drop 32 = (r.spec.work (running r.spec t f s) (startedCmd r.spec t f s)).2.payload)

/-- A command that is not result-producing and whose work takes time is accepted and runs: it is in PHASE 3, and no reply to
it has been sent. -/
def Obligations.SlowCommandsRun : Prop :=
  ∀ r ∈ slowRows, ∀ (t : Nat) (f : Frame) (s : State), Starts r.spec t f s →
    ∃ u, exec (r.row t f) s = .next u ∧ u.cmds.nextId = s.cmds.nextId + 1 ∧
      (∃ a ∈ u.cmds.active, a.id = s.cmds.nextId ∧ a.opcode = r.spec.opcode ∧ a.frame = f ∧ a.phase = 3) ∧
      ∀ p ip udp n y, Output.reply p ip udp n y ∈ u.out → Output.reply p ip udp n y ∈ s.out

/-! ### Commands by family -/

/-- ECHO returns its payload; READ_RESULT of a READY slot returns the outcome's length and the bytes asked for, of a PENDING
slot NOT_READY, and of no slot RESULT_GONE; RELEASE frees a READY slot and makes a PENDING one DISCARD; QUEUE_STATUS tells
what its queue expects, QUEUE_SET sets NOTIFY of the queue it names, and GET_PARAM returns one record for each ID in the order
asked. None of them changes anything else. -/
def Obligations.DeviceCommandsComplete : Prop :=
  ∀ (t : Nat) (f : Frame) (s : State), s.dev.drain = none →
    (Starts cmdEcho t f s → Answers cmdEcho (.echo t f) f s (okOut [] f.payload) s) ∧
    (Starts cmdReadResult t f s → getSlot s f.berth (rtag f) = none →
      Answers cmdReadResult (.readResult t f) f s { status := stResultGone, detail := .none } s) ∧
    (∀ sl, Starts cmdReadResult t f s → getSlot s f.berth (rtag f) = some sl → sl.state = .ready → s.mem.poisoned = [] →
      Answers cmdReadResult (.readResult t f) f s (okOut (toLE 8 sl.outcome.length ++ toLE 8 (par f 8 8)) (slice sl.outcome (par f 8 8) (par f 16 4))) s) ∧
    (∀ sl, Starts cmdReadResult t f s → getSlot s f.berth (rtag f) = some sl → sl.state = .pending →
      ∃ p ph el act, act.map (fun a => { a with progress := 0 }) = s.cmds.active.map (fun a => { a with progress := 0 }) ∧
        Answers cmdReadResult (.readResult t f) f s { status := stNotReady, detail := .progress p ph el } { s with cmds := { s.cmds with active := act } }) ∧
    (∀ sl, Starts cmdRelease t f s → getSlot s f.berth (rtag f) = some sl → sl.state = .ready →
      Answers cmdRelease (.release t f) f s (okOut [] [])
        { s with cmds := { s.cmds with slots := s.cmds.slots.filter (fun x => !(x.berth == f.berth && x.tag == rtag f)) } }) ∧
    (∀ sl, Starts cmdRelease t f s → getSlot s f.berth (rtag f) = some sl → sl.state = .pending →
      Answers cmdRelease (.release t f) f s (okOut [] []) { s with cmds := { s.cmds with
        slots := s.cmds.slots.map (fun x => if x.berth == f.berth && x.tag == rtag f then { x with state := .discard } else x) } }) ∧
    (∀ sl, Starts cmdRelease t f s → getSlot s f.berth (rtag f) = some sl → sl.state = .discard →
      Answers cmdRelease (.release t f) f s { status := stResultGone, detail := .none } s) ∧
    (Starts cmdQueueStatus t f s →
      let q := getQueue (running cmdQueueStatus t f s) f.berth (par f 0 1)
      Answers cmdQueueStatus (.queueStatus t f) f s
        (okOut (toLE 4 q.expected.toNat ++ toLE 2 (s.cmds.active.filter (fun a => a.frame.berth == f.berth && a.frame.queue == par f 0 1)).length
          ++ toLE 2 q.held.length ++ toLE 1 (if q.notify then 1 else 0) ++ zeros 1 ++ toLE 2 (slotsOf s f.berth).length ++ zeros 4) []) s) ∧
    (Starts cmdQueueSet t f s →
      Answers cmdQueueSet (.queueSet t f) f s (okOut [] []) (setQueue { getQueue s f.berth (par f 0 1) with notify := par f 1 1 == 1 } s)) ∧
    (Starts cmdGetParam t f s →
      Answers cmdGetParam (.getParam t f) f s (okOut [] ((getIds f).flatMap (paramRecord (running cmdGetParam t f s) f.berth))) s)

/-- QP_CREATE adds a queue pair in RTS on its port for the header's berth, with a number no other has; QP_DESTROY removes the
one it names. REGION_REGISTER adds a region with the range and rights asked for; REGION_DEREGISTER removes it. -/
def Obligations.RdmaObjectCommandsComplete : Prop :=
  ∀ (t : Nat) (f : Frame) (s : State), s.dev.drain = none →
    (Starts cmdQpCreate t f s → ∃ q, q.state = .rts ∧ q.berth = f.berth ∧ q.port = par f 0 1 ∧ q.remoteQpn = BitVec.ofNat 24 (par f 4 3) ∧
      q.recvPsn = BitVec.ofNat 24 (par f 8 3) ∧ q.remoteGid = BitVec.ofNat 128 (par f 16 16) ∧
      Answers cmdQpCreate (.qpCreate t f) f s (okOut (toLE 4 q.qpn.toNat ++ toLE 4 q.sendPsn.toNat ++ toLE 16 q.localGid.toNat) [])
        { s with rdma := { s.rdma with qps := s.rdma.qps ++ [q] } }) ∧
    (Starts cmdQpDestroy t f s → Answers cmdQpDestroy (.qpDestroy t f) f s (okOut [] [])
      { s with rdma := { s.rdma with qps := s.rdma.qps.filter (fun q => q.qpn != BitVec.ofNat 24 (par f 0 4)) } }) ∧
    (Starts cmdRegionRegister t f s → ∃ r gens, r.berth = f.berth ∧ r.offset = par f 0 8 ∧ r.length = par f 8 8 ∧
      r.canWrite = (bits (par f 16 1) 0 1 == 1) ∧ r.canRead = (bits (par f 16 1) 1 1 == 1) ∧
      Answers cmdRegionRegister (.regionRegister t f) f s (okOut (toLE 4 r.rkey.toNat ++ zeros 4) [])
        { s with rdma := { s.rdma with regions := s.rdma.regions ++ [r], gens := gens } }) ∧
    (Starts cmdRegionDeregister t f s → Answers cmdRegionDeregister (.regionDeregister t f) f s (okOut [] [])
      { s with rdma := { s.rdma with regions := s.rdma.regions.filter (fun r => r.rkey != BitVec.ofNat 32 (par f 0 4)) } })

/-- NS_CREATE adds an ONLINE namespace of the header's berth with a number above every earlier one, all of whose blocks are
unwritten; NS_DELETE removes the namespace and what waits for it in the buffer (freed space may end WORN); NS_INFO changes
nothing; an NS_FLUSH with nothing pending completes at once. -/
def Obligations.NamespaceCommandsComplete : Prop :=
  ∀ (t : Nat) (f : Frame) (s : State), s.dev.drain = none →
    (Starts cmdNsCreate t f s → ∃ n, s.media.lastNsid < n.nsid ∧ n.berth = f.berth ∧ n.blocks = par f 0 8 ∧ n.forward = (par f 8 1 == 1) ∧
      n.state = .online ∧ n.data = [] ∧
      Answers cmdNsCreate (.nsCreate t f) f s (okOut (toLE 4 n.nsid) []) { s with media := { s.media with nss := s.media.nss ++ [n], lastNsid := n.nsid } }) ∧
    (Starts cmdNsDelete t f s → Answers cmdNsDelete (.nsDelete t f) f s (okOut [] [])
      (wornUpdate { s with media := { s.media with nss := s.media.nss.filter (fun n => n.nsid != par f 0 4) },
                           eng := { s.eng with wbuf := s.eng.wbuf.filter (fun e => e.nsid != par f 0 4) } })) ∧
    (∀ n, Starts cmdNsInfo t f s → nsNamed s f = some n → Answers cmdNsInfo (.nsInfo t f) f s
      (okOut (toLE 8 n.blocks ++ toLE 8 (mappedNow s n) ++ toLE 2 n.state.code ++ toLE 1 (if n.forward then 1 else 0) ++ toLE 1 n.berth ++ zeros 4) []) s) ∧
    (Starts cmdNsFlush t f s → (∀ e ∈ s.eng.wbuf, e.nsid ≠ par f 0 4) → (∀ a ∈ s.cmds.active, a.lock = none) →
      Answers cmdNsFlush (.nsFlush t f) f s { status := stOk, detail := .none } s)

/-- An NS_WRITE whose data lies in its payload and for which the buffer has room enters the buffer at once, block by block,
and an NS_DISCARD enters it as unwritten blocks; a later one of the same block replaces what waited. Nothing on media
changes in that step. -/
def Obligations.WritesEnterTheProtectedBuffer : Prop :=
  ∀ (t : Nat) (f : Frame) (s : State),
    (Starts cmdNsWrite t f s → Unhurt cmdNsWrite t f s → (parRef f 24).kind = 1 →
      bufRoom (running cmdNsWrite t f s) (par f 0 4) (par f 8 8) (par f 16 4) = true →
      ∃ u, exec (.nsWrite t f) s = .next u ∧ u.media = s.media ∧
        u.eng.wbuf = (bufPush (dataEntries (par f 0 4) s.cmds.nextId (par f 16 4) (par f 8 8) (slice f.payload (parRef f 24).offset (parRef f 24).length))
          (running cmdNsWrite t f s)).eng.wbuf) ∧
    (Starts cmdNsDiscard t f s → bufRoom (running cmdNsDiscard t f s) (par f 0 4) (par f 8 8) 0 = true →
      ∃ u, exec (.nsDiscard t f) s = .next u ∧ u.media = s.media ∧
        u.eng.wbuf = (bufPush (discardEntries (par f 0 4) s.cmds.nextId (par f 8 8) (par f 16 4)) (running cmdNsDiscard t f s)).eng.wbuf)

/-- HOLD_CREATE adds an OPEN hold of the size and quay asked for with nothing written, under an ID above every earlier one;
HOLD_DELETE removes the hold and its forwarding entries and leaves its superblocks to dredging; HOLD_INFO changes nothing;
RELOC_ACK removes the entry of the hold and token it names. -/
def Obligations.HoldCommandsComplete : Prop :=
  ∀ (t : Nat) (f : Frame) (s : State), s.dev.drain = none →
    (Starts cmdHoldCreate t f s → ∃ h m, s.media.lastHold < h.id ∧ h.berth = f.berth ∧ h.quay = par f 8 1 ∧ h.size = par f 0 8 ∧ h.written = 0 ∧
      h.isSealed = false ∧ h.alloc = holdStripes s (par f 8 1) (par f 0 8) * stripeBytes (quayNarrow s (par f 8 1)) ∧
      Answers cmdHoldCreate (.holdCreate t f) f s (okOut (toLE 4 h.id) [])
        { s with media := { s.media with holds := s.media.holds ++ [h], lastHold := h.id, quays := m } }) ∧
    (∀ h, Starts cmdHoldDelete t f s → holdNamed s f = some h → Answers cmdHoldDelete (.holdDelete t f) f s (okOut [] [])
      (wornUpdate { s with media := { s.media with
        quays := (markDeleted h.quay h.runs s).media.quays, holds := s.media.holds.filter (fun x => x.id != h.id),
        fwds := s.media.fwds.filter (fun x => x.hold != h.id) } })) ∧
    (∀ h, Starts cmdHoldInfo t f s → holdNamed s f = some h → Answers cmdHoldInfo (.holdInfo t f) f s
      (okOut (toLE 8 h.size ++ toLE 8 h.written ++ toLE 2 (holdCode h) ++ toLE 1 h.quay ++ toLE 1 h.berth ++ toLE 4 h.runs.length) []) s) ∧
    (Starts cmdRelocAck t f s → Answers cmdRelocAck (.relocAck t f) f s (okOut [] []) { s with media := { s.media with
      fwds := s.media.fwds.filter (fun x => !(x.hold == par f 0 4 && x.oldToken == BitVec.ofNat 64 (par f 8 8))) } })

/-- PLAN_UNBIND frees the plan's memory, contexts and counters and leaves it LOADED; PLAN_DELETE removes it; PLAN_INFO and
PLAN_ESTIMATE change nothing; CONTEXT_CLEAR sets the length of each context named to 0 and of no other; ADAPT_RESET puts
every adapter back to its starting values. -/
def Obligations.PlanCommandsComplete : Prop :=
  ∀ (t : Nat) (f : Frame) (s : State), s.dev.drain = none →
    (Starts cmdPlanUnbind t f s → Answers cmdPlanUnbind (.planUnbind t f) f s (okOut [] [])
      (modPlan (par f 0 4) (fun p => { p with state := .loaded, mem := [], bindings := [], peers := [], steps := 0, copy := 0,
                                              lengths := List.replicate (imgContexts p.image) 0 }) s)) ∧
    (Starts cmdPlanDelete t f s → Answers cmdPlanDelete (.planDelete t f) f s (okOut [] []) { s with plans := s.plans.filter (fun p => p.id != par f 0 4) }) ∧
    (∀ p, Starts cmdPlanInfo t f s → planNamed s f = some p → ∃ rest,
      Answers cmdPlanInfo (.planInfo t f) f s (okOut (toLE 2 p.state.code ++ toLE 1 (imgParts p.image) ++ toLE 1 (imgPart p.image) ++ rest) []) s) ∧
    (∀ p, Starts cmdPlanEstimate t f s → planNamed s f = some p → ∃ terms,
      Answers cmdPlanEstimate (.planEstimate t f) f s (okOut (estBody terms (par f 8 4)) []) s) ∧
    (Starts cmdContextClear t f s → Answers cmdContextClear (.contextClear t f) f s (okOut [] [])
      (modPlan (par f 0 4) (fun p => { p with lengths := p.lengths.zipIdx.map (fun x => if par f 4 2 ≤ x.2 ∧ x.2 < par f 4 2 + par f 6 2 then 0 else x.1) }) s)) ∧
    (Starts cmdAdaptReset t f s → Answers cmdAdaptReset (.adaptReset t f) f s (okOut [] [])
      (modPlan (par f 0 4) (fun p => { p with mem := (adaptersAll p.image).foldl (adReset p.image) p.mem, copy := 0 }) s))

/-- INDEX_DELETE removes the index (freed space may end WORN); INDEX_INFO tells its state, shape and counts. -/
def Obligations.IndexObjectCommandsComplete : Prop :=
  ∀ (t : Nat) (f : Frame) (s : State), s.dev.drain = none →
    (Starts cmdIndexDelete t f s → Answers cmdIndexDelete (.indexDelete t f) f s (okOut [] [])
      (wornUpdate { s with indexes := s.indexes.filter (fun x => x.id != par f 0 4) })) ∧
    (∀ x, Starts cmdIndexInfo t f s → indexNamed (settleIndex (par f 0 4) s) f = some x → ∃ rest,
      Answers cmdIndexInfo (.indexInfo t f) f s
        (okOut (toLE 2 x.state.code ++ toLE 1 x.metric ++ toLE 1 x.codeBits ++ toLE 4 x.dim
          ++ toLE 4 (x.nodes.filter (fun n => n.state == .live)).length ++ toLE 4 (x.nodes.filter (fun n => n.state == .retired)).length
          ++ toLE 8 (x.items.filter (fun i => i.visible x.epoch)).length ++ toLE 8 x.epoch ++ rest) [])
        (settleIndex (par f 0 4) s))

/-- VAULT_CREATE gives the berth a vault of the sizes asked for; VAULT_DELETE removes it; VAULT_INFO and VAULT_PLAN change
nothing; VAULT_BEGIN opens a checkpoint with an intake region; VAULT_CANCEL and VAULT_DROP retire one and drop its region;
VAULT_KEEP sets its KEEP mark. -/
def Obligations.VaultCommandsComplete : Prop :=
  ∀ (t : Nat) (f : Frame) (s : State), s.dev.drain = none →
    (Starts cmdVaultCreate t f s → ∃ v, v.berth = f.berth ∧ v.pslc = par f 0 8 ∧ v.tlc = par f 8 8 ∧ v.staging = par f 16 8 ∧ v.ckpts = [] ∧
      v.consAt = ptpNow (setNow t s) ∧
      Answers cmdVaultCreate (.vaultCreate t f) f s (okOut (toLE 4 (ceilDiv (par f 8 8 + 3 * par f 0 8) (2 ^ 30))) []) { s with vaults := s.vaults ++ [v] }) ∧
    (Starts cmdVaultDelete t f s → Answers cmdVaultDelete (.vaultDelete t f) f s (okOut [] [])
      (wornUpdate { s with vaults := s.vaults.filter (fun v => v.berth != f.berth) })) ∧
    (∀ v, Starts cmdVaultInfo t f s → getVault s f.berth = some v → ∃ rest, Answers cmdVaultInfo (.vaultInfo t f) f s
      (okOut (toLE 8 v.pslc ++ toLE 8 (pslcUsed s v) ++ toLE 8 v.tlc ++ toLE 8 (tlcUsed v) ++ toLE 8 v.staging ++ rest) []) s) ∧
    (Starts cmdVaultPlan t f s → ∃ fl, fl.length = 72 ∧ Answers cmdVaultPlan (.vaultPlan t f) f s (okOut fl []) s) ∧
    (∀ v, Starts cmdVaultBegin t f s → Unhurt cmdVaultBegin t f s → getVault s f.berth = some v → ∃ c rg gens,
      v.lastId < c.id ∧ c.step = par f 0 8 ∧ c.state = .openC ∧ c.rkey = rg.rkey ∧ rg.berth = f.berth ∧ rg.owner = .intake c.id ∧
      rg.canWrite = true ∧ rg.canRead = false ∧ rg.length = regionBytes c.tensors ∧
      Answers cmdVaultBegin (.vaultBegin t f) f s
        (okOut (toLE 4 c.id ++ toLE 4 rg.rkey.toNat ++ toLE 8 (regionBytes c.tensors) ++ toLE 8 (storeBytes (declsOf (running cmdVaultBegin t f s) f)))
          (c.tensors.flatMap tensorRecord))
        { s with
          vaults := (modVault f.berth (fun x => { x with ckpts := x.ckpts ++ [c], lastId := c.id, lastBegin := some (par f 0 8, ptpNow (setNow t s)), dueSent := false }) s).vaults
          rdma := { s.rdma with regions := s.rdma.regions ++ [rg], gens := gens } }) ∧
    (∀ c, Starts cmdVaultCancel t f s → ckptNamed s f = some c → Answers cmdVaultCancel (.vaultCancel t f) f s (okOut [] [])
      (modVault f.berth (fun v => ((v.modCkpt c.id (fun c => { c with deferred := s.dev.state == .braced })).retire c.id).gc (s.dev.state == .braced))
        (dropRegion c.rkey s))) ∧
    (Starts cmdVaultKeep t f s → Answers cmdVaultKeep (.vaultKeep t f) f s (okOut [] [])
      (modCkpt f.berth (par f 0 4) (fun c => { c with kept := par f 4 1 == 1 }) s)) ∧
    (∀ c, Starts cmdVaultDrop t f s → ckptNamed s f = some c → Answers cmdVaultDrop (.vaultDrop t f) f s (okOut [] [])
      (modVault f.berth (fun v => (v.retire c.id).gc false) (dropRegion c.rkey s)))

/-- REPL_ACCEPT with QPN 0 ends the berth's replica stream, and with a queue pair gives it a window of the berth's SRAM;
REPL_SET with QPN 0 ends the berth's own stream and unpins its checkpoints, and with a queue pair sets where it replicates
to. Only vaults and RDMA state change. -/
def Obligations.ReplicationCommandsComplete : Prop :=
  ∀ (t : Nat) (f : Frame) (s : State) (v : Vault), s.dev.drain = none → getVault s f.berth = some v →
    (Starts cmdReplAccept t f s → par f 0 4 = 0 → v.recv = none → Answers cmdReplAccept (.replAccept t f) f s (okOut (zeros 4) []) s) ∧
    (∀ r, Starts cmdReplAccept t f s → par f 0 4 = 0 → v.recv = some r → Answers cmdReplAccept (.replAccept t f) f s (okOut (zeros 4) [])
      (modVault f.berth (fun v => { v with recv := none }) (dropSide r.rkey s))) ∧
    (Starts cmdReplAccept t f s → par f 0 4 ≠ 0 → v.recv = none → ∃ rg gens, rg.berth = f.berth ∧ rg.length = 65536 + par f 8 8 ∧ rg.owner = .replica ∧
      Answers cmdReplAccept (.replAccept t f) f s (okOut (toLE 4 rg.rkey.toNat) [])
        (modVault f.berth (fun v => { v with recv := some { qpn := BitVec.ofNat 24 (par f 0 4), altQpn := BitVec.ofNat 24 (par f 4 4),
                                                            window := par f 8 8, rkey := rg.rkey } })
          { s with rdma := { s.rdma with regions := s.rdma.regions ++ [rg], gens := gens } })) ∧
    (Starts cmdReplSet t f s → par f 0 4 = 0 → v.send.state = .off → Answers cmdReplSet (.replSet t f) f s (okOut [] []) s) ∧
    (Starts cmdReplSet t f s → par f 0 4 = 0 → v.send.state ≠ .off → Answers cmdReplSet (.replSet t f) f s (okOut [] [])
      (modVault f.berth (fun v => { v with send := { v.send with state := .off, current := none, retryAt := none },
                                           ckpts := v.ckpts.map (fun c => { c with pinned := false }) }) (dropSide v.send.ackRkey s))) ∧
    (Starts cmdReplSet t f s → par f 0 4 ≠ 0 → ∃ u v', exec (.replSet t f) s = .next u ∧ Replied s u 0x0611 f stOk .none [] [] ∧
      getVault u f.berth = some v' ∧ v'.send.qpn = BitVec.ofNat 24 (par f 0 4) ∧ v'.send.altQpn = BitVec.ofNat 24 (par f 4 4) ∧
      v'.send.peerRkey = BitVec.ofNat 32 (par f 8 4) ∧ v'.send.window = par f 16 8 ∧ v'.send.state ≠ .off ∧
      u = { answeredAs u s with vaults := u.vaults, rdma := u.rdma } ∧ PlacesKept f s u)

/-- BERTH_CREATE moors a FREE berth with the shares asked for, an open breakwater and every other parameter at its reset
value; BERTH_RELEASE frees it; both reset its queues. BERTH_SUSPEND and BERTH_RESUME change only its state, BERTH_INFO
nothing. -/
def Obligations.BerthCommandsComplete : Prop :=
  ∀ (t : Nat) (f : Frame) (s : State), s.dev.drain = none →
    (Starts cmdBerthCreate t f s → Answers cmdBerthCreate (.berthCreate t f) f s (okOut [] [])
      (resetQueues (par f 0 1) (modBerth (par f 0 1)
        (fun _ => { state := .moored, regs := { shares := BitVec.ofNat 128 (par f 8 16), breakwater := openBreakwater } }) s))) ∧
    (Starts cmdBerthRelease t f s → Answers cmdBerthRelease (.berthRelease t f) f s (okOut [] [])
      (resetQueues (par f 0 1) (modBerth (par f 0 1) (fun _ => {}) s))) ∧
    (Starts cmdBerthSuspend t f s → Answers cmdBerthSuspend (.berthSuspend t f) f s (okOut [] []) (modBerth (par f 0 1) (fun b => { b with state := .suspended }) s)) ∧
    (Starts cmdBerthResume t f s → Answers cmdBerthResume (.berthResume t f) f s (okOut [] []) (modBerth (par f 0 1) (fun b => { b with state := .moored }) s)) ∧
    (Starts cmdBerthInfo t f s → ∃ rest, rest.length = 28 ∧ Answers cmdBerthInfo (.berthInfo t f) f s
      (okOut (toLE 1 (getBerth s (par f 0 1)).state.code ++ zeros 7 ++ toLE 16 (getBerth s (par f 0 1)).regs.shares.toNat ++ rest) []) s)

/-- MAIL_SEND appends one message to the inbox of a berth that is not FREE and has room; MAIL_RECV returns the oldest
messages of the header's berth, as many as it asks for, and removes them. -/
def Obligations.MailCommandsComplete : Prop :=
  ∀ (t : Nat) (f : Frame) (s : State), s.dev.drain = none →
    (Starts cmdMailSend t f s → Answers cmdMailSend (.mailSend t f) f s (okOut [] [])
      (modBerth (par f 0 1) (fun b => { b with mailSeq := b.mailSeq + 1, inbox := b.inbox ++
        [{ sender := f.berth, seqNo := (getBerth s (par f 0 1)).mailSeq + 1, time := ptpNow (setNow t s), body := f.payload }] }) s)) ∧
    (Starts cmdMailRecv t f s →
      let box := (getBerth s f.berth).inbox
      let got := box.take (par f 0 1)
      Answers cmdMailRecv (.mailRecv t f) f s (okOut (toLE 2 got.length ++ toLE 2 (box.length - got.length)) (got.flatMap mailRecord))
        (modBerth f.berth (fun x => { x with inbox := x.inbox.drop got.length }) s))

/-- TIDE_LOAD makes its table pending, to switch at the first cycle start not earlier than the time it names and than 1 ms
from now; TIDE_READ returns the active or the pending table. -/
def Obligations.TideCommandsComplete : Prop :=
  ∀ (t : Nat) (f : Frame) (s : State), s.dev.drain = none →
    (Starts cmdTideLoad t f s →
      let sw := cycleStart (par f 0 4) (par f 4 4) (max (par f 16 8) (ptpNow (setNow t s) + 1000000))
      Answers cmdTideLoad (.tideLoad t f) f s (okOut (toLE 8 sw) [])
        { s with tide := { s.tide with pending := some { cycle := par f 0 4, phase := par f 4 4, entries := entriesOf f, switchAt := sw } } }) ∧
    (∀ tb, Starts cmdTideRead t f s → (if par f 0 1 = 0 then some s.tide.active else s.tide.pending) = some tb →
      Answers cmdTideRead (.tideRead t f) f s (okOut (toLE 4 tb.cycle ++ toLE 4 tb.phase ++ toLE 2 tb.entries.length ++ zeros 6 ++ toLE 8 tb.switchAt)
        (tb.entries.flatMap entryBytesOf)) s)

/-- HAWSER_INFO reports the module's place in its fleet and its six ports and changes nothing. HAWSER_RETRAIN puts a port that
may train and has signal into TRAINING, and leaves any other as it is. -/
def Obligations.HawserCommandsComplete : Prop :=
  ∀ (t : Nat) (f : Frame) (s : State), s.dev.drain = none →
    (Starts cmdHawserInfo t f s → ∃ rest, rest.length = 48 ∧ Answers cmdHawserInfo (.hawserInfo t f) f s
      (okOut (toLE 2 (moduleNo s) ++ toLE 1 (topologyOf s) ++ toLE 2 (fleetModules s).length ++ zeros 3 ++ rest) []) s) ∧
    (Starts cmdHawserRetrain t f s → (mayTrain s (par f 0 1) && (hawserPort s (par f 0 1)).signal) = false →
      Answers cmdHawserRetrain (.hawserRetrain t f) f s (okOut [] []) s) ∧
    (Starts cmdHawserRetrain t f s → (mayTrain s (par f 0 1) && (hawserPort s (par f 0 1)).signal) = true → par f 0 1 < s.hawser.ports.length →
      ∃ u, exec (.hawserRetrain t f) s = .next u ∧ Replied s u 0x0801 f stOk .none [] [] ∧ (hawserPort u (par f 0 1)).state = .training ∧
        (hawserPort u (par f 0 1)).step = 2)

/-- LOGBOOK_INFO, LOGBOOK_SETTINGS, FW_INFO and IDENTITY report and change nothing. -/
def Obligations.LogbookAndTrustQueriesComplete : Prop :=
  ∀ (t : Nat) (f : Frame) (s : State), s.dev.drain = none →
    (Starts cmdLogbookInfo t f s → ∃ rest body, rest.length = 4 ∧ Answers cmdLogbookInfo (.logbookInfo t f) f s
      (okOut (toLE 2 logSectors ++ toLE 2 logRegions.length ++ toLE 2 s.logbook.bad.length ++ zeros 2 ++ rest)
        (body ++ s.logbook.bad.flatMap (fun b => toLE 2 b.phys ++ toLE 1 b.cause ++ zeros 1 ++ toLE 4 b.timeS))) s) ∧
    (Starts cmdLogbookSettings t f s → Answers cmdLogbookSettings (.logbookSettings t f) f s
      (okOut (toLE 4 21 ++ zeros 4) (settingRecords s).flatten) s) ∧
    (Starts cmdFwInfo t f s → Answers cmdFwInfo (.fwInfo t f) f s (okOut [] ((List.range 6).flatMap (fun k => fwSlotRecord s (k / 2) (k % 2)))) s) ∧
    (Starts cmdIdentity t f s → Answers cmdIdentity (.identity t f) f s
      (okOut [] (identityRecord s ++ padTo 2592 (s.fixed.issuerKey.take 2592))) s)

/-- FW_COMMIT in READY, with the trial selection running, makes the current selection the known-good one and ends the trial;
without a trial it is refused and changes nothing. -/
def Obligations.FirmwareCommitEndsTheTrial : Prop :=
  ∀ (t : Nat) (f : Frame) (s : State), s.dev.drain = none → Starts cmdFwCommit t f s →
    (s.dev.state = .ready → s.trust.trial = true → s.boot.running = s.trust.current →
      Answers cmdFwCommit (.fwCommit t f) f s (okOut [] []) { s with trust := { s.trust with knownGood := s.trust.current, trial := false } }) ∧
    ((s.dev.state ≠ .ready ∨ s.trust.trial = false ∨ s.boot.running ≠ s.trust.current) →
      Answers cmdFwCommit (.fwCommit t f) f s (failOut conflictNone) s)

/-! ### Parameters, bollards, alerts and drains -/

/-- SET_PARAM, and every row that sets one parameter, is answered in its step when nothing holds it back: its entries are
applied together or refused together, and hawser ports follow. So are BOLLARD_READ, GIVE, TAKE and SET, and what they let run
follows. -/
def Obligations.SettingAndBollardRowsComplete : Prop :=
  ∀ (t : Nat) (f : Frame) (s : State),
    (∀ x, ∀ r ∈ settingRows x t f s, Starts cmdSetParam t r.2 s →
      exec r.1 s = .next (finishAfter cmdSetParam t r.2 s
        (setWork (running cmdSetParam t r.2 s) (startedCmd cmdSetParam t r.2 s)).1 (setWork (running cmdSetParam t r.2 s) (startedCmd cmdSetParam t r.2 s)).2)) ∧
    (∀ n count, ∀ r ∈ bollardRows t f n count, Starts cmdBollard t r.2 s →
      exec r.1 s = .next (finishAfter cmdBollard t r.2 s
        (bollardWork (running cmdBollard t r.2 s) (startedCmd cmdBollard t r.2 s)).1
        (bollardWork (running cmdBollard t r.2 s) (startedCmd cmdBollard t r.2 s)).2))

/-- A change of a port's CLASS spends one of its remaining changes; with none left it is refused with COUNT_EXHAUSTED, naming
the setting, and a write of the present class spends nothing. Every other port's class and count stays. -/
def Obligations.PortClassSpendsOneChange : Prop :=
  ∀ (t : Nat) (f : Frame) (port : Nat) (cls : BitVec 2) (s : State), port < 8 → Starts cmdSetParam t (setOne f (0x0020 + port) cls.toNat 3) s →
    (s.regs.portClass.getD port 0 ≠ cls → s.regs.portRemain.getD port 0 ≠ 0 →
      ∃ u, exec (.portClass t f port cls) s = .next u ∧ Replied s u 0x0102 (setOne f (0x0020 + port) cls.toNat 3) stOk .none [] [] ∧
        u.regs = { s.regs with portClass := s.regs.portClass.set port cls, portRemain := s.regs.portRemain.modify port (fun n => n - 1) }) ∧
    (s.regs.portClass.getD port 0 ≠ cls → s.regs.portRemain.getD port 0 = 0 →
      ∃ u, exec (.portClass t f port cls) s = .next u ∧
        Replied s u 0x0102 (setOne f (0x0020 + port) cls.toNat 3) stCountExhausted (.limit (0x0020 + port) 0 1 (port + 1)) [] [] ∧ u.regs = s.regs) ∧
    (s.regs.portClass.getD port 0 = cls →
      ∃ u, exec (.portClass t f port cls) s = .next u ∧ Replied s u 0x0102 (setOne f (0x0020 + port) cls.toNat 3) stOk .none [] [] ∧ u.regs = s.regs)

/-- With no TAKE waiting, READ returns a bollard's count, GIVE adds to it, saturating at 65,535, TAKE subtracts what it has, and
SET replaces it; each returns the count it leaves and changes no other bollard. A TAKE of more than the count waits in PHASE 1
and takes nothing. -/
def Obligations.BollardsCount : Prop :=
  ∀ (t : Nat) (f : Frame) (n : Byte) (count : BitVec 16) (s : State), s.dev.drain = none → takesOn s f.berth n.toNat = [] →
    let c := (getBerth s f.berth).bollards.getD n.toNat 0
    let setTo (v : Nat) : State := modBerth f.berth (fun b => { b with bollards := b.bollards.set n.toNat v }) s
    (Starts cmdBollard t (bollardFrame f n 0 0) s →
      Answers cmdBollard (.bollardRead t f n) (bollardFrame f n 0 0) s (okOut (toLE 2 c) []) s) ∧
    (Starts cmdBollard t (bollardFrame f n 1 count.toNat) s → n.toNat < (getBerth s f.berth).bollards.length →
      Answers cmdBollard (.bollardGive t f n count) (bollardFrame f n 1 count.toNat) s (okOut (toLE 2 (min 65535 (c + count.toNat))) [])
        (setTo (min 65535 (c + count.toNat)))) ∧
    (Starts cmdBollard t (bollardFrame f n 2 count.toNat) s → n.toNat < (getBerth s f.berth).bollards.length →
      count.toNat ≤ c ∧ Answers cmdBollard (.bollardTake t f n count) (bollardFrame f n 2 count.toNat) s (okOut (toLE 2 (c - count.toNat)) [])
        (setTo (c - count.toNat))) ∧
    (Starts cmdBollard t (bollardFrame f n 3 count.toNat) s → n.toNat < (getBerth s f.berth).bollards.length →
      Answers cmdBollard (.bollardSet t f n count) (bollardFrame f n 3 count.toNat) s (okOut (toLE 2 count.toNat) []) (setTo count.toNat)) ∧
    (Accepted cmdBollard t (bollardFrame f n 2 count.toNat) s → c < count.toNat →
      (∀ b ∈ s.cmds.active, b.sequenced = true → b.frame.berth = f.berth → b.frame.queue = f.queue → 3 ≤ b.phase) → (getBerth s f.berth).state ≠ .suspended →
      ∃ u a, exec (.bollardTake t f n count) s = .next u ∧ a ∈ u.cmds.active ∧ a.id = s.cmds.nextId ∧ a.phase = 1 ∧ u.out = s.out ∧
        ∀ b, (getBerth u b).bollards = (getBerth s b).bollards)

/-- A new alert braces a module in READY: BRACED, storm state BRACE, one bracing more, the source listed until its DURATION has
run. An alert of DURATION 0 of an unknown source changes nothing, and a seventeenth source is refused. -/
def Obligations.AlertsBraceTheModule : Prop :=
  ∀ (t : Nat) (f : Frame) (s : State), AlertArrives t f s → s.dev.drain = none →
    (par f 12 2 = 0 → (∀ a ∈ s.storm.alerts, a.source ≠ BitVec.ofNat 64 (par f 0 8)) →
      Answers cmdBraceAlert (.braceAlert t f) f s (okOut (toLE 1 (stormNow s).code ++ zeros 7) []) s) ∧
    (par f 12 2 ≠ 0 → (∀ a ∈ s.storm.alerts, a.source ≠ BitVec.ofNat 64 (par f 0 8)) → 16 ≤ s.storm.alerts.length →
      Answers cmdBraceAlert (.braceAlert t f) f s { status := stNoResource, detail := .resource 0x0900 0 1 } s) ∧
    (par f 12 2 ≠ 0 → s.storm.alerts = [] → s.dev.state = .ready →
      ∃ u, exec (.braceAlert t f) s = .next u ∧ Replied s u 0x0900 f stOk .none (toLE 1 1 ++ zeros 7) [] ∧
        u.dev.state = .braced ∧ u.dev.prev = .ready ∧ u.storm.state = .brace ∧ u.lb.braces = satAdd 32 s.lb.braces 1 ∧
        u.storm.alerts = [{ source := BitVec.ofNat 64 (par f 0 8), seqNo := BitVec.ofNat 32 (par f 8 4), expiry := max s.now t + par f 12 2 * 1000000000 }] ∧
        u.media = { s.media with service := u.media.service } ∧ u.regs = s.regs)

/-- DRAIN moves a module in READY to DRAINING, RESET one in READY, while one in BRACED keeps its state; both count the
commands still to complete, and go on to the time for reading results once none is left. -/
def Obligations.DrainAndResetBegin : Prop :=
  ∀ (t : Nat) (f : Frame) (s : State),
    let after (reset : Bool) (d : Drain) : Prop :=
      d.thenReset = reset ∧ d.holdNs = par f 0 2 * 1000000000 ∧ d.fromSideband = false ∧
      (s.cmds.active ≠ [] → d.stage = .running) ∧ (s.cmds.active = [] → d.stage = .holding) ∧ d.since = max s.now t
    (Starts cmdDrain t f s → ∃ u d, exec (.drain t f) s = .next u ∧ Replied s u 0x0107 f stOk .none (toLE 4 s.cmds.active.length) [] ∧
      u.dev.state = .draining ∧ u.dev.prev = .ready ∧ u.dev.drain = some d ∧ after false d ∧ u.media.nss = s.media.nss ∧ u.media.holds = s.media.holds) ∧
    (Starts cmdReset t f s → ∃ u d, exec (.reset t f) s = .next u ∧ Replied s u 0x0108 f stOk .none (toLE 4 s.cmds.active.length) [] ∧
      (s.dev.state = .ready → u.dev.state = .draining) ∧ (s.dev.state = .braced → u.dev.state = .braced) ∧
      u.dev.drain = some d ∧ after true d ∧ u.media.nss = s.media.nss ∧ u.media.holds = s.media.holds)

/-- LOGBOOK_PROGRAM on an idle bank fails at once with NOT_ERASED when one of its words holds data, naming that word;
otherwise its operation joins its bank's and the command runs, with no reply yet. A finished word program puts one word into the
logbook and a finished erase clears its sector; the last of them ends the command. One that fails is done again on a spare sector,
which makes its sector bad, and with no spare left the logbook becomes READ_ONLY. A due compaction joins its bank's operations. -/
def Obligations.LogbookOperationsRun : Prop :=
  ∀ (t : Nat) (s : State),
    (∀ f o, Starts cmdLogbookProgram t f s → s.dev.drain = none →
      o = { cmd := s.cmds.nextId, kind := 1, sector := par f 0 4 / 512, word := par f 0 4 % 512, total := par f 4 2, left := par f 4 2,
            began := max s.now t, words := (List.range (par f 4 2)).map (fun i => BitVec.ofNat 64 (pay f (8 * i) 8)) } →
      (∀ a, bankOps s (bankOf (par f 0 4 / 512)) = [] → firstProgrammed s o = some a → bankOf (par f 0 4 / 512) < s.logLive.ops.length →
        ∃ u, exec (.logbookProgram t f) s = .next u ∧ Replied s u 0x0A02 f stNotErased (.integrity kSector (a / 512) a) [] [] ∧
          u.logbook = s.logbook ∧ u.cmds.active = s.cmds.active) ∧
      ((bankOps s (bankOf (par f 0 4 / 512)) ≠ [] ∨ firstProgrammed s o = none) → bankOf (par f 0 4 / 512) < s.logLive.ops.length →
        ∃ u, exec (.logbookProgram t f) s = .next u ∧ bankOps u (bankOf (par f 0 4 / 512)) = bankOps s (bankOf (par f 0 4 / 512)) ++ [o] ∧
          u.logbook = s.logbook ∧ u.out = s.out ∧ ∃ a ∈ u.cmds.active, a.id = s.cmds.nextId ∧ a.phase = 3)) ∧
    (∀ k ok, alive s = false ∨ bankOps s k = [] → exec (.logbookOperationComplete t k ok) s = .next (setNow t s)) ∧
    (∀ k o l, alive s = true → bankOps s k = o :: l →
      let a := o.sector * 512 + o.word + (o.total - o.left)
      (o.kind = 1 → 1 < o.left → wordProgrammed s a = false → ∃ u, exec (.logbookOperationComplete t k true) s = .next u ∧
        bankOps u k = { o with left := o.left - 1 } :: l ∧ wordProgrammed u a = true ∧ wordValue u a = o.words.getD (o.total - o.left) 0 ∧
        (∀ x, x ≠ a → wordProgrammed u x = wordProgrammed s x ∧ wordValue u x = wordValue s x) ∧
        u = { s with now := max s.now t, logbook := { s.logbook with words := u.logbook.words }, logLive := { s.logLive with ops := u.logLive.ops } }) ∧
      (o.kind = 1 → o.left ≤ 1 → l = [] → ∃ u, exec (.logbookOperationComplete t k true) s = .next u ∧ bankOps u k = [] ∧ wordProgrammed u a = true ∧
        (∀ x, x ≠ a → wordProgrammed u x = wordProgrammed s x) ∧ getActive u o.cmd = none) ∧
      (o.kind = 2 → o.left ≤ 1 → l = [] → ∃ u, exec (.logbookOperationComplete t k true) s = .next u ∧ bankOps u k = [] ∧ getActive u o.cmd = none ∧
        ∀ x, wordProgrammed u x = (wordProgrammed s x && x / 512 != o.sector)) ∧
      (∀ s2, o.kind = 1 → 1 < o.left → retireSector o.sector 1 (setNow t s) = some s2 → ∃ u, exec (.logbookOperationComplete t k false) s = .next u ∧
        u.logbook.bad = s2.logbook.bad ∧ u.logbook.bad.length = s.logbook.bad.length + 1 ∧ bankOps u k = { o with left := o.left - 1 } :: l ∧
        wordProgrammed u a = true) ∧
      (o.kind = 1 ∨ o.kind = 2 → l = [] → retireSector o.sector (if o.kind = 2 then 2 else 1) (setNow t s) = none →
        ∃ u, exec (.logbookOperationComplete t k false) s = .next u ∧ u.logbook.readOnly = true ∧ u.logbook.words = s.logbook.words ∧
          bankOps u k = [] ∧ getActive u o.cmd = none)) ∧
    (∀ n, alive s = true → n = 0 ∨ n = 7 ∨ 8 < n ∨ (∃ l ∈ s.logLive.ops, ∃ o ∈ l, o.kind = 3) → exec (.logbookCompaction t n) s = .next (setNow t s)) ∧
    (∀ n, alive s = true → 1 ≤ n → n ≤ 8 → n ≠ 7 → (∀ l ∈ s.logLive.ops, ∀ o ∈ l, o.kind ≠ 3) → s.logLive.ops.length = 4 →
      ∃ u o, exec (.logbookCompaction t n) s = .next u ∧ bankOps u (if n = 8 then 2 else 0) = bankOps s (if n = 8 then 2 else 0) ++ [o] ∧ o.kind = 3 ∧
        o.cmd = s.cmds.nextId ∧ u = { s with now := max s.now t, logLive := { s.logLive with ops := u.logLive.ops }, cmds := { s.cmds with nextId := s.cmds.nextId + 1 } })

/-! ### Power states, fragments, gaps and the ends of work -/

/-- An idle timer that has run moves the module one power state down, and the next timer begins; an exit that completes puts it
in the state it moved up to, with every idle timer restarted. A timer that may not run changes only the time. -/
def Obligations.PowerStatesFollowTheTimers : Prop :=
  ∀ (t : Nat) (s : State),
    (idleRuns s = true → s.power.current = 0 → 1 ≤ s.power.maxState.toNat → usesUpTo s 0 = false → s.power.lastP0 + s.power.idleP1.toNat * 1000 ≤ max s.now t →
      exec (.idleP1Timeout t) s = .next { s with now := max s.now t, power := { s.power with current := 1, lastNand := max s.now t } }) ∧
    (idleRuns s = true → s.power.current = 1 → 2 ≤ s.power.maxState.toNat → usesUpTo s 1 = false → s.power.lastNand + s.power.idleP2.toNat * 1000000 ≤ max s.now t →
      exec (.idleP2Timeout t) s = .next { s with now := max s.now t, power := { s.power with current := 2, lastSram := max s.now t } }) ∧
    (idleRuns s = true → s.power.current = 2 → s.power.maxState = 3 → usesUpTo s 2 = false → s.power.lastSram + s.power.idleP3.toNat * 1000000 ≤ max s.now t →
      exec (.idleP3Timeout t) s = .next { s with now := max s.now t, power := { s.power with current := 3 } }) ∧
    (idleRuns s = false → exec (.idleP1Timeout t) s = .next (setNow t s) ∧ exec (.idleP2Timeout t) s = .next (setNow t s) ∧ exec (.idleP3Timeout t) s = .next (setNow t s)) ∧
    (∀ p, s.power.exitTo = some p → alive s = true → waitingIds s = [] →
      exec (.powerExitComplete t) s = .next { s with now := max s.now t, power := { s.power with
        current := p, exitTo := none, lastP0 := max s.now t, lastNand := max s.now t, lastSram := max s.now t } }) ∧
    (s.power.exitTo = none → exec (.powerExitComplete t) s = .next (setNow t s))

/-- A datagram that the port does not take changes only the time. One that is dropped for its header is counted and answered
with nothing; a fragment that begins a command of several fragments reserves a reassembly; and a datagram that carries a whole
command is that command's row: both run it on the same state. -/
def Obligations.DatagramsAreTakenOrDropped : Prop :=
  ∀ (t : Nat) (d : Datagram) (s : State),
    ((portUp s d.port && portAnswers s d.port d.dstIp && d.dstUdp == udpPort s) = false → exec (.nimoxFrame t d) s = .next (setNow t s)) ∧
    ((portUp s d.port && portAnswers s d.port d.dstIp && d.dstUdp == udpPort s) = true → dropsHeader d = true →
      ∃ u, exec (.nimoxFrame t d) s = .next u ∧ u = { s with now := max s.now t, net := { s.net with ports := u.net.ports } } ∧
        ∀ n, hostPort u n = { hostPort s n with stats := (hostPort u n).stats }) ∧
    ((portUp s d.port && portAnswers s d.port d.dstIp && d.dstUdp == udpPort s) = true → dropsHeader d = false → (headFrame d).berth ≤ 15 →
      s.net.reasms.find? (fun x => x.key == keyOf (headFrame d)) = none → s.net.refused = [] → frameFault d (fragUnit s) = none → hdrCount d ≠ 1 →
      reasmRefuse s (hdrParamLen d + hdrPayloadLen d) = none →
      ∃ u r, exec (.nimoxFrame t d) s = .next u ∧ u.net.reasms = s.net.reasms ++ [r] ∧ r.key = keyOf (headFrame d) ∧ r.opcode = hdrOpcode d ∧
        r.frags = [(hdrIndex d, d.bytes.drop 32)] ∧ r.last = max s.now t ∧ r.unit = fragUnit s ∧ u.out = s.out ∧ u.cmds = s.cmds) ∧
    (∀ f, portUp s d.port = true → portAnswers s d.port d.dstIp = true → d.dstUdp = udpPort s → dropsHeader d = false → frameFault d (fragUnit s) = none →
      hdrCount d = 1 → (headFrame d).berth ≤ 15 → s.net.reasms.find? (fun x => x.key == keyOf (headFrame d)) = none →
      (s.net.refused.all (fun x => x.key != keyOf (headFrame d))) = true →
      f = wholeFrame (headFrame d) (hdrParamLen d) (d.bytes.drop 32) → headerFault (hdrOpcode d) 1 f = none → f.urgent = false →
      exec (.nimoxFrame t d) s = .next (runCommand (hdrOpcode d) t f s))

/-- A reassembly that has waited longer than its FRAG_TIMEOUT is freed and its command answered FRAGMENT_TIMEOUT; a refused key
that has expired is forgotten; a gap that has lasted FRAG_TIMEOUT is skipped, the queue then expecting a later number. Before
its time each changes only the time. -/
def Obligations.TransportTimersExpire : Prop :=
  ∀ (t : Nat) (s : State),
    (∀ k r, s.net.reasms.find? (fun x => x.key == k && !x.held) = some r → alive s = true → r.last + r.timeoutNs < max s.now t → portUp s k.port = true →
      ∃ u y later, exec (.reassemblyTimeout t k) s = .next u ∧ u.net.reasms = s.net.reasms.filter (fun x => x.key != k) ∧
        u.out = later ++ Output.reply k.port k.srcIp k.srcUdp (fragUnit s) y :: s.out ∧ y.opcode = r.opcode ∧ y.tag = k.tag ∧ y.block.status = stFragmentTimeout ∧
        u = { s with now := max s.now t, out := u.out, net := u.net }) ∧
    (∀ k, (∀ r, s.net.reasms.find? (fun x => x.key == k && !x.held) = some r → max s.now t ≤ r.last + r.timeoutNs) →
      exec (.reassemblyTimeout t k) s = .next (setNow t s)) ∧
    (∀ k, exec (.refusedKeyExpiry t k) s = .next { s with now := max s.now t, net := { s.net with
      refused := s.net.refused.filter (fun x => !(x.key == k && decide (x.last + x.timeoutNs ≤ max s.now t))) } }) ∧
    (∀ b q, (getQueue s b q).gapSince = none → exec (.sequenceGapTimeout t b q) s = .next (setNow t s)) ∧
    (∀ b q g h, (getQueue s b q).gapSince = some g → (getQueue s b q).held = [h] → alive s = true → g + fragTimeoutNs s ≤ max s.now t →
      ∃ u, exec (.sequenceGapTimeout t b q) s = .next u ∧ (getQueue u b q).held = [] ∧ (getQueue u b q).expected = h.frame.seq + 1 ∧
        (getQueue u b q).gapSince = none)

/-- COMMAND_START starts an accepted command that waits and that nothing holds back any more: it moves to PHASE 3. One that
something still holds back stays as it is, and a started one is not started again. A started command whose work is over ends with
the outcome of its work, and one that an error stopped with that error; a command that still waits for its own data, or is not
over, goes on. -/
def Obligations.WorkStartsAndEnds : Prop :=
  ∀ (t id : Nat) (s : State) (a : Active) (sp : CmdSpec), getActive s id = some a → specOf a.opcode = some sp → alive s = true →
    (a.phase = 3 → exec (.commandStart t id) s = .next (setNow t s)) ∧
    (a.phase < 3 → phaseOf sp (setNow t s) a < 3 → phaseOf sp (setNow t s) a ≠ 2 →
      exec (.commandStart t id) s = .next (modActive id (fun a => { a with phase := phaseOf sp (setNow t s) a }) (setNow t s))) ∧
    (a.phase < 3 → phaseOf sp (setNow t s) a = 3 → a.id = id → (∀ f, (sp.uses (setNow t s) f).fetch = []) → (∀ x y, sp.start x y = x) → (∀ x y, sp.slow x y = true) →
      ∃ u b, exec (.commandStart t id) s = .next u ∧ getActive u id = some b ∧ b.phase = 3 ∧ b.frame = a.frame ∧ u = { setNow t s with cmds := u.cmds }) ∧
    (a.phase = 3 → ∀ e, exec (.workCompletion t id (some e)) s = .next (endWork sp (some e) a (setNow t s))) ∧
    (a.phase = 3 → sp.step (setNow t s) a = none → a.awaiting = [] → sp.done (setNow t s) a = true →
      exec (.workCompletion t id none) s = .next (endWork sp none a (setNow t s))) ∧
    (a.phase = 3 → (a.awaiting ≠ [] ∨ sp.done (setNow t s) a = false) → failedQp s a = none → exec (.workCompletion t id none) s = .next (setNow t s))

/-! ### Storm and power failure -/

/-- A sample is taken once in each millisecond of PTP time: it enters the raw record, a missing one as missing. An alert or peer
that has expired is dropped, an announcement repeats after 10 s, a sensor without a sample for 5 ms has failed, and a sealing
that completes in BRACED leaves the write buffer on media. Before its time each changes only the time. -/
def Obligations.StormEventsComplete : Prop :=
  ∀ (t : Nat) (s : State),
    (∀ x, sensorOn s = true → s.pf.flushAt = none → s.storm.sensor.sampledMs ≠ ptpNow (setNow t s) / 1000000 →
      ∃ u y, exec (.accelerometerSample t (some x)) s = .next u ∧ u.storm.sensor.sampledMs = ptpNow (setNow t s) / 1000000 ∧
        u.storm.sensor.lastAt = max s.now t ∧ u.storm.sensor.missing = 0 ∧ u.storm.sensor.last = some y ∧ u.storm.sensor.raw = (y :: s.storm.sensor.raw).take 10000 ∧
        u = stormedAs u s) ∧
    (sensorOn s = true → s.pf.flushAt = none → s.storm.sensor.sampledMs ≠ ptpNow (setNow t s) / 1000000 →
      ∃ u, exec (.accelerometerSample t none) s = .next u ∧ u.storm.sensor.missing = s.storm.sensor.missing + 1 ∧
        u.storm.sensor.raw = (missingSample :: s.storm.sensor.raw).take 10000 ∧ u = stormedAs u s) ∧
    (∀ x, (sensorOn s = false ∨ s.pf.flushAt ≠ none ∨ s.storm.sensor.sampledMs = ptpNow (setNow t s) / 1000000) →
      exec (.accelerometerSample t x) s = .next (setNow t s)) ∧
    (sensorOn s = true → s.pf.flushAt = none → s.storm.sensor.lastAt + 5000000 ≤ max s.now t →
      ∃ u, exec (.accelerometerFault t) s = .next u ∧ u.storm.sensor.fault = true ∧ (s.storm.sensor.fault = false → u.storm.sensor.validRun = 0) ∧ u = stormedAs u s) ∧
    (∀ src, s.storm.alerts.any (fun a => a.source == src && decide (a.expiry ≤ max s.now t)) = true →
      ∃ u, exec (.alertExpiry t src) s = .next u ∧ u.storm.alerts = s.storm.alerts.filter (fun a => a.source != src) ∧ u = stormedAs u s) ∧
    (∀ src, s.storm.alerts.any (fun a => a.source == src && decide (a.expiry ≤ max s.now t)) = false → exec (.alertExpiry t src) s = .next (setNow t s)) ∧
    (∀ m, s.storm.peers.any (fun p => p.module == m && decide (p.last + 25000000000 ≤ max s.now t)) = true →
      ∃ u, exec (.peerExpiry t m) s = .next u ∧ u.storm.peers = s.storm.peers.filter (fun p => p.module != m) ∧ u = stormedAs u s) ∧
    ((stormNow s = .brace ∨ stormNow s = .settle) → s.storm.repeatAt + 10000000000 ≤ max s.now t →
      ∃ u, exec (.announcementRepeat t) s = .next u ∧ u.lb.announceNo = satAdd 32 s.lb.announceNo 1 ∧ u.storm.repeatAt = max s.now t ∧ u = stormedAs u s) ∧
    ((max s.now t < s.storm.repeatAt + 10000000000 ∨ (stormNow s ≠ .brace ∧ stormNow s ≠ .settle)) → exec (.announcementRepeat t) s = .next (setNow t s)) ∧
    (alive s = true → s.dev.state = .braced → s.storm.sealDone = false →
      ∃ u, exec (.braceSealComplete t) s = .next u ∧ u.storm.sealDone = true ∧ u.eng.wbuf = [] ∧ u.dev = s.dev)

/-- A braced module whose conditions have been gone for HOLD_OFF returns to READY and CALM; before that, or while a drain runs,
it stays braced. -/
def Obligations.HoldOffEndsTheBrace : Prop :=
  ∀ (t : Nat) (s : State),
    (alive s = true → s.dev.state = .braced → s.storm.state = .settle → s.dev.drain = none → s.storm.holdAt + holdOffNs s ≤ max s.now t → s.side.pdPending = false →
      ∃ u, exec (.holdOffExpiry t) s = .next u ∧ u.dev.state = .ready ∧ u.dev.prev = .braced ∧ u.storm.state = .calm ∧ u.storm.openEvent = false ∧
        u.power.lastP0 = max s.now t ∧ u.lb.announceNo = satAdd 32 s.lb.announceNo 1 ∧ u.media.nss = s.media.nss ∧ u.cmds = s.cmds) ∧
    ((s.dev.state ≠ .braced ∨ s.storm.state ≠ .settle ∨ s.dev.drain ≠ none ∨ max s.now t < s.storm.holdAt + holdOffNs s) →
      exec (.holdOffExpiry t) s = .next (setNow t s))

/-- An armed comparator's assertion begins the flush or the shutdown: no accepted command is left, nothing is answered any more,
POWER holds and the event is counted. The flush that completes leaves the module POWERED, waiting for the input to be
restored; what a completed flush wrote is on media. -/
def Obligations.PowerFailureFlushesAndPowersOff : Prop :=
  ∀ (t : Nat) (s : State),
    (alive s = true → s.pf.armed = true →
      ∃ u, exec (.powerFailAssertion t) s = .next u ∧ u.pf.flushAt = some (max s.now t) ∧ u.pf.armed = false ∧ u.cmds.active = [] ∧ u.storm.power = true ∧
        u.storm.openEvent = false ∧ u.lb.pfEvents = satAdd 32 s.lb.pfEvents 1 ∧ u.dev.state = s.dev.state ∧ u.dev.drain = none ∧
        (flushes s = true → u.storm.state = .flush) ∧ (∀ p, portUp u p = false)) ∧
    (alive s = false ∨ s.pf.armed = false → exec (.powerFailAssertion t) s = .next (setNow t s)) ∧
    (∀ b ok, s.pf.flushAt = some b → ∃ u, exec (.flushComplete t ok) s = .next u ∧ u.dev.state = .powered ∧ u.dev.prev = s.dev.state ∧ u.pf.flushAt = none ∧
      u.pf.flushed = true ∧ u.cmds.active = [] ∧ u.cmds.slots = [] ∧ u.rdma.qps = [] ∧ u.rdma.regions = [] ∧ u.eng.wbuf = [] ∧ u.plans = [] ∧ u.regs.portClass = s.regs.portClass ∧
      (flushes s = true → ok = true → ∃ us kib, u.media.record = .flush us kib)) ∧
    (∀ ok, s.pf.flushAt = none → exec (.flushComplete t ok) s = .next (setNow t s)) ∧
    (s.dev.state = .powered → s.pf.flushed = true → s.side.switchClosed = true →
      exec (.powerRestored t) s = .next { s with now := max s.now t, pf := { s.pf with flushed := false }, side := { s.side with powerOnDue := true, nextKind := 1 } }) ∧
    (s.pf.flushed = false → exec (.powerRestored t) s = .next (setNow t s)) ∧
    (s.side.switchClosed = true → exec (.comparatorRearm t) s = .next { s with now := max s.now t, pf := { s.pf with armed := true } }) ∧
    (alive s = true → exec (.pfGlitch t) s = .next { s with now := max s.now t, pf := { s.pf with glitches := satAdd 32 s.pf.glitches 1 } })

/-- A holdup measurement that is due sets HOLDUP_MJ to the usable energy its two voltages give, HOLDUP_LOW where that is below
6,000 mJ, and the event bit when HOLDUP_LOW is newly set. A V1 below 79 V discards it. -/
def Obligations.HoldupMeasurementIsTheFormula : Prop :=
  ∀ (t v1 v2 : Nat) (s : State), alive s = true → (s.dev.state = .mounting ∨ s.dev.state = .ready) →
    (s.pf.measured = false → 79000 ≤ v1 → v2 < v1 →
      let mj := min (240000000000 / (v1 * v1 - v2 * v2)) 65535
      exec (.holdupMeasurement t v1 v2) s = .next { s with
        now := max s.now t, fresh := s.fresh + 1
        pf := { s.pf with holdupMj := mj, holdupLow := decide (mj < 6000), measured := true, measuredAt := max s.now t }
        storm := { s.storm with events := if decide (mj < 6000) && !s.pf.holdupLow then s.storm.events ||| 4 else s.storm.events } }) ∧
    (v1 < 79000 → exec (.holdupMeasurement t v1 v2) s = .next (setNow t s))

/-! ### Input, start-up, draining and the sideband -/

/-- The input switch opens for a lost sense contact and for an overvoltage, with the cause recorded unless it is open already
or a flush runs; closing it powers a POWERED module on unless a trip, a lockout, a drain or a power failure holds it. A rail
fault ends the attempt, the third one locks the module out, and a retry follows after 1 s; rails in regulation begin TRIAL,
with one boot more. -/
def Obligations.InputAndRailsFollowTheirRules : Prop :=
  ∀ (t : Nat) (s : State),
    (s.side.switchClosed = true → s.pf.flushAt = none →
      exec (.senseBreak t) s = .next { s with now := max s.now t, side := { s.side with switchClosed := false, openCause := 6, senseOk := false } } ∧
      exec (.overvoltage t) s = .next { s with now := max s.now t, side := { s.side with switchClosed := false, openCause := 5, bladeOk := false } }) ∧
    (s.side.switchClosed = false ∨ s.pf.flushAt ≠ none →
      exec (.senseBreak t) s = .next { s with now := max s.now t, side := { s.side with senseOk := false } } ∧
      exec (.overvoltage t) s = .next { s with now := max s.now t, side := { s.side with bladeOk := false } }) ∧
    (∀ ms, 1000 ≤ ms → s.dev.state = .powered → s.pf.flushed = false → s.side.powerOnDue = false → s.dev.railsOffAt = none →
      exec (.inputSwitchClose t ms) s = .next { s with now := max s.now t, side := { s.side with
        tripped := 0, lockout := false, railTries := 0, railFault := false, drained := false, switchClosed := true, senseOk := true, bladeOk := true,
        powerOnDue := true, nextKind := 1 } }) ∧
    (∀ ms, ms < 1000 → s.side.tripped ≠ 0 → exec (.inputSwitchClose t ms) s = .next (setNow t s)) ∧
    (∀ ms, ms < 1000 → s.side.tripped = 0 → s.side.lockout = true →
      exec (.inputSwitchClose t ms) s = .next { s with now := max s.now t, side := { s.side with switchClosed := true, senseOk := true, bladeOk := true } }) ∧
    (railsRising s = true → exec (.railFault t) s = .next { s with now := max s.now t, side := { s.side with
      railFault := true, railTries := s.side.railTries + 1, railFaultAt := max s.now t, powerOnDue := false, lockout := decide (3 ≤ s.side.railTries + 1) } }) ∧
    (s.dev.state = .powered → s.side.railFault = true → s.side.lockout = false → s.side.powerOnDue = false → s.side.railFaultAt + 1000000000 ≤ max s.now t →
      exec (.railRetry t) s = .next { s with now := max s.now t, side := { s.side with powerOnDue := true } }) ∧
    (s.side.lockout = true → exec (.railRetry t) s = .next (setNow t s)) ∧
    (railsRising s = true → ∃ u, exec (.railsInRegulation t) s = .next u ∧ (u.dev.state = .trial ∨ u.dev.state = .dryDock) ∧ u.dev.record.resetKind = s.side.nextKind ∧
      u.lb.boots = satAdd 32 s.lbSaved.boots 1 ∧ u.side.railsOn = true ∧ u.side.powerOnDue = false ∧ u.media.nss = s.media.nss ∧ u.media.holds = s.media.holds) ∧
    (railsRising s = false → exec (.railFault t) s = .next (setNow t s) ∧ exec (.railsInRegulation t) s = .next (setNow t s))

/-- A component that reports within its time counts as started. A component that no unit has started by then does not start:
an established boot ends in dry dock, a trial boot is reverted with a reset of kind 4; units that have not started while
another has are failed. -/
def Obligations.ComponentsStartOrFail : Prop :=
  ∀ (t : Nat) (s : State), starting s = true →
    (∀ n, max s.now t ≤ s.boot.releasedAt + 3000000000 → s.boot.mgmtUp = false →
      exec (.componentStart t 0 n) s = .next { s with now := max s.now t, boot := { s.boot with mgmtUp := true, mgmtAt := max s.now t } }) ∧
    (∀ q, max s.now t ≤ s.boot.releasedAt + 200000000 → q < 24 → s.boot.quaysUp.contains q = false → s.boot.quayFail.contains q = false →
      exec (.componentStart t 1 q) s = .next { s with now := max s.now t, boot := { s.boot with quaysUp := q :: s.boot.quaysUp } }) ∧
    (∀ c, max s.now t ≤ s.boot.releasedAt + 50000000 → c < cranesOf s.fixed.variant → s.boot.seqsUp.contains c = false → s.boot.seqFail.contains c = false →
      exec (.componentStart t 2 c) s = .next { s with now := max s.now t, boot := { s.boot with seqsUp := c :: s.boot.seqsUp } }) ∧
    (∀ c n, s.boot.releasedAt + startLimit c < max s.now t → exec (.componentStart t c n) s = .next (setNow t s)) ∧
    (s.boot.releasedAt + 3000000000 ≤ max s.now t → s.boot.mgmtUp = false →
      ∃ u, exec (.startTimeout t 0) s = .next u ∧ (s.boot.wasTrial = false → u.dev.state = .dryDock ∧ u.dev.record.dockCause = 8) ∧
        (s.boot.wasTrial = true → u.dev.state = .powered ∧ u.dev.railsOffAt = some (max s.now t) ∧ u.side.nextKind = 4 ∧ u.trust.trial = false ∧
          u.trust.current = s.trust.knownGood)) ∧
    (s.boot.releasedAt + 200000000 ≤ max s.now t → s.boot.quaysUp ≠ [] →
      exec (.startTimeout t 1) s = .next { s with now := max s.now t, boot := { s.boot with
        quayFail := (List.range 24).filter (fun q => !s.boot.quaysUp.contains q) } }) ∧
    (∀ c, max s.now t < s.boot.releasedAt + startLimit c → exec (.startTimeout t c) s = .next (setNow t s))

/-- Sea trial ends once every component has reported: the unit-presence word holds the units in service and the record the ones
that failed. A fault that leads to dry dock puts the module there with its cause; otherwise MOUNTING follows when the holdup
bank is full or 2 s have gone by, and never before. -/
def Obligations.SeaTrialDecides : Prop :=
  ∀ (t : Nat) (s : State),
    (∀ x, starting s = true → allReported s = true →
      ∃ u, exec (.seaTrialComplete t x) s = .next u ∧ u.dev.units = BitVec.ofNat 64 (unitsWord s.fixed.variant (trialFaults s x)) ∧
        (∀ c st no, dockOf (trialFaults s x) = some (c, st, no) →
          u.dev.state = .dryDock ∧ u.dev.record.dockCause = c ∧ u.dev.record.failStage = st ∧ u.dev.record.failUnit = no ∧ u.boot.mgmtUp = false ∧
          u.clock.state = .unsync) ∧
        (dockOf (trialFaults s x) = none → s.dev.bankFull = false → s.dev.bankLate = false → u.dev.state = .trial ∧ u.dev.trialPassed = true) ∧
        (dockOf (trialFaults s x) = none → (s.dev.bankFull = true ∨ s.dev.bankLate = true) → u.dev.state = .mounting)) ∧
    (∀ x, (starting s = false ∨ allReported s = false) → exec (.seaTrialComplete t x) s = .next (setNow t s)) ∧
    (alive s = true → s.dev.state = .trial → s.dev.trialPassed = false →
      exec (.holdupBankFull t) s = .next { s with now := max s.now t, dev := { s.dev with bankFull := true } }) ∧
    (alive s = true → s.dev.state = .trial → s.dev.trialPassed = true → ∃ u, exec (.holdupBankFull t) s = .next u ∧ u.dev.state = .mounting ∧ u.dev.bankFull = true) ∧
    (alive s = true → s.dev.state = .trial → s.dev.trialPassed = true → s.dev.bankFull = false → s.dev.trialAt + 2000000000 ≤ max s.now t →
      ∃ u, exec (.holdupChargeTimeout t) s = .next u ∧ u.dev.state = .mounting ∧ u.pf.holdupLow = true) ∧
    (max s.now t < s.dev.trialAt + 2000000000 → exec (.holdupChargeTimeout t) s = .next (setNow t s))

/-- Mounting ends in READY, or in BRACED where MOTION or POWER holds: queues are new, bollards zero, inboxes empty, the module in
P0, what cannot be mounted OFFLINE, and the session record on media. -/
def Obligations.MountingEndsInReady : Prop :=
  ∀ (t : Nat) (offNs offIx : List Nat) (broken : List (Nat × Nat)) (s : State),
    (alive s = true → s.dev.state = .mounting → ∃ u, exec (.mountingComplete t offNs offIx broken) s = .next u ∧
      (s.storm.motion = false → s.storm.power = false → u.dev.state = .ready ∧ u.dev.prev = .mounting) ∧
      (s.storm.motion = true ∨ s.storm.power = true → u.dev.state = .braced ∧ u.dev.prev = .ready) ∧
      u.net.queues = [] ∧ u.cmds.slots = [] ∧ u.power.current = 0 ∧ u.media.record = .session ∧
      (∀ b < s.berths.length, (getBerth u b).bollards = List.replicate 64 0 ∧ (getBerth u b).inbox = [] ∧ (getBerth u b).state = (getBerth s b).state) ∧
      (∀ n ∈ u.media.nss, n.nsid ∈ offNs → n.state = .offline) ∧ u.regs = s.regs) ∧
    (s.dev.state ≠ .mounting → exec (.mountingComplete t offNs offIx broken) s = .next (setNow t s))

/-- A drain's time for reading results ends when HOLD_S has run or no slot is left; then, once everything is sealed, the rails
go off: a RESET goes on to power-on of kind 2, and any other drain leaves the module POWERED and drained. A reset that had
something to write first goes on the same way, and power-on begins 10 ms after the rails went off. -/
def Obligations.DrainsAndResetsComplete : Prop :=
  ∀ (t : Nat) (s : State),
    (∀ d, s.dev.drain = some d → d.stage = .holding → s.pf.flushAt = none → (d.since + d.holdNs ≤ max s.now t ∨ s.cmds.slots = []) →
      exec (.holdSExpiry t) s = .next { s with now := max s.now t, dev := { s.dev with drain := some { d with stage := .sealing, since := max s.now t } } }) ∧
    (∀ d, s.dev.drain = some d → (d.stage ≠ .holding ∨ (max s.now t < d.since + d.holdNs ∧ s.cmds.slots ≠ [])) → exec (.holdSExpiry t) s = .next (setNow t s)) ∧
    (∀ d, s.dev.drain = some d → d.stage = .sealing → s.pf.flushAt = none → ∃ u, exec (.drainComplete t) s = .next u ∧
      u.dev.state = .powered ∧ u.dev.drain = none ∧ u.media.record = .closing ∧ u.eng.wbuf = [] ∧ u.cmds.active = [] ∧ u.side.railsOn = false ∧
      (d.thenReset = true → u.side.nextKind = 2 ∧ u.dev.railsOffAt = some (max s.now t) ∧ u.side.drained = false) ∧
      (d.thenReset = false → u.side.drained = true ∧ u.dev.railsOffAt = s.dev.railsOffAt)) ∧
    (s.dev.drain = none → exec (.drainComplete t) s = .next (setNow t s) ∧ exec (.holdSExpiry t) s = .next (setNow t s)) ∧
    (∀ k, s.dev.resetSeal = some k → s.pf.flushAt = none → ∃ u, exec (.resetSealComplete t) s = .next u ∧ u.dev.state = .powered ∧ u.side.nextKind = k ∧
      u.dev.railsOffAt = some (max s.now t) ∧ (s.dev.state = .ready ∨ s.dev.state = .braced ∨ s.dev.state = .draining → u.media.record = .closing)) ∧
    (s.dev.resetSeal = none → exec (.resetSealComplete t) s = .next (setNow t s)) ∧
    (∀ x, s.dev.railsOffAt = some x → x + 10000000 ≤ max s.now t →
      exec (.railsOffExpiry t) s = .next { s with now := max s.now t, dev := { s.dev with railsOffAt := none }, side := { s.side with powerOnDue := true } }) ∧
    (∀ x, s.dev.railsOffAt = some x → max s.now t < x + 10000000 → exec (.railsOffExpiry t) s = .next (setNow t s))

/-- The sideband answers every transaction with a result, the register's value and the CRC over both: a frame with a wrong CRC
or start is BAD_FRAME, a read OK, a write of a register other than REQUEST is REFUSED; none of these changes anything else. A
timed-out transaction leaves nothing. -/
def Obligations.SidebandAnswersTransactions : Prop :=
  ∀ (t : Nat) (w : BitVec 24) (s : State),
    let reply (x : State) (result reg : Nat) : Output :=
      .sideband (BitVec.ofNat 8 result) (BitVec.ofNat 8 (sbValue x reg)) (BitVec.ofNat 8 (crc8 [BitVec.ofNat 8 result, BitVec.ofNat 8 (sbValue x reg)]))
    let reg := bits w.toNat 16 3
    let good := bits w.toNat 20 4 = 0xA ∧ crc8 [BitVec.ofNat 8 (bits w.toNat 16 8), BitVec.ofNat 8 (bits w.toNat 8 8)] = bits w.toNat 0 8
    (¬ good → exec (.sidebandTransaction t w) s = .next { s with now := max s.now t, out := reply (setNow t s) 3 reg :: s.out }) ∧
    (good → bits w.toNat 19 1 = 0 → exec (.sidebandTransaction t w) s = .next { s with now := max s.now t, out := reply (setNow t s) 0 reg :: s.out }) ∧
    (good → bits w.toNat 19 1 = 1 → reg ≠ 3 → exec (.sidebandTransaction t w) s = .next { s with now := max s.now t, out := reply (setNow t s) 2 reg :: s.out }) ∧
    (good → bits w.toNat 19 1 = 1 → reg = 3 → bits w.toNat 8 8 = 1 → exec (.sidebandTransaction t w) s = exec (.sidebandReset t) s) ∧
    (good → bits w.toNat 19 1 = 1 → reg = 3 → bits w.toNat 8 8 = 2 → exec (.sidebandTransaction t w) s = exec (.powerDown t) s) ∧
    (good → bits w.toNat 19 1 = 1 → reg = 3 → bits w.toNat 8 8 = 3 → exec (.sidebandTransaction t w) s = exec (.powerUp t) s) ∧
    (good → bits w.toNat 19 1 = 1 → reg = 3 → bits w.toNat 8 8 = 4 → exec (.sidebandTransaction t w) s = exec (.cancel t) s) ∧
    exec (.sidebandTimeout t) s = .next (setNow t s)

/-- Sideband requests: RESET resets a powered module, at once where no media is mounted and after sealing in READY, BRACED and
DRAINING; POWER_DOWN drains a READY one and is held in BRACED; CANCEL ends a held one; POWER_UP powers a drained one on.
While an earlier request runs each is BUSY, and one that its state does not permit is REFUSED, with no effect but the reply. -/
def Obligations.SidebandRequestsAct : Prop :=
  ∀ (t : Nat) (s : State),
    let answered (u : State) (result : Nat) : Prop := ∃ v c l, u.out = Output.sideband (BitVec.ofNat 8 result) v c :: l
    let only (i : Instr) (result : Nat) : Prop := ∃ v c, exec i s = .next { s with now := max s.now t, out := Output.sideband (BitVec.ofNat 8 result) v c :: s.out }
    (sbIsBusy s = true → only (.sidebandReset t) 4 ∧ only (.powerDown t) 4 ∧ only (.powerUp t) 4 ∧ only (.cancel t) 4) ∧
    (sbIsBusy s = false →
      (s.dev.state = .trial ∨ s.dev.state = .mounting ∨ s.dev.state = .dryDock → ∃ u, exec (.sidebandReset t) s = .next u ∧ answered u 0 ∧ u.dev.state = .powered ∧
        u.side.nextKind = 3 ∧ u.dev.railsOffAt = some (max s.now t) ∧ u.side.busy = true ∧ u.side.request = 1) ∧
      (s.dev.state = .ready ∨ s.dev.state = .braced ∨ s.dev.state = .draining → ∃ u, exec (.sidebandReset t) s = .next u ∧ answered u 0 ∧
        u = { s with now := max s.now t, out := u.out, dev := { s.dev with resetSeal := some 3 }, side := { s.side with request := 1, busy := true } }) ∧
      (s.dev.state = .powered → only (.sidebandReset t) 2) ∧
      (s.dev.state = .ready → ∃ u, exec (.powerDown t) s = .next u ∧ answered u 0 ∧ u.dev.state = .draining ∧ u.side.request = 2 ∧ u.side.busy = true ∧
        ∃ d, u.dev.drain = some d ∧ d.thenReset = false ∧ d.holdNs = 0 ∧ d.fromSideband = true) ∧
      (s.dev.state = .braced → ∃ u, exec (.powerDown t) s = .next u ∧ answered u 1 ∧
        u = { s with now := max s.now t, out := u.out, side := { s.side with request := 2, pdPending := true } }) ∧
      (s.dev.state = .powered ∨ s.dev.state = .trial ∨ s.dev.state = .mounting ∨ s.dev.state = .dryDock → only (.powerDown t) 2) ∧
      (s.dev.state = .braced → s.side.pdPending = true → ∃ u, exec (.cancel t) s = .next u ∧ answered u 0 ∧
        u = { s with now := max s.now t, out := u.out, side := { s.side with request := 4, pdPending := false } }) ∧
      (s.dev.state ≠ .braced ∨ s.side.pdPending = false → only (.cancel t) 2) ∧
      (s.dev.state = .powered → s.side.drained = true → s.side.tripped = 0 → s.side.lockout = false → ∃ u, exec (.powerUp t) s = .next u ∧ answered u 0 ∧
        u = { s with now := max s.now t, out := u.out, side := { s.side with request := 3, drained := false, powerOnDue := true, nextKind := 6, busy := true } }) ∧
      (s.dev.state ≠ .powered ∨ s.side.drained = false → only (.powerUp t) 2))

/-! ### Heat and input power -/

/-- A valid temperature sample enters its sensor's last five; one outside −40 °C to +150 °C is discarded. A sensor without a
valid sample for 10 ms has failed and is counted; a step that has stayed cool for 1 s is left; a temperature at its trip
point opens the input switch and latches the trip. -/
def Obligations.TemperaturesAndTrips : Prop :=
  ∀ (t : Nat) (x : Sensor) (s : State),
    (∀ v, s.dev.state ≠ .powered → sensorExists x = true → -640 ≤ v → v ≤ 2400 → ∃ u, exec (.temperatureSample t x v) s = .next u ∧
      (sensorState u x).samples = (v :: (sensorState s x).samples).take 5 ∧ (sensorState u x).lastAt = max s.now t ∧
      u = { s with now := max s.now t, thermal := u.thermal, lb := { s.lb with
        quayTempMax := u.lb.quayTempMax, quayTempMin := u.lb.quayTempMin, minAbove70 := u.lb.minAbove70, minAbove85 := u.lb.minAbove85 } }) ∧
    (∀ v, s.dev.state ≠ .powered → sensorExists x = true → (v < -640 ∨ 2400 < v) → ∃ u, exec (.temperatureSample t x v) s = .next u ∧
      (sensorState u x).samples = (sensorState s x).samples ∧ (sensorState u x).run = 0 ∧ u = { s with now := max s.now t, thermal := u.thermal }) ∧
    (∀ v, s.dev.state = .powered ∨ sensorExists x = false → exec (.temperatureSample t x v) s = .next (setNow t s)) ∧
    (s.dev.state ≠ .powered → sensorExists x = true → (sensorState s x).fault = false → max (sensorState s x).lastAt s.dev.trialAt + 10000000 ≤ max s.now t →
      ∃ u, exec (.tempSensorTimeout t x) s = .next u ∧ (sensorState u x).fault = true ∧ u.thermal.faults = satAdd 16 s.thermal.faults 1 ∧
        u = { s with now := max s.now t, thermal := u.thermal }) ∧
    (max s.now t < max (sensorState s x).lastAt s.dev.trialAt + 10000000 → exec (.tempSensorTimeout t x) s = .next (setNow t s)) ∧
    (∀ c, (sensorState s x).step ≠ 0 → (sensorState s x).cool.getD ((sensorState s x).step - 1) none = some c → c + 1000000000 ≤ max s.now t →
      ∃ u, exec (.thermalStepExit t x) s = .next u ∧ (sensorState u x).step = (sensorState s x).step - 1 ∧ u = { s with now := max s.now t, thermal := u.thermal }) ∧
    ((sensorState s x).step = 0 → exec (.thermalStepExit t x) s = .next (setNow t s)) ∧
    (∀ th c v, tripOf x = some (th, c) → filtered s x = some v → s.dev.state ≠ .powered → th ≤ v → s.side.tripped = 0 → s.side.switchClosed = true →
      s.pf.flushAt = none → exec (.thermalTrip t x) s = .next { s with now := max s.now t, side := { s.side with
        tripped := c, tripNote := s.side.tripNote + 1, switchClosed := false, openCause := c } }) ∧
    (∀ th c v, tripOf x = some (th, c) → filtered s x = some v → v < th → exec (.thermalTrip t x) s = .next (setNow t s)) ∧
    (tripOf x = none → exec (.thermalTrip t x) s = .next (setNow t s))

/-- A valid input-power sample enters the last ten; with an average above L − 40 W and the last step at least 1 ms ago the
power step goes up by one, to 3 at most. A sample outside 0 to 3,000 W is discarded, 1 ms without a valid one gives power
step 3, and an average below L − 150 W for 10 ms takes one step back. -/
def Obligations.InputPowerSteps : Prop :=
  ∀ (t : Nat) (s : State),
    (∀ w : Int, s.dev.state ≠ .powered → 0 ≤ w → w ≤ 3000 → s.thermal.powerFault = false → ∃ u, exec (.powerSample t w) s = .next u ∧
      u.thermal.samples = (w.toNat :: s.thermal.samples).take 10 ∧ u.thermal.lastPower = max s.now t ∧
      u.thermal.powerStep = (if (powerLimit s - 40) * ((w.toNat :: s.thermal.samples).take 10).length < sumNat ((w.toNat :: s.thermal.samples).take 10) ∧
        s.thermal.powerStep < 3 ∧ (s.thermal.powerStep = 0 ∨ s.thermal.stepAt + 1000000 ≤ max s.now t) then s.thermal.powerStep + 1 else s.thermal.powerStep) ∧
      u = { s with now := max s.now t, thermal := u.thermal }) ∧
    (∀ w : Int, s.dev.state ≠ .powered → (w < 0 ∨ 3000 < w) → exec (.powerSample t w) s = .next { s with now := max s.now t, thermal := { s.thermal with validFrom := none } }) ∧
    (∀ w : Int, s.dev.state = .powered → exec (.powerSample t w) s = .next (setNow t s)) ∧
    (s.dev.state ≠ .powered → max s.thermal.lastPower s.dev.trialAt + 1000000 ≤ max s.now t → ∃ u, exec (.powerSampleTimeout t) s = .next u ∧
      u.thermal.powerStep = 3 ∧ u.thermal.powerFault = true ∧ u.thermal.samples = [] ∧ u = { s with now := max s.now t, thermal := u.thermal }) ∧
    (max s.now t < max s.thermal.lastPower s.dev.trialAt + 1000000 → exec (.powerSampleTimeout t) s = .next (setNow t s)) ∧
    (∀ x, s.thermal.lowFrom = some x → x + 10000000 ≤ max s.now t → 0 < s.thermal.powerStep → s.thermal.powerFault = false → ∃ u, exec (.powerStepExit t) s = .next u ∧
      u.thermal.powerStep = s.thermal.powerStep - 1 ∧ u.thermal.lowFrom = some (max s.now t) ∧ u = { s with now := max s.now t, thermal := u.thermal }) ∧
    (s.thermal.lowFrom = none ∨ s.thermal.powerStep = 0 ∨ s.thermal.powerFault = true → exec (.powerStepExit t) s = .next (setNow t s))

/-! ### Host ports and packets -/

/-- Host ports below Nimox. A down port tries 400, 200 and 100 Gb/s for 500 ms each, comes up at the speed it tries, and starts
again at 400 Gb/s when its link is lost. A port that is up answers ARP, neighbour discovery and echo for its own addresses and
nobody else's, sends LLDP every 30 s, and follows PAUSE of the priorities that PFC_EN names. -/
def Obligations.HostPortsFollowTheirRules : Prop :=
  ∀ (t n : Nat) (s : State),
    let p := hostPort s n
    let s1 := setNow t s
    (alive s = true → s.dev.state ≠ .powered → portInService s n = true → p.linkUp = false → p.trySince + 500000000 ≤ max s.now t →
      exec (.hostLinkAttemptTimeout t n) s = .next (modPort n (fun p => { p with trying := nextSpeed p.trying, trySince := max s.now t }) s1)) ∧
    ((p.linkUp = true ∨ max s.now t < p.trySince + 500000000) → exec (.hostLinkAttemptTimeout t n) s = .next s1) ∧
    (alive s = true → s.dev.state ≠ .powered → portInService s n = true → p.linkUp = false → p.trying ≠ 0 →
      exec (.hostLinkUp t n p.trying) s = .next (modPort n (fun p => { p with linkUp := true, gbps := p.trying }) s1)) ∧
    (∀ g, g ≠ p.trying → exec (.hostLinkUp t n g) s = .next s1) ∧
    (p.linkUp = true → ∃ u, exec (.hostLinkLoss t n) s = .next u ∧ u = { s1 with net := { s.net with ports := u.net.ports } } ∧ n < s.net.ports.length ∧
      (hostPort u n).linkUp = false ∧ (hostPort u n).trying = 400 ∧ (hostPort u n).paused = 0 ∧ (∀ m, m ≠ n → hostPort u m = hostPort s m)) ∧
    (p.linkUp = false → exec (.hostLinkLoss t n) s = .next s1) ∧
    (∀ target ip mac, portUp s n = true → ipv4On s n = true → target.toNat = portAddrBits s n 0 32 →
      exec (.arpRequest t n target ip mac) s = .next { s1 with out := .arpReply n target ip mac :: s.out }) ∧
    (∀ target ip mac, portUp s n = false ∨ ipv4On s n = false ∨ target.toNat ≠ portAddrBits s n 0 32 → exec (.arpRequest t n target ip mac) s = .next s1) ∧
    (∀ target ip, portUp s n = true → portAnswers s n target = true → isMapped target = false →
      exec (.neighborDiscovery t n target ip) s = .next { s1 with out := .neighborAdvert n target ip :: s.out }) ∧
    (∀ target ip, portUp s n = false ∨ portAnswers s n target = false → exec (.neighborDiscovery t n target ip) s = .next s1) ∧
    (∀ dst src k q d, portUp s n = true → portAnswers s n dst = true →
      exec (.icmpEcho t n dst src k q d) s = .next { s1 with out := .icmpReply n dst src k q d :: s.out }) ∧
    (∀ dst src k q d, portUp s n = false ∨ portAnswers s n dst = false → exec (.icmpEcho t n dst src k q d) s = .next s1) ∧
    (portUp s n = true → p.lldpAt + 30000000000 ≤ max s.now t →
      exec (.lldpTransmit t n) s = .next (modPort n (fun p => { p with lldpAt := max s.now t }) { s1 with out := .lldp n s.fixed.serial n :: s.out })) ∧
    (max s.now t < p.lldpAt + 30000000000 → exec (.lldpTransmit t n) s = .next s1) ∧
    (∀ k pause, k < 8 → portUp s n = true → (bits s.regs.nimoxTransport.toNat 38 8).testBit k = true →
      ∃ u, exec (.pfcFrame t n k pause) s = .next u ∧ u = modPort n (fun p => { p with paused := (hostPort u n).paused }) s1 ∧
        (hostPort u n).paused.getLsbD k = pause ∧ ∀ j, j ≠ k → (hostPort u n).paused.getLsbD j = p.paused.getLsbD j) ∧
    (∀ k pause, (bits s.regs.nimoxTransport.toNat 38 8).testBit k = false → exec (.pfcFrame t n k pause) s = .next s1)

/-- On a port of class OBSERVE every RDMA packet is discarded and counted in DENIED; a queue pair is created only on a port of class
OPERATE or ADMIN; and when a port's class becomes OBSERVE every queue pair on it moves to ERROR. -/
def Obligations.ObservePortsCarryNoRdma : Prop :=
  ∀ (t : Nat) (s : State),
    let denied (n : Nat) : State := modPortStats n (fun x => { x with denied := satAdd 32 x.denied 1 }) (setNow t s)
    (∀ p imm, portUp s p.port = true → portClassOf s p.port = 0 →
      exec (.rdmaWrite t p) s = .next (denied p.port) ∧ exec (.rdmaWriteWithImmediate t p imm) s = .next (denied p.port) ∧
        exec (.rdmaRead t p) s = .next (denied p.port)) ∧
    (∀ q n psn code data, getQp s n = some q → portUp s q.port = true → portClassOf s q.port = 0 →
      exec (.ackReceived t n psn) s = .next (denied q.port) ∧ exec (.nakReceived t n psn code) s = .next (denied q.port) ∧
        exec (.rdmaReadResponse t n psn data) s = .next (denied q.port) ∧ exec (.congestionNotificationPacket t n) s = .next (denied q.port)) ∧
    (∀ f, Accepted cmdQpCreate t f s → 1 ≤ portClassOf s (par f 0 1)) ∧
    (∀ f port, port < 8 → Starts cmdSetParam t (setOne f (0x0020 + port) 0 3) s → s.regs.portClass.getD port 0 ≠ 0 → s.regs.portRemain.getD port 0 ≠ 0 →
      ∃ u, exec (.portClass t f port 0) s = .next u ∧ ∀ q ∈ u.rdma.qps, q.port = port → q.state = .error)

/-- RDMA requests as responder. A request on a port of class OBSERVE is discarded and counted, one for no queue pair in RTS of
its port is discarded. A WRITE in order into a plain region that may be written changes exactly its bytes and is acknowledged;
a READ in order returns the region's bytes and changes none; a request that names no region, or that is no WRITE or READ, is
answered with a NAK that ends the queue pair; and one ahead of its order gets a sequence-error NAK and has no effect. How full
the receive buffer stands is free (log entry 14); above 75 % PAUSE stands on every priority of PFC_EN, at 50 % or below on none. -/
def Obligations.RdmaRequestsAreServed : Prop :=
  ∀ (t : Nat) (p : RdmaPkt) (imm : BitVec 32) (s : State),
    let rows : List Instr := [.rdmaWrite t p, .rdmaWriteWithImmediate t p imm, .rdmaRead t p]
    let acked (n : Nat) : BitVec 24 := p.psn + BitVec.ofNat 24 n
    let kept (q : Qp) (u : State) : Prop :=
      u = { s with now := max s.now t, out := u.out, fresh := s.fresh + 1, net := { s.net with ports := u.net.ports }, berths := u.berths,
                   power := { s.power with lastSram := max s.now t }, rdma := { s.rdma with qps := u.rdma.qps, sram := u.rdma.sram } } ∧
        (∀ n, hostPort u n = { hostPort s n with rxFill := (hostPort u n).rxFill, pauseSent := (hostPort u n).pauseSent }) ∧
        (∀ n, n ≠ q.port → hostPort u n = hostPort s n) ∧
        (75 < (hostPort u q.port).rxFill → (hostPort u q.port).pauseSent = (hostPort s q.port).pauseSent ||| pfcEn s) ∧
        ((hostPort u q.port).rxFill ≤ 50 → (hostPort u q.port).pauseSent = 0) ∧
        (∀ b, getBerth u b = { getBerth s b with buckets := (getBerth u b).buckets }) ∧
        ∀ k, k ≠ q.qpn → getQp u k = getQp s k
    let extra (q : Qp) (l : List Output) : Prop := ∀ o ∈ l, o = .cnp q.port q.qpn ∨ ∃ k b, o = .pfc q.port k b
    (portUp s p.port = false → ∀ i ∈ rows, exec i s = .next (setNow t s)) ∧
    (portUp s p.port = true → portClassOf s p.port = 0 → ∀ i ∈ rows,
      exec i s = .next (modPortStats p.port (fun x => { x with denied := satAdd 32 x.denied 1 }) (setNow t s))) ∧
    (portUp s p.port = true → portClassOf s p.port ≠ 0 → (∀ q, getQp s p.qpn = some q → q.port ≠ p.port ∨ q.state ≠ .rts) → ∀ i ∈ rows,
      exec i s = .next (setNow t s)) ∧
    ∀ q, portUp s p.port = true → portClassOf s p.port ≠ 0 → getQp s p.qpn = some q → q.port = p.port → q.state = .rts → s.power.current ≠ 3 →
      -(hostBurst s q.berth) ≤ hostLevel (setNow t s) q.berth q.port →
      (∀ r, p.op = .write → p.psn = q.recvPsn → getRegion s p.rkey = some r → r.owner = .plain → r.berth = q.berth → r.canWrite = true →
        p.offset + p.data.length ≤ r.length → s.mem.poisoned = [] → ∀ i ∈ rows,
        ∃ u l, exec i s = .next u ∧ kept q u ∧ u.out = .rdmaAck q.port q.qpn (acked (packetsOf q.mtu p.data.length - 1)) :: (l ++ s.out) ∧
          extra q l ∧ (getQp u q.qpn).map (fun x => x.recvPsn) = some (acked (packetsOf q.mtu p.data.length)) ∧
          shareMem u r.berth = memWrite (shareMem s r.berth) (r.offset + p.offset) p.data ∧ ∀ b, b ≠ r.berth → shareMem u b = shareMem s b) ∧
      (∀ r, p.op = .read → p.psn = q.recvPsn → getRegion s p.rkey = some r → r.owner = .plain → r.berth = q.berth → r.canRead = true →
        p.offset + p.length ≤ r.length → s.mem.poisoned = [] → ∀ i ∈ rows,
        ∃ u l, exec i s = .next u ∧ kept q u ∧
          u.out = .rdmaReadData q.port q.qpn p.psn (memRead (shareMem s r.berth) (r.offset + p.offset) p.length) :: (l ++ s.out) ∧
          extra q l ∧ (getQp u q.qpn).map (fun x => x.recvPsn) = some (acked (packetsOf q.mtu p.length)) ∧
          u.rdma.sram = s.rdma.sram) ∧
      (p.psn = q.recvPsn → (∀ v ∈ s.vaults, v.send.state = .off) → (p.op = .write ∨ p.op = .read) → getRegion s p.rkey = none → ∀ i ∈ rows,
        ∃ u l, exec i s = .next u ∧ kept q u ∧ u.out = .rdmaNak q.port q.qpn p.psn .remoteAccess :: (l ++ s.out) ∧ extra q l ∧
          u.rdma.sram = s.rdma.sram ∧ ∃ x, getQp u q.qpn = some x ∧ x.state = .error ∧ x.requests = []) ∧
      (p.psn = q.recvPsn → (∀ v ∈ s.vaults, v.send.state = .off) → p.op ≠ .write → p.op ≠ .read → ∀ i ∈ rows,
        ∃ u l, exec i s = .next u ∧ kept q u ∧ u.out = .rdmaNak q.port q.qpn p.psn .invalidRequest :: (l ++ s.out) ∧ extra q l ∧
          u.rdma.sram = s.rdma.sram ∧ ∃ x, getQp u q.qpn = some x ∧ x.state = .error ∧ x.requests = []) ∧
      (p.psn ≠ q.recvPsn → (p.psn - q.recvPsn).toNat < 2 ^ 23 → ∀ i ∈ rows,
        ∃ u l, exec i s = .next u ∧ kept q u ∧ u.out = .rdmaNak q.port q.qpn q.recvPsn .sequenceError :: (l ++ s.out) ∧
          extra q l ∧ u.rdma.sram = s.rdma.sram ∧ (getQp u q.qpn).map (fun x => (x.state, x.recvPsn)) = some (q.state, q.recvPsn))

/-- RDMA requests as requester. An acknowledgement frees the WRITEs it covers, READ data goes to the command that waits for it,
a sequence-error NAK or the acknowledgement timeout sends everything outstanding again until RETRY_CNT is used up, and any other
NAK ends the queue pair. A congestion notification packet halves the rate to a floor of 1 Gb/s, and 55 µs without one add 5 % of
the line rate. -/
def Obligations.RdmaRequesterFollowsItsPeer : Prop :=
  ∀ (t : Nat) (n psn : BitVec 24) (data : Bytes) (code : NakCode) (s : State),
    let s1 := setNow t s
    let ended : State := modQp n (fun q => if q.state = .error then q else { q with state := .error, requests := [], errorSince := ptpNow s1 }) s1
    (getQp s n = none → exec (.ackReceived t n psn) s = .next s1 ∧ exec (.nakReceived t n psn code) s = .next s1 ∧
      exec (.rdmaReadResponse t n psn data) s = .next s1 ∧ exec (.congestionNotificationPacket t n) s = .next s1) ∧
    (∀ q, liveQp s n = some q →
      (∀ r l, q.requests = r :: l → r.isRead = false → psnUpTo (lastPsn q r) psn = true →
        exec (.ackReceived t n psn) s = .next (modQp n (fun x => { x with requests := ackRequests q psn l, retries := 0, timerAt := max s.now t }) s1)) ∧
      (∀ r l, q.requests = r :: l → (r.isRead = true ∨ psnUpTo (lastPsn q r) psn = false) → exec (.ackReceived t n psn) s = .next s1) ∧
      (∀ r l a, readHead q.requests = some (r, l) → r.psn = psn → r.len = data.length → getActive s r.cmd = some a →
        a.awaiting.filter (fun x => x != r.ref) ≠ [] →
        exec (.rdmaReadResponse t n psn data) s = .next (modActive r.cmd (fun a =>
            { a with fetched := (r.ref, data) :: a.fetched.filter (fun x => x.1 != r.ref), awaiting := a.awaiting.filter (fun x => x != r.ref) })
          (modQp n (fun x => { x with requests := l, retries := 0, timerAt := max s.now t }) { s1 with power := { s.power with lastSram := max s.now t } }))) ∧
      (∀ r l, readHead q.requests = some (r, l) → (r.psn ≠ psn ∨ r.len ≠ data.length) → exec (.rdmaReadResponse t n psn data) s = .next s1) ∧
      (code ≠ .sequenceError → q.requests ≠ [] → (∀ v ∈ s.vaults, v.send.state = .off) → exec (.nakReceived t n psn code) s = .next ended) ∧
      (∀ r, q.requests = [r] → r.isRead = false → r.psn = psn → packetsOf q.mtu r.len ≤ 2 ^ 23 → q.retries < q.retryCnt →
        exec (.nakReceived t n psn .sequenceError) s = .next { s1 with
          out := .rdmaWriteRequest q.port q.qpn r.psn r.rkey r.va r.data r.imm :: s.out
          rdma := { s.rdma with qps := s.rdma.qps.map (fun x => if x.qpn == n then { x with requests := [r], retries := x.retries + 1, timerAt := max s.now t } else x) } }) ∧
      (q.requests = [] → exec (.nakReceived t n psn code) s = .next s1) ∧
      (ecnReact s = true → exec (.congestionNotificationPacket t n) s =
        .next (modQp n (fun x => { x with rateMbps := max 1000 (x.rateMbps / 2), lastCnpIn := max s.now t }) s1)) ∧
      (ecnReact s = false → exec (.congestionNotificationPacket t n) s = .next s1)) ∧
    (∀ q, getQp s n = some q → q.state = .rts → alive s = true →
      (q.requests ≠ [] → q.timerAt + 4096 * 2 ^ q.ackTimeout ≤ max s.now t → q.retries < q.retryCnt →
        exec (.ackTimeout t n) s = .next (resendRequests q q.requests (modQp q.qpn (fun x => { x with retries := x.retries + 1, timerAt := max s.now t }) s1))) ∧
      (q.requests ≠ [] → q.timerAt + 4096 * 2 ^ q.ackTimeout ≤ max s.now t → q.retryCnt ≤ q.retries → (∀ v ∈ s.vaults, v.send.state = .off) →
        exec (.ackTimeout t n) s = .next ended) ∧
      (q.requests = [] ∨ max s.now t < q.timerAt + 4096 * 2 ^ q.ackTimeout → exec (.ackTimeout t n) s = .next s1) ∧
      (let line := (hostPort s q.port).gbps * 1000
       (ecnReact s = true → q.lastCnpIn + 55000 ≤ max s.now t → q.rateMbps < line → exec (.rateRecovery t n) s =
         .next (modQp n (fun x => { x with rateMbps := min line (x.rateMbps + line * 5 / 100), lastCnpIn := max s.now t }) s1)) ∧
       (ecnReact s = false ∨ max s.now t < q.lastCnpIn + 55000 ∨ line ≤ q.rateMbps → exec (.rateRecovery t n) s = .next s1)))

/-! ### Network time and the tide -/

/-- Network time follows its master. Messages before management firmware runs change only the time, and ones of another domain,
version or port, or that come from another master, are counted and discarded. An Announce enters its sender; a Sync, with its
Follow_Up when it has two steps, gives origin and arrival; a Delay_Resp completes a measurement, which is discarded when its path
delay is outside 0 to 100 µs and drives the servo otherwise. LOCKED without a measurement for SYNC_TIMEOUT becomes HOLDOVER, the
loss of the last master does so after a lock, and each whole second gives one pulse of the state's width. -/
def Obligations.NetworkTimeFollowsItsMaster : Prop :=
  ∀ (t : Nat) (m : PtpMsg) (s : State), alive s = true →
    let s1 := setNow t s
    let rejected : State := { s1 with clock := { s.clock with rejects := satAdd 32 s.clock.rejects 1 } }
    let mine : Master := { port := m.port, master := m.master, priority := m.priority, interval := m.interval, last := max s.now t }
    (clockRuns s = false → ∀ i ∈ [Instr.sync t m, .followUp t m, .delayResp t m, .ptpAnnounce t m, .delayReqSend t], exec i s = .next s1) ∧
    (clockRuns s = true → ptpAccepts s m = false → ∀ i ∈ [Instr.sync t m, .followUp t m, .delayResp t m, .ptpAnnounce t m], exec i s = .next rejected) ∧
    (clockRuns s = true → fromMaster s m = false → ∀ i ∈ [Instr.sync t m, .followUp t m, .delayResp t m], exec i s = .next rejected) ∧
    (clockRuns s = true → ptpAccepts s m = true → s.clock.masters = [] → s.clock.selected = none → s.clock.state = .unsync →
      exec (.ptpAnnounce t m) s = .next { s1 with clock := { s.clock with
        masters := [mine], selected := some mine, good := 0, bad := 0, lastSync := none, syncs := [], delayReqs := [], state := .acquiring } }) ∧
    (clockRuns s = true → ptpAccepts s m = true → ∃ u, exec (.ptpAnnounce t m) s = .next u ∧ mine ∈ u.clock.masters ∧
      u = { s1 with clock := u.clock } ∧ u.clock.offset = s.clock.offset) ∧
    (clockRuns s = true → ptpAccepts s m = true → fromMaster s m = true →
      (m.twoStep = false → exec (.sync t m) s = .next { s1 with clock := { s.clock with lastSync := some (m.origin, m.arrival) } }) ∧
      (m.twoStep = true → ∃ u, exec (.sync t m) s = .next u ∧ (m.seqId, m.arrival) ∈ u.clock.syncs ∧
        u = { s1 with clock := { s.clock with syncs := u.clock.syncs } }) ∧
      (∀ at0 l, s.clock.syncs = (m.seqId, at0) :: l → max s.now t ≤ at0 + 100000000 → exec (.followUp t m) s = .next { s1 with clock := { s.clock with
        lastSync := some (m.origin, at0), syncs := l.filter (fun y => y.1 != m.seqId) } }) ∧
      ((∀ x ∈ s.clock.syncs, x.1 = m.seqId → x.2 + 100000000 < max s.now t) → exec (.followUp t m) s = .next rejected) ∧
      ((∀ x ∈ s.clock.delayReqs, x.1 = m.seqId → x.2 + 1000000000 < max s.now t) → exec (.delayResp t m) s = .next rejected) ∧
      (s.clock.lastSync = none → exec (.delayResp t m) s = .next rejected) ∧
      ∀ t1 t2 t3 l, s.clock.lastSync = some (t1, t2) → s.clock.delayReqs = (m.seqId, t3) :: l → max s.now t ≤ t3 + 1000000000 →
        let fwd : Int := (t2 : Int) + s.clock.offset - t1
        let back : Int := (m.origin : Int) - ((t3 : Int) + s.clock.offset)
        let off := (fwd - back) / 2
        let left := l.filter (fun x => x.1 != m.seqId)
        ((fwd + back) / 2 < 0 ∨ 100000 < (fwd + back) / 2 → exec (.delayResp t m) s = .next { s1 with clock := { s.clock with
          delayReqs := left, rejects := satAdd 32 s.clock.rejects 1 } }) ∧
        (0 ≤ (fwd + back) / 2 → (fwd + back) / 2 ≤ 100000 → s.clock.state = .acquiring → s.clock.good < 15 → (off - s.clock.servo).natAbs ≤ 200 →
          ∃ u, exec (.delayResp t m) s = .next u ∧ u = { s1 with clock := u.clock } ∧ u.clock.state = .acquiring ∧ u.clock.good = s.clock.good + 1 ∧
            u.clock.servo = off ∧ u.clock.pathNs = ((fwd + back) / 2).toNat ∧ u.clock.offset = s.clock.offset ∧ u.clock.lastGood = max s.now t) ∧
        (0 ≤ (fwd + back) / 2 → (fwd + back) / 2 ≤ 100000 → s.clock.state = .acquiring → s.clock.good = 15 → (off - s.clock.servo).natAbs ≤ 200 →
          s.clock.lockedOnce = false →
          ∃ u, exec (.delayResp t m) s = .next u ∧ u.clock.state = .locked ∧ u.clock.lockedOnce = true ∧ u.clock.offset = s.clock.offset - off ∧
            u.clock.steps = satAdd 16 s.clock.steps 1) ∧
        (0 ≤ (fwd + back) / 2 → (fwd + back) / 2 ≤ 100000 → s.clock.state = .acquiring → 200 < (off - s.clock.servo).natAbs →
          ∃ u, exec (.delayResp t m) s = .next u ∧ u.clock.state = .acquiring ∧ u.clock.good = 0 ∧ u.clock.servo = off)) ∧
    (∀ x, clockRuns s = true → s.clock.selected = some x → ∃ u, exec (.delayReqSend t) s = .next u ∧ u.out = .delayReq x.port (s.clock.delaySeq + 1) :: s.out ∧
      u.clock.delaySeq = s.clock.delaySeq + 1 ∧ (s.clock.delaySeq + 1, max s.now t) ∈ u.clock.delayReqs ∧
      u = { s1 with out := u.out, clock := { s.clock with delaySeq := u.clock.delaySeq, delayReqs := u.clock.delayReqs } }) ∧
    (s.clock.selected = none → exec (.delayReqSend t) s = .next s1 ∧ exec (.masterLoss t) s = .next s1) ∧
    (∀ x, s.clock.selected = some x → max s.now t ≤ x.last + 3 * x.interval → exec (.masterLoss t) s = .next s1) ∧
    (∀ x, s.clock.selected = some x → x.last + 3 * x.interval < max s.now t → (∀ y ∈ s.clock.masters, y.last + 3 * y.interval < max s.now t) →
      ∃ u, exec (.masterLoss t) s = .next u ∧ u = { s1 with clock := u.clock } ∧ u.clock.selected = none ∧ u.clock.masters = [] ∧
        u.clock.state = (if s.clock.lockedOnce then .holdover else .unsync)) ∧
    (s.clock.state = .locked → s.clock.lastGood + ptpBits s 32 16 * 1000000 ≤ max s.now t → ∃ u, exec (.syncTimeout t) s = .next u ∧
      u.clock.state = .holdover ∧ u.clock.holdAt = max s.now t ∧ u.clock.holdovers = satAdd 16 s.clock.holdovers 1 ∧ u.clock.offset = s.clock.offset ∧
      u = { s1 with clock := u.clock }) ∧
    (s.clock.state ≠ .locked ∨ max s.now t < s.clock.lastGood + ptpBits s 32 16 * 1000000 → exec (.syncTimeout t) s = .next s1) ∧
    (clockRuns s = true → s.clock.lastPps < ptpNow s1 / 1000000000 → exec (.ppsPulse t) s = .next { s1 with
      out := .pps (ppsWidth s) :: s.out, clock := { s.clock with lastPps := ptpNow s1 / 1000000000 } }) ∧
    (ptpNow s1 / 1000000000 ≤ s.clock.lastPps → exec (.ppsPulse t) s = .next s1)

/-- The tide. A window opens and closes when PTP time enters and leaves it, and not otherwise; a pending table becomes active at
its switch time. At a part boundary an engine in a slot goes to the slot's owner when that has work, and in open water each berth
keeps its turn for its weight of parts before the next one with work follows; an engine for which nobody has work is free. -/
def Obligations.TideWindowsAndGrants : Prop :=
  ∀ (t e : Nat) (x : Engine) (s : State), alive s = true →
    let s1 := setNow t s
    (e ∈ openWindows s.tide.active (ptpNow s1) → e ∉ s.tide.openWin → exec (.tideWindowStart t e) s = .next { s1 with tide := { s.tide with
      openWin := e :: s.tide.openWin, counted := s.tide.counted.filter (fun i => i != e)
      atStart := foreignGrants s e ++ s.tide.atStart.filter (fun x => x.1 != e) } }) ∧
    (e ∉ openWindows s.tide.active (ptpNow s1) ∨ e ∈ s.tide.openWin → exec (.tideWindowStart t e) s = .next s1) ∧
    (e ∉ openWindows s.tide.active (ptpNow s1) → e ∈ s.tide.openWin → exec (.tideWindowEnd t e) s = .next { s1 with tide := { s.tide with
      openWin := s.tide.openWin.filter (fun i => i != e) } }) ∧
    (e ∈ openWindows s.tide.active (ptpNow s1) ∨ e ∉ s.tide.openWin → exec (.tideWindowEnd t e) s = .next s1) ∧
    (∀ p, s.tide.pending = some p → p.switchAt ≤ ptpNow s1 → exec (.tideTableSwitch t) s = .next { s1 with tide := { s.tide with
      active := p, pending := none, since := p.switchAt, openWin := openWindows p (ptpNow s1), counted := [], atStart := [] } }) ∧
    ((∀ p, s.tide.pending = some p → ptpNow s1 < p.switchAt) → exec (.tideTableSwitch t) s = .next s1) ∧
    ∃ u, exec (.enginePartBoundary t x) s = .next u ∧
      u = { s1 with berths := u.berths, tide := { s.tide with late := u.tide.late, counted := u.tide.counted, atStart := u.tide.atStart },
                    eng := { s.eng with grants := u.eng.grants, cranes := u.eng.cranes } } ∧
      (∀ b, getBerth u b = { getBerth s b with use := { (getBerth s b).use with lateMax := (getBerth u b).use.lateMax } }) ∧
      (∀ y, y ≠ x → grantOf u y = grantOf s y) ∧
      (engineStopped s x = true → grantOf u x = none) ∧
      (engineStopped s x = false →
        (∀ i w, slotOf s x = some (i, w) → readyFor s x w.owner = true → grantOf u x = some (w.owner, 1)) ∧
        (∀ i w, slotOf s x = some (i, w) → readyFor s x w.owner = false → w.backfill = false → grantOf u x = none) ∧
        (slotOf s x = none → grantOf s x = none → grantOf u x = (nextBerth s x 15).map (fun c => (c, 1))) ∧
        (∀ b n, slotOf s x = none → grantOf s x = some (b, n) → n < turnWeight s b → readyFor s x b = true → grantOf u x = some (b, n + 1)) ∧
        (∀ b n, slotOf s x = none → grantOf s x = some (b, n) → (turnWeight s b ≤ n ∨ readyFor s x b = false) →
          grantOf u x = (nextBerth s x b).map (fun c => (c, 1))))

/-! ### Flash media -/

/-- Page reads, programs and erases end. A clean read counts its corrected bits and loses nothing; a page with a codeword that could
not be read retires its block and the codewords that were not rebuilt are lost. A program moves buffered data to media and takes
its bytes into the checkpoint volume; a program that fails retires its block and keeps the buffer. An erase of a superblock of the
last checkpoint gives it a new generation, and never in BRACED. The third unanswered command in a row retires its die. -/
def Obligations.PagesAndBlocksFollowTheirOperations : Prop :=
  ∀ (t : Nat) (s : State), alive s = true →
    let s1 := setNow t s
    let mediaOnly (u : State) : Prop :=
      u = { s1 with lb := u.lb, eng := { s.eng with quays := u.eng.quays, mediaEvents := u.eng.mediaEvents }, indexes := u.indexes
                    media := { s.media with quays := u.media.quays, nss := u.media.nss, holds := u.media.holds, worn := u.media.worn } }
    (∀ r : NandRead, ∃ u, exec (.nandReadComplete t r) s = .next u ∧ mediaOnly u ∧
      (r.failed = [] → r.lost = [] → u.lb = { s.lb with correctedBits := satAdd 64 s.lb.correctedBits r.corrected } ∧ u.media.nss = s.media.nss ∧
        u.media.holds = s.media.holds ∧ (getQuayMedia u r.quay).retired = (getQuayMedia s r.quay).retired) ∧
      (r.failed ≠ [] → r.quay < s.media.quays.length → (r.die, r.plane, r.block) ∈ (getQuayMedia u r.quay).retired) ∧
      (∀ c ∈ r.lost, ∀ id lba, r.target = .ns id lba → ∀ n ∈ u.media.nss, n.nsid = id → lba + c ∈ n.lost.map (fun x => x.1)) ∧
      (∀ id lba, r.target = .ns id lba → ∀ n ∈ u.media.nss, n.nsid ≠ id → ∃ m ∈ s.media.nss, m.nsid = n.nsid ∧ m.lost = n.lost ∧ m.data = n.data)) ∧
    (∀ p : NandProgram, p.ok = true → s.cmds.active = [] → ∃ u, exec (.nandProgramComplete t p) s = .next u ∧
      u.media.volume = s.media.volume + (if p.pslc then 98304 else 294912) ∧ u.eng.wbuf = (programOldest p.quay p.entries s.eng.wbuf s).1 ∧
      (∀ e l, s.eng.wbuf = e :: l → nsQuay e.nsid e.lba = p.quay → p.entries = 1 → u.eng.wbuf = l ∧ u.media.nss = (programEntry e s).media.nss) ∧
      (p.entries = 0 → u.eng.wbuf = s.eng.wbuf ∧ u.media.nss = s.media.nss) ∧
      u = { s1 with eng := { s.eng with wbuf := u.eng.wbuf }, media := { s.media with quays := u.media.quays, nss := u.media.nss, volume := u.media.volume } }) ∧
    (∀ p : NandProgram, p.ok = false → ∃ u, exec (.nandProgramComplete t p) s = .next u ∧ mediaOnly u ∧
      (p.quay < s.media.quays.length → (p.die, p.plane, p.block) ∈ (getQuayMedia u p.quay).retired)) ∧
    (∀ q n, q < s.media.quays.length → (sbOf (getQuayMedia s q) n).use = .inCheckpoint → s.dev.state ≠ .braced →
      ∃ u, exec (.nandEraseComplete t q n []) s = .next u ∧ (sbOf (getQuayMedia u q) n).use = .erased ∧
        (sbOf (getQuayMedia u q) n).gen = (sbOf (getQuayMedia s q) n).gen + 1 ∧ (sbOf (getQuayMedia u q) n).erases = (sbOf (getQuayMedia s q) n).erases + 1 ∧
        (∀ k, k ≠ n → sbOf (getQuayMedia u q) k = sbOf (getQuayMedia s q) k) ∧ u = { s1 with media := { s.media with quays := u.media.quays } }) ∧
    (∀ q n l, (sbOf (getQuayMedia s q) n).use ≠ .inCheckpoint ∨ s.dev.state = .braced → exec (.nandEraseComplete t q n l) s = .next s1) ∧
    (∀ q d, let run := (((getQuayMedia s q).dieTimeouts.find? (fun x => x.1 == d)).map (fun x => x.2)).getD 0
      (run < 2 → exec (.dieCommandTimeout t q d) s = .next (modQuayMedia q (fun m =>
        { m with dieTimeouts := (d, run + 1) :: m.dieTimeouts.filter (fun x => x.1 != d) }) s1)) ∧
      (2 ≤ run → ∃ u, exec (.dieCommandTimeout t q d) s = .next u ∧ mediaOnly u ∧
        (q < s.media.quays.length → d ∈ (getQuayMedia u q).retiredDies ∧ (getQuayMedia u q).dieTimeouts.find? (fun x => x.1 == d) = none)))

/-- The media look after themselves. Dredging settles a quay's mode, and in READY, with work to do, journals one superblock
pending-free; no copy starts outside READY. A relocation of a sealed hold's run moves it and leaves a forwarding entry, and a full
table turns it away; the entry's notice repeats, and the entry expires after 24 h of service. A due map checkpoint covers the
journal and takes every pending-free superblock; wear levelling moves data only when erase counts differ by more than WL_DELTA; a
fold makes an index's lists current. -/
def Obligations.MediaLooksAfterItself : Prop :=
  ∀ (t : Nat) (s : State), alive s = true →
    let s1 := setNow t s
    (∀ q, q < s.eng.quays.length → ∃ u, exec (.dredging t q) s = .next u ∧ (getQuay u q).dredge = dredgeMode s q ∧ (s.dev.state ≠ .ready → u.media = s.media) ∧
      (quayLost s q = false → s.dev.state = .ready → (dredgeMode s q = 1 ∧ quietOn s q = false ∧ s.power.current ≤ 1 ∨ dredgeMode s q = 2) → dredgeable s q ≠ [] →
        q < s.media.quays.length → u.media.journal = s.media.journal + 1 ∧ ∃ v ∈ dredgeable s q, (sbOf (getQuayMedia u q) v.no).use = .pendingFree) ∧
      u = { s1 with fresh := u.fresh, eng := { s.eng with quays := u.eng.quays }, power := { s.power with current := u.power.current, lastNand := u.power.lastNand }
                    media := { s.media with quays := u.media.quays, journal := u.media.journal } }) ∧
    (∀ q, s.dev.state ≠ .ready ∨ quietOn s q = true ∨ 1 < s.power.current ∨
        eraseMax (getQuayMedia s q) - eraseMin (getQuayMedia s q) ≤ mediaCtl s 32 12 → exec (.wearLevelling t q) s = .next s1) ∧
    (∀ q v d, s.dev.state = .ready → quietOn s q = false → s.power.current ≤ 1 → mediaCtl s 32 12 < eraseMax (getQuayMedia s q) - eraseMin (getQuayMedia s q) →
      leastErased (getQuayMedia s q) = some v → mostErased (getQuayMedia s q) = some d → runsOn s q v.no = [] → v.no ≠ d.no → q < s.media.quays.length →
      ∃ u, exec (.wearLevelling t q) s = .next u ∧ (sbOf (getQuayMedia u q) v.no).use = .pendingFree ∧ (sbOf (getQuayMedia u q) d.no).use = v.use ∧
        u = { s1 with media := { s.media with quays := u.media.quays } }) ∧
    (∀ q, (getQuayMedia s q).targetAt + 60000000000 ≤ max s.now t → exec (.pslcPoolTarget t q) s = .next (modQuayMedia q (fun m =>
      { m with fills := (m.fillsNow :: m.fills).take 60, fillsNow := 0, targetAt := max s.now t, target := min 256 (32 + maxNat ((m.fillsNow :: m.fills).take 60)) }) s1)) ∧
    (∀ q, max s.now t < (getQuayMedia s q).targetAt + 60000000000 → exec (.pslcPoolTarget t q) s = .next s1) ∧
    (s.dev.state = .ready ∨ s.dev.state = .braced ∨ s.dev.state = .draining →
      s.media.ckpt.atLocal + mediaCtl s 80 8 * 1000000000 ≤ max s.now t ∨ mediaCtl s 88 8 * 2 ^ 30 ≤ s.media.volume →
      ∃ u, exec (.mapCheckpoint t) s = .next u ∧ u.media.ckpt = { atLocal := max s.now t, ptp := ptpNow s1, journalNo := s.media.journal } ∧ u.media.volume = 0 ∧
        (∀ q, ∀ x ∈ (getQuayMedia u q).sbs, x.use ≠ .pendingFree) ∧ (s.logbook.readOnly = false → u.lbSaved = s.lb) ∧
        u = { s1 with lbSaved := u.lbSaved, media := { s.media with ckpt := u.media.ckpt, volume := 0, quays := u.media.quays } }) ∧
    (max s.now t < s.media.ckpt.atLocal + mediaCtl s 80 8 * 1000000000 → s.media.volume < mediaCtl s 88 8 * 2 ^ 30 → exec (.mapCheckpoint t) s = .next s1) ∧
    (∀ hold run cause, (s.dev.state ≠ .ready ∨ getHold s hold = none) → exec (.relocation t hold run cause) s = .next s1) ∧
    (∀ hold run cause h r, getHold s hold = some h → h.runs[run]? = some r → s.dev.state = .ready → quayLost s h.quay = false → causeHolds s h r cause = true →
      (h.isSealed = false → exec (.relocation t hold run cause) s = .next s1) ∧
      (262144 ≤ s.media.fwds.length → cause ≠ .refresh → exec (.relocation t hold run cause) s = .next s1) ∧
      (h.isSealed = true → s.media.fwds.length < 262144 →
        ∃ u h2 r2 x, exec (.relocation t hold run cause) s = .next u ∧ u.media.fwds = s.media.fwds ++ [x] ∧ x.hold = hold ∧ x.oldToken = tokenOf h r ∧
          x.newToken = tokenOf h2 r2 ∧ x.offset = r.offset ∧ x.length = r.length ∧ x.born = serviceNs s1 ∧ x.lastSent = max s.now t ∧
          getHold u hold = some h2 ∧ h2.runs[run]? = some r2 ∧ r2.offset = r.offset ∧ r2.length = r.length ∧ h2.data = h.data ∧
          (∀ i, i ≠ run → h2.runs[i]? = h.runs[i]?) ∧ u.media.journal = s.media.journal + 1) ∧
      (h.isSealed = true → 262144 ≤ s.media.fwds.length → cause = .refresh →
        ∃ u x, exec (.relocation t hold run cause) s = .next u ∧ u.media.fwds = s.media.fwds.drop 1 ++ [x] ∧ x.hold = hold ∧ x.oldToken = tokenOf h r ∧
          u.lb.fwdEarly = satAdd 32 s.lb.fwdEarly 1)) ∧
    (∀ hold token x, forwardFor s hold token.toNat = some x →
      (x.born + dayNs ≤ serviceNs s1 → ∃ u, exec (.forwardingExpiry t hold token) s = .next u ∧ forwardFor u hold token.toNat = none ∧
        u = { s1 with lb := { s.lb with fwdExpired := satAdd 32 s.lb.fwdExpired 1 }, media := { s.media with fwds := u.media.fwds } }) ∧
      (serviceNs s1 < x.born + dayNs → exec (.forwardingExpiry t hold token) s = .next s1) ∧
      (∀ h, getHold s hold = some h → x.lastSent + mediaCtl s 48 16 * 1000000000 ≤ max s.now t →
        ∃ u y, exec (.noticeRepeat t hold token) s = .next u ∧ forwardFor u hold token.toNat = some y ∧ y = { x with lastSent := max s.now t } ∧
          u = { s1 with out := u.out, net := u.net, media := { s.media with fwds := u.media.fwds } }) ∧
      (max s.now t < x.lastSent + mediaCtl s 48 16 * 1000000000 → exec (.noticeRepeat t hold token) s = .next s1)) ∧
    (∀ hold token, forwardFor s hold token.toNat = none → exec (.forwardingExpiry t hold token) s = .next s1 ∧ exec (.noticeRepeat t hold token) s = .next s1) ∧
    (∀ q n, exec (.quayLinkLoss t q n) s = .next (modQuay q (fun x =>
      { x with replays := satAdd 32 x.replays n, link := (if x.link = .up then .training 1 (max s.now t) else x.link) }) s1)) ∧
    (∀ q k at0, (getQuay s q).link = .training k at0 →
      exec (.quayLinkLock t q) s = .next (modQuay q (fun x => { x with link := .up }) s1) ∧
      (max s.now t < at0 + 1000000 → exec (.quayLinkTrainTimeout t q) s = .next s1) ∧
      (at0 + 1000000 ≤ max s.now t → k < 3 → exec (.quayLinkTrainTimeout t q) s = .next (modQuay q (fun x => { x with link := .training (k + 1) (max s.now t) }) s1)) ∧
      (at0 + 1000000 ≤ max s.now t → 3 ≤ k → ∃ u, exec (.quayLinkTrainTimeout t q) s = .next u ∧ quayLost u q = true ∧
        u.media.nss = s.media.nss.map (fun n => if nsOnQuay n q then { n with state := .offline } else n))) ∧
    (∀ q, (getQuay s q).link = .up ∨ (getQuay s q).link = .lost → exec (.quayLinkLock t q) s = .next s1 ∧ exec (.quayLinkTrainTimeout t q) s = .next s1) ∧
    (∀ k q x, getIndex s k = some x → (s.dev.state = .ready ∨ s.dev.state = .draining) → s.power.current ≤ 1 → x.state ≠ .offline → quayLost s q = false → quietOn s q = false →
      exec (.indexFold t k q) s = .next ((foldsDue s x q).foldl (fun st n => foldList k n st) s1)) ∧
    (∀ k q, (s.dev.state ≠ .ready ∧ s.dev.state ≠ .draining) ∨ 1 < s.power.current ∨ quietOn s q = true ∨ getIndex s k = none → exec (.indexFold t k q) s = .next s1)

/-! ### What the vault does by itself -/

/-- The vault's own events. A consolidation starts when one is due and ends with its checkpoint consolidated or, where a digest
fails, BROKEN; none moves outside READY and DRAINING, above P1 or in a QUIET window. CAPTURE_DUE goes out once, at its time. The receiver takes
HELLO, BEGIN and END in the order in which they came and acknowledges END with its outcome; the sender takes credit, an
acknowledgement ends the checkpoint it sent, a stream that makes no progress changes to the alternate queue pair or goes DOWN, and
a retry waits for its time. -/
def Obligations.VaultEventsComplete : Prop :=
  ∀ (t b : Nat) (s : State), alive s = true →
    let s1 := setNow t s
    let secs (lo w : Nat) : Nat := vaultCtl s b lo w * 1000000000
    (getVault s b = none → ∀ i ∈ [Instr.consolidation t b, .captureDue t b, .hello t b, .begin t b, .endRecord t b, .credit t b, .acknowledgement t b,
      .replTimeout t b, .replRetry t b], exec i s = .next s1) ∧
    ∀ v, getVault s b = some v →
      (v.send.state = .off → ((s.dev.state ≠ .ready ∧ s.dev.state ≠ .draining) ∨ 1 < s.power.current ∨ ∃ q < 24, quietOn s q = true) → exec (.consolidation t b) s = .next s1) ∧
      (v.send.state = .off → (s.dev.state = .ready ∨ s.dev.state = .draining) → s.power.current ≤ 1 → (∀ q < 24, quietOn s q = false) →
        (v.consRunning = none → consDue s1 v = false → exec (.consolidation t b) s = .next s1) ∧
        (∀ c, v.consRunning = none → consDue s1 v = true → newestCaptured v none = some c → ∃ u, exec (.consolidation t b) s = .next u ∧
          (getVault u b).map (fun w => (w.consRunning, w.consAt)) = some (some (c.id, max s.now t), ptpNow s1) ∧
          u = { s1 with vaults := u.vaults, cmds := { s.cmds with active := u.cmds.active } } ∧ ∀ k, k ≠ b → getVault u k = getVault s k) ∧
        (∀ id at0 c, v.consRunning = some (id, at0) → v.ckpt id = some c → c.state = .captured →
          ((c.tensors.findSome? (tensorFault s1 v c)).isSome = true → newestCaptured v (some c.id) = none → b < s.berths.length →
            ∃ u, exec (.consolidation t b) s = .next u ∧ (getBerth u b).vstats.digestFails = satAdd 16 (getBerth s b).vstats.digestFails 1 ∧
              (getVault u b).map (fun w => w.consRunning) = some none ∧ ((getVault u b).bind (fun w => w.ckpt id)).map (fun d => d.state) = some .broken) ∧
          ((c.tensors.findSome? (tensorFault s1 v c)).isSome = false → b < s.berths.length →
            tlcUsed v + (sumNat (((consCkpt v c).tensors.filter (fun x => x.copy == c.id)).map Tensor.full) + manifestLen (consCkpt v c).tensors.length) ≤ v.tlc →
            ∃ u, exec (.consolidation t b) s = .next u ∧ (getBerth u b).vstats.consolidations = satAdd 32 (getBerth s b).vstats.consolidations 1 ∧
              (getVault u b).map (fun w => w.consRunning) = some none ∧ u.media.journal = s.media.journal + 1))) ∧
      (v.lastBegin = none ∨ v.dueSent = true ∨ vaultCtl s b 48 1 = 0 → exec (.captureDue t b) s = .next s1) ∧
      (∀ step at0, v.lastBegin = some (step, at0) → v.dueSent = false → vaultCtl s b 48 1 ≠ 0 → vaultCtl s b 16 32 ≠ 0 → vaultCtl s b 0 16 ≠ 0 →
        let due := captureDueAt s b v at0
        (ptpNow s1 < (vaultSlotAt s b due).getD due → exec (.captureDue t b) s = .next s1) ∧
        ((vaultSlotAt s b due).getD due ≤ ptpNow s1 → ∃ u, exec (.captureDue t b) s = .next u ∧ getVault u b = some { v with dueSent := true } ∧
          (noticeOn s b = true → portUp s (noticeBits s b 0 3) = true → ∃ p ip udp y, u.out = .notice p ip udp y :: s.out ∧ y.opcode = 0x0680 ∧ y.berth = b ∧
            y.fields = toLE 8 step ++ toLE 8 due) ∧ u = { s1 with vaults := u.vaults, out := u.out, net := { s.net with ports := u.net.ports } })) ∧
      (headRecord s b 1 = none → exec (.hello t b) s = .next s1) ∧ (headRecord s b 2 = none → exec (.begin t b) s = .next s1) ∧
      (headRecord s b 3 = none → exec (.endRecord t b) s = .next s1) ∧
      (∀ r bs l, v.recv = some r →
        (r.todo = (1, bs) :: l → ∃ u, exec (.hello t b) s = .next u ∧ u = { s1 with vaults := u.vaults } ∧ getVault u b = some { v with
          recv := some { r with todo := l, ackRkey := BitVec.ofNat 32 (getLE bs 0 4), begun := none } }) ∧
        (r.todo = (2, bs) :: l → ∃ u, exec (.begin t b) s = .next u ∧ u = { s1 with vaults := u.vaults } ∧ getVault u b = some { v with
          recv := some { r with todo := l, begun := some (getLE bs 0 4, getLE bs 4 4, getLE bs 8 8, getLE bs 16 8, getLE bs 24 8) } }) ∧
        (∀ st, r.todo = (3, bs) :: l → buildReplica s1 b v r = .inl st → ∃ u, exec (.endRecord t b) s = .next u ∧
          getVault u b = some { v with recv := some { r with todo := l, begun := none, stream := [] } } ∧
          (∀ q, r.ackRkey ≠ 0 → getQp s r.lastQpn = some q → u.out = .rdmaWriteRequest q.port q.qpn q.sendPsn r.ackRkey 8
            (toLE 4 (getLE bs 0 4) ++ toLE 2 st ++ zeros 2 ++ toLE 4 0 ++ zeros 4) none :: s.out) ∧
          u = { s1 with vaults := u.vaults, out := u.out, rdma := { s.rdma with qps := u.rdma.qps } }) ∧
        (∀ w c, r.todo = (3, bs) :: l → buildReplica s1 b v r = .inr (w, c) → ∃ u, exec (.endRecord t b) s = .next u ∧
          (getVault u b).map (fun x => (x.lastId, x.recv)) =
            some (w.lastId, some { r with todo := l, begun := none, stream := [], refs := (getLE bs 0 4, c.id) :: r.refs }) ∧
          (∀ q, r.ackRkey ≠ 0 → getQp s r.lastQpn = some q → u.out = .rdmaWriteRequest q.port q.qpn q.sendPsn r.ackRkey 8
            (toLE 4 (getLE bs 0 4) ++ toLE 2 stOk ++ zeros 2 ++ toLE 4 c.id ++ zeros 4) none :: s.out))) ∧
      (ackRegion s v = none → exec (.credit t b) s = .next s1 ∧ exec (.acknowledgement t b) s = .next s1) ∧
      (∀ r, ackRegion s v = some r →
        let c := getLE (memRead (sideMem s b r.index) 0 8) 0 8
        let bs := memRead (sideMem s b r.index) 8 16
        (v.send.state = .off ∨ c ≤ v.send.credit → exec (.credit t b) s = .next s1) ∧
        (v.send.state ≠ .off → v.send.credit < c → ∃ u, exec (.credit t b) s = .next u ∧
          (getVault u b).map (fun w => (w.send.credit, w.send.progressAt)) = some (c, max s.now t)) ∧
        (v.send.state = .off ∨ getLE bs 0 4 = 0 ∨ v.send.current ≠ some (getLE bs 0 4) → exec (.acknowledgement t b) s = .next s1) ∧
        (v.send.state ≠ .off → getLE bs 0 4 ≠ 0 → v.send.current = some (getLE bs 0 4) →
          (getLE bs 4 2 = stOk → ∃ u, exec (.acknowledgement t b) s = .next u ∧
            (getVault u b).map (fun w => (w.send.lastAcked, w.send.ackedAt, w.send.sent)) = some (getLE bs 0 4, ptpNow s1, satAdd 32 v.send.sent 1)) ∧
          (getLE bs 4 2 ≠ stOk → getLE bs 4 2 ≠ stDigestMismatch → getLE bs 4 2 ≠ stStateConflict → ∃ u, exec (.acknowledgement t b) s = .next u ∧
            (getVault u b).map (fun w => (w.send.current, w.send.retryAt)) = some (v.send.current, some (max s.now t + secs 58 6))))) ∧
      ((v.send.state ≠ .sending ∨ v.send.current = none ∨ v.send.retryAt ≠ none ∨ max s.now t < v.send.progressAt + secs 50 8) →
        exec (.replTimeout t b) s = .next s1) ∧
      (v.send.state = .sending → v.send.current ≠ none → v.send.retryAt = none → v.send.progressAt + secs 50 8 ≤ max s.now t →
        ((v.send.altQpn = 0 ∨ v.send.alt = true ∨ qpRts s v.send.altQpn = false) → ∃ u, exec (.replTimeout t b) s = .next u ∧
          (getVault u b).map (fun w => (w.send.state, w.send.downs, w.send.retryAt)) = some (.down, satAdd 32 v.send.downs 1, some (max s.now t + secs 58 6))) ∧
        (v.send.altQpn ≠ 0 → v.send.alt = false → qpRts s v.send.altQpn = true → ∃ u, exec (.replTimeout t b) s = .next u ∧
          (getVault u b).map (fun w => (w.send.alt, w.send.state, w.send.progressAt)) = some (true, .sending, max s.now t))) ∧
      (v.send.retryAt = none ∨ v.send.state = .off → exec (.replRetry t b) s = .next s1) ∧
      (∀ x, v.send.retryAt = some x →
        (max s.now t < x → exec (.replRetry t b) s = .next s1) ∧
        (x ≤ max s.now t → v.send.state = .down → qpRts s v.send.qpn = false → (v.send.altQpn = 0 ∨ qpRts s v.send.altQpn = false) → ∃ u,
          exec (.replRetry t b) s = .next u ∧ getVault u b = some { v with send := { v.send with retryAt := some (max s.now t + secs 58 6) } } ∧
          u = { s1 with vaults := u.vaults }) ∧
        (x ≤ max s.now t → v.send.state = .down → qpRts s v.send.qpn = true → ∃ u, exec (.replRetry t b) s = .next u ∧
          (getVault u b).map (fun w => w.send.alt) = some false ∧ ∀ w, getVault u b = some w → w.send.state ≠ .down))

/-! ### Hawser -/

/-- Frames on a hawser port. A port that does not listen takes none. A frame with uncorrectable errors, a wrong CRC or a broken
field is counted and answered with one NAK; an IDLE frame acknowledges and returns credits. A frame in order is accepted: DATA
reaches the memory of its flow, FLOW_OPEN opens one, FLOW_ACK lets a flow's data go, WORK is taken by a member, RESULT joins its
work's results, TOPO replaces what the module knows of its sender, ANNOUNCE is taken once, and two equal IDENT frames let training
judge the wiring. -/
def Obligations.HawserFramesAreTaken : Prop :=
  ∀ (t : Nat) (r : HawserRx) (s : State),
    let f := readFrame r.bytes
    let p := r.port
    let m := f.payload
    let h := hawserPort s p
    let w := hawserTaken t r s
    let rows : List Instr := [.idle t r, .data t r, .ident t r, .topo t r, .flowOpen t r, .flowAck t r, .work t r, .result t r, .announce t r]
    (alive s = false ∨ 6 ≤ p ∨ listens h = false → ∀ i ∈ rows, exec i s = .next (setNow t s)) ∧
    (alive s = true → p < 6 → p < s.hawser.ports.length → carries h.state = true → h.nakDone = false →
      r.fecOk = false ∨ frameCrcOk r.bytes = false ∨ frameBad r.bytes = true → ∀ i ∈ rows, ∃ u, exec i s = .next u ∧
        u.out = .hawser p (HFrame.bytes { typ := 0, vl := 31, ack := (h.rxNext - 1).toNat, crVl := 31, nak := true }) :: s.out ∧
        hawserPort u p = { h with
          nakDone := true, fecCorr := satAdd 32 h.fecCorr r.corrected, fecUncorr := (if r.fecOk then h.fecUncorr else satAdd 32 h.fecUncorr 1)
          badFrames := (if r.fecOk = true ∧ frameCrcOk r.bytes = true then satAdd 16 h.badFrames 1 else h.badFrames) } ∧
        u = { s with now := max s.now t, out := u.out, hawser := { s.hawser with ports := u.hawser.ports } }) ∧
    (∀ k, alive s = true → p < 6 → carries h.state = true → r.fecOk = true → frameCrcOk r.bytes = true → frameBad r.bytes = false → f.typ = 0 → h.txq = [] →
      f.nak = false → p < s.hawser.credits.length → h.replay.findIdx? (fun x => x.1 == BitVec.ofNat 16 f.ack) = some k →
      ∃ u, exec (.idle t r) s = .next u ∧ (hawserPort u p).replay = h.replay.drop (k + 1) ∧ (hawserPort u p).ackAt = max s.now t ∧
        creditsOf u p = (if f.crCount = 0 then creditsOf s p else returnCredits f.crVl f.crCount (creditsOf s p)) ∧
        u = { s with now := max s.now t, hawser := { s.hawser with ports := u.hawser.ports, credits := u.hawser.credits } }) ∧
    (HawserTakes r s → f.typ = 1 → f.dest = moduleNo s →
      (findFlow s f.src (BitVec.ofNat 32 f.flow) = none → exec (.data t r) s = .next (modHawserPort p (fun h => { h with flowUnknown := satAdd 8 h.flowUnknown 1 }) w)) ∧
      ∀ fl, findFlow s f.src (BitVec.ofNat 32 f.flow) = some fl →
        (flowComplete fl = true → exec (.data t r) s = .next (modHawserPort p (fun h => { h with flowUnknown := satAdd 8 h.flowUnknown 1 }) w)) ∧
        (flowComplete fl = false → fl.work = none → ∃ u, exec (.data t r) s = .next u ∧
          (let at0 := fl.offset + f.frameNo * 992
           shareMem u fl.berth = memWrite (shareMem s fl.berth) at0 ((dataBytes fl f).take (sramShare s fl.berth - at0))) ∧
          (∀ b, b ≠ fl.berth → shareMem u b = shareMem s b) ∧ (∃ g, findFlow u f.src (BitVec.ofNat 32 f.flow) = some g ∧ f.frameNo ∈ g.frames ∧ g.bytes = fl.bytes) ∧
          u = { w with hawser := { w.hawser with flows := u.hawser.flows }, rdma := { s.rdma with sram := u.rdma.sram } })) ∧
    (HawserTakes r s → f.typ = 2 → f.dest = moduleNo s → f.last = true → s.hawser.partialMsg = [] →
      (getLE m 0 2 = 3 → findFlow s f.src (BitVec.ofNat 32 (getLE m 2 4)) = none →
        (openFlows s < 4096 → ∃ u x, exec (.flowOpen t r) s = .next u ∧ u.hawser.flows = s.hawser.flows ++ [x] ∧ x.src = f.src ∧
          x.flow = BitVec.ofNat 32 (getLE m 2 4) ∧ x.berth = getLE m 6 1 ∧ x.offset = getLE m 10 8 ∧ x.bytes = getLE m 18 8 ∧ x.frames = [] ∧ u.cmds = s.cmds) ∧
        (4096 ≤ openFlows s → ∃ u, exec (.flowOpen t r) s = .next u ∧ u.hawser.flows = s.hawser.flows ∧ u.cmds = s.cmds)) ∧
      (getLE m 0 2 = 4 →
        (s.hawser.txFlows.find? (fun x => x.flow == BitVec.ofNat 32 (getLE m 2 4) && x.dest == f.src) = none → exec (.flowAck t r) s = .next w) ∧
        (∀ x, s.hawser.txFlows.find? (fun x => x.flow == BitVec.ofNat 32 (getLE m 2 4) && x.dest == f.src) = some x →
          ∃ u, exec (.flowAck t r) s = .next u ∧ u.hawser.txFlows = s.hawser.txFlows.filter (fun y => y.flow != BitVec.ofNat 32 (getLE m 2 4)) ∧ u.cmds = s.cmds)) ∧
      (getLE m 0 2 = 5 →
        (specOf (getLE m 2 2) = none → ∃ u, exec (.work t r) s = .next u ∧ u.cmds = s.cmds ∧ u.rdma = s.rdma) ∧
        (getLE m 2 2 = 0x0810 → memberRefuse cmdCollective w (memberFrame f.flow cmdCollective m) = none →
          ∃ u, exec (.work t r) s = .next u ∧ u.cmds.nextId = s.cmds.nextId + 1 ∧
            ∃ a ∈ u.cmds.active, a.id = s.cmds.nextId ∧ a.opcode = 0x0810 ∧ a.origin = some (f.src, getLE m 4 4) ∧ a.frame.berth = f.flow)) ∧
      (getLE m 0 2 = 6 → ∀ a x, s.cmds.active.find? (fun a => a.frame.berth == f.flow && a.frame.tag.toNat == getLE m 2 4 && a.origin.isNone
          && ((getWork s a.id).map (fun w => w.waiting.contains f.src)).getD false) = some a → getWork s a.id = some x → isSuccess (readBlock (m.drop 6)).status = true →
        ∃ u, exec (.result t r) s = .next u ∧ getWork u a.id = some { x with waiting := x.waiting.erase f.src, results := x.results ++ [(f.src, m.drop 6)] } ∧
          u = { w with hawser := { w.hawser with works := u.hawser.works } }) ∧
      (getLE m 0 2 = 2 →
        let src := getLE m 2 2
        let v := BitVec.ofNat 16 (getLE m 22 2)
        (src = moduleNo s ∨ newerTopo s src v = false → exec (.topo t r) s = .next w) ∧
        (src ≠ moduleNo s → newerTopo s src v = true → ∃ u, exec (.topo t r) s = .next u ∧
          (∀ x ∈ u.hawser.fleet, x.module = src → x.neighbours = topoNeighbours m ∧ x.version = v) ∧
          (src ∉ fleetModules s → ∃ x ∈ u.hawser.fleet, x.module = src) ∧ u.cmds = s.cmds))) ∧
    (HawserTakes r s → f.typ = 3 →
      (f.src = moduleNo s ∨ (f.src, getLE m 0 4) ∈ s.hawser.seenAnn → exec (.announce t r) s = .next w) ∧
      (f.src ≠ moduleNo s → (f.src, getLE m 0 4) ∉ s.hawser.seenAnn → getLE m 6 1 = 1 → peerEn s = true → getLE m 7 1 % 4 ≠ 0 → s.storm.peers ≠ [] →
        ∃ u, exec (.announce t r) s = .next u ∧ u.hawser.seenAnn = (f.src, getLE m 0 4) :: s.hawser.seenAnn ∧
          u.storm.peers = { module := f.src, last := max s.now t } :: s.storm.peers.filter (fun x => x.module != f.src) ∧ u.dev = s.dev)) ∧
    (alive s = true → p < 6 → p < s.hawser.ports.length → h.state = .training → h.step = 4 → r.fecOk = true → frameCrcOk r.bytes = true → frameBad r.bytes = false →
      isIdent f = true →
      (identValid (padTo 32 m) = false → exec (.ident t r) s = .next (hawserHeard t r s)) ∧
      (identValid (padTo 32 m) = true → h.lastIdent ≠ some (padTo 32 m) →
        exec (.ident t r) s = .next (modHawserPort p (fun h => { h with lastIdent := some (padTo 32 m) }) (sendIdent p (hawserHeard t r s)))) ∧
      (identValid (padTo 32 m) = true → h.lastIdent = some (padTo 32 m) → getLE (padTo 32 m) 4 4 ≠ fleetId s →
        ∃ u, exec (.ident t r) s = .next u ∧ (hawserPort u p).state = .foreign ∧ (hawserPort u p).peerModule = identModule (padTo 32 m) ∧ u.cmds = s.cmds))

/-- Hawser links. Signal on a port that may train starts an attempt at step 2, and lane lock begins the IDENT exchange on 8 or on 4
lanes. Step 2 ends after 20 ms with the lanes that have locked; the timeout of another step ends the attempt, and the third failed
attempt leaves the port DOWN, which tries again after 10 s. Unacknowledged frames go out again after 10 µs. A port that is FOREIGN,
MISWIRED or CONFLICT repeats its check every 10 s, and one that loses its signal goes DOWN. -/
def Obligations.HawserLinksTrainAndFail : Prop :=
  ∀ (t p : Nat) (s : State), alive s = true → p < 6 → p < s.hawser.ports.length →
    let s1 := setNow t s
    let h := hawserPort s p
    let restarted (u : State) : Prop := (hawserPort u p).state = .training ∧ (hawserPort u p).step = 2 ∧ (hawserPort u p).stepAt = max s.now t ∧
      (hawserPort u p).locked = 0 ∧ u.cmds = s.cmds
    let log := max s.now t :: h.resendLog.filter (fun x => decide (max s.now t < x + 1000000))
    (carries h.state = false ∨ h.replay = [] ∨ max s.now t < h.ackAt + 10000 → exec (.hawserReplayTimeout t p) s = .next s1) ∧
    (carries h.state = true → h.replay ≠ [] → h.ackAt + 10000 ≤ max s.now t →
      (log.length ≤ 16 → ∃ u, exec (.hawserReplayTimeout t p) s = .next u ∧ u.out = (h.replay.map (fun x => Output.hawser p x.2)).reverse ++ s.out ∧
        hawserPort u p = { h with replays := satAdd 32 h.replays h.replay.length, resendLog := log, ackAt := max s.now t } ∧
        u = { s1 with out := u.out, hawser := { s.hawser with ports := u.hawser.ports } }) ∧
      (16 < log.length → ∃ u, exec (.hawserReplayTimeout t p) s = .next u ∧ restarted u)) ∧
    (h.signal = true → exec (.hawserTraining t p) s = .next s1) ∧
    (h.signal = false → (mayTrain s p = false ∨ (h.state ≠ .down ∧ h.state ≠ .absent)) →
      exec (.hawserTraining t p) s = .next (modHawserPort p (fun h => { h with signal := true }) s1)) ∧
    (h.signal = false → mayTrain s p = true → h.state = .down ∨ h.state = .absent → ∃ u, exec (.hawserTraining t p) s = .next u ∧ restarted u ∧
      (hawserPort u p).signal = true) ∧
    (∀ n, h.state = .training → h.step = 2 ∨ h.step = 3 → n = 4 ∨ n = 8 → ∃ u, exec (.laneLock t p n) s = .next u ∧
      hawserPort u p = { h with locked := n, step := 4, stepAt := max s.now t, lastIdent := none } ∧ (∃ b, u.out = .hawser p b :: s.out) ∧
      u = { s1 with out := u.out, hawser := { s.hawser with ports := u.hawser.ports } }) ∧
    (∀ n, h.state ≠ .training ∨ (h.step ≠ 2 ∧ h.step ≠ 3) ∨ (n ≠ 4 ∧ n ≠ 8) → exec (.laneLock t p n) s = .next s1) ∧
    (h.state ≠ .training ∨ max s.now t < h.stepAt + stepTimeout h.step → exec (.trainingStepTimeout t p) s = .next s1) ∧
    (h.state = .training → h.stepAt + stepTimeout h.step ≤ max s.now t →
      (h.step = 2 → exec (.trainingStepTimeout t p) s = .next (modHawserPort p (fun h => { h with step := 3, stepAt := max s.now t }) s1)) ∧
      (h.step ≠ 2 → h.failures < 2 → ∃ u, exec (.trainingStepTimeout t p) s = .next u ∧ restarted u ∧ (hawserPort u p).failures = h.failures + 1) ∧
      (h.step ≠ 2 → 2 ≤ h.failures → ∃ u, exec (.trainingStepTimeout t p) s = .next u ∧ (hawserPort u p).state = .down ∧ u.cmds = s.cmds)) ∧
    (mayTrain s p = true → (h.state = .down ∧ h.signal = true) ∨ h.state = .narrow → h.stepAt + 10000000000 ≤ max s.now t →
      ∃ u, exec (.hawserDownRetry t p) s = .next u ∧ restarted u) ∧
    (mayTrain s p = false ∨ (h.state = .down ∧ h.signal = false) ∨ (h.state ≠ .down ∧ h.state ≠ .narrow) ∨ max s.now t < h.stepAt + 10000000000 →
      exec (.hawserDownRetry t p) s = .next s1) ∧
    (mayTrain s p = true → h.state = .foreign ∨ h.state = .miswired ∨ h.state = .conflict → h.stepAt + 10000000000 ≤ max s.now t →
      (h.lastIdent = none → ∃ b, exec (.identRecheck t p) s = .next (modHawserPort p (fun h => { h with stepAt := max s.now t }) { s1 with out := .hawser p b :: s.out })) ∧
      (∀ m, h.lastIdent = some m → getLE m 4 4 ≠ fleetId s → ∃ u, exec (.identRecheck t p) s = .next u ∧ (hawserPort u p).state = .foreign)) ∧
    (mayTrain s p = false ∨ (h.state ≠ .foreign ∧ h.state ≠ .miswired ∧ h.state ≠ .conflict) ∨ max s.now t < h.stepAt + 10000000000 →
      exec (.identRecheck t p) s = .next s1) ∧
    (h.signal = false → exec (.hawserSignalLoss t p) s = .next s1) ∧
    (h.signal = true → h.state = .absent ∨ h.state = .down → exec (.hawserSignalLoss t p) s = .next (modHawserPort p (fun h => { h with signal := false }) s1)) ∧
    (h.signal = true → h.state ≠ .absent → h.state ≠ .down → ∃ u, exec (.hawserSignalLoss t p) s = .next u ∧ (hawserPort u p).state = .down ∧
      (hawserPort u p).signal = false ∧ u.cmds = s.cmds)

/-! ### Integrity -/

/-- The patrol scrub reads SRAM words from MOUNTING onward outside P3. A correctable error is counted for its unit, an uncorrectable
one poisons its word and is counted, and where it holds the state of management firmware the module seals and resets; a word already
poisoned is skipped, and the end of a unit's pass counts the pass. A rewrite from the durable source ends the poisoning. -/
def Obligations.ScrubFindsAndRewritesErrors : Prop :=
  ∀ (t : Nat) (w : SramWord) (s : State), alive s = true →
    let s1 := setNow t s
    let runs := s.dev.state = .mounting ∨ s.dev.state = .ready ∨ s.dev.state = .braced ∨ s.dev.state = .draining
    (∀ x, ¬ runs ∨ s.power.current = 3 ∨ isUnit s w.unit w.index = false → exec (.patrolScrub t w x) s = .next s1) ∧
    (runs → s.power.current ≠ 3 → isUnit s w.unit w.index = true →
      exec (.patrolScrub t w .clean) s = .next s1 ∧
      (wordPlace w ∈ s.mem.poisoned → (∀ k, exec (.patrolScrub t w (.correctable k)) s = .next s1) ∧ ∀ k, exec (.patrolScrub t w (.uncorrectable k)) s = .next s1) ∧
      (∀ k, wordPlace w ∉ s.mem.poisoned → ∃ u, exec (.patrolScrub t w (.correctable k)) s = .next u ∧ u.mem.ce = satAdd 64 s.mem.ce 1 ∧
        (unitStats u w.unit w.index).ce = satAdd 32 (unitStats s w.unit w.index).ce 1 ∧ u.mem.poisoned = s.mem.poisoned ∧
        u = { s1 with mem := u.mem, repairs := u.repairs }) ∧
      (∀ k, wordPlace w ∉ s.mem.poisoned → ∃ u, exec (.patrolScrub t w (.uncorrectable k)) s = .next u ∧ u.mem.poisoned = wordPlace w :: s.mem.poisoned ∧
        u.lb.memUe = satAdd 32 s.lb.memUe 1 ∧
        (Config.mgmtState (wordPlace w) = true → s.dev.resetSeal = none → u.dev.resetSeal = some 5 ∧ u.lb.memResets = satAdd 32 s.lb.memResets 1) ∧
        (Config.mgmtState (wordPlace w) = false → u.dev = s.dev) ∧ u.cmds = s.cmds ∧ u.rdma = s.rdma) ∧
      (∃ u, exec (.patrolScrub t w .passEnd) s = .next u ∧ (unitStats u w.unit w.index).passes = satAdd 32 (unitStats s w.unit w.index).passes 1 ∧
        (unitStats u w.unit w.index).passAt = max s.now t ∧ u.mem.poisoned = s.mem.poisoned ∧ u = { s1 with mem := u.mem, repairs := u.repairs })) ∧
    exec (.poisonRewrite t w) s = .next { s1 with mem := { s.mem with poisoned := s.mem.poisoned.filter (fun x => x != wordPlace w) } }
end

