-- ==== Sys2Proof/Laws/State.lean ====
section
/-! SUPPORT. One lemma per field of State for each named update, so that no later proof unfolds a record update. -/

namespace Sys2Proof.Machine

/-! ### setNow -/

@[simp] theorem setNow_pending (t : Nat) (s : State) : (setNow t s).pending = s.pending := rfl
@[simp] theorem setNow_now (t : Nat) (s : State) : (setNow t s).now = max s.now t := rfl
@[simp] theorem setNow_fresh (t : Nat) (s : State) : (setNow t s).fresh = s.fresh := rfl
@[simp] theorem setNow_out (t : Nat) (s : State) : (setNow t s).out = s.out := rfl
@[simp] theorem setNow_fixed (t : Nat) (s : State) : (setNow t s).fixed = s.fixed := rfl
@[simp] theorem setNow_dev (t : Nat) (s : State) : (setNow t s).dev = s.dev := rfl
@[simp] theorem setNow_power (t : Nat) (s : State) : (setNow t s).power = s.power := rfl
@[simp] theorem setNow_net (t : Nat) (s : State) : (setNow t s).net = s.net := rfl
@[simp] theorem setNow_cmds (t : Nat) (s : State) : (setNow t s).cmds = s.cmds := rfl
@[simp] theorem setNow_rdma (t : Nat) (s : State) : (setNow t s).rdma = s.rdma := rfl
@[simp] theorem setNow_regs (t : Nat) (s : State) : (setNow t s).regs = s.regs := rfl
@[simp] theorem setNow_lb (t : Nat) (s : State) : (setNow t s).lb = s.lb := rfl
@[simp] theorem setNow_lbSaved (t : Nat) (s : State) : (setNow t s).lbSaved = s.lbSaved := rfl
@[simp] theorem setNow_media (t : Nat) (s : State) : (setNow t s).media = s.media := rfl
@[simp] theorem setNow_eng (t : Nat) (s : State) : (setNow t s).eng = s.eng := rfl
@[simp] theorem setNow_plans (t : Nat) (s : State) : (setNow t s).plans = s.plans := rfl
@[simp] theorem setNow_lastPlan (t : Nat) (s : State) : (setNow t s).lastPlan = s.lastPlan := rfl
@[simp] theorem setNow_indexes (t : Nat) (s : State) : (setNow t s).indexes = s.indexes := rfl
@[simp] theorem setNow_lastIndex (t : Nat) (s : State) : (setNow t s).lastIndex = s.lastIndex := rfl
@[simp] theorem setNow_vaults (t : Nat) (s : State) : (setNow t s).vaults = s.vaults := rfl
@[simp] theorem setNow_berths (t : Nat) (s : State) : (setNow t s).berths = s.berths := rfl
@[simp] theorem setNow_clock (t : Nat) (s : State) : (setNow t s).clock = s.clock := rfl
@[simp] theorem setNow_tide (t : Nat) (s : State) : (setNow t s).tide = s.tide := rfl
@[simp] theorem setNow_hawser (t : Nat) (s : State) : (setNow t s).hawser = s.hawser := rfl
@[simp] theorem setNow_storm (t : Nat) (s : State) : (setNow t s).storm = s.storm := rfl
@[simp] theorem setNow_motionLog (t : Nat) (s : State) : (setNow t s).motionLog = s.motionLog := rfl
@[simp] theorem setNow_lastEvent (t : Nat) (s : State) : (setNow t s).lastEvent = s.lastEvent := rfl
@[simp] theorem setNow_pf (t : Nat) (s : State) : (setNow t s).pf = s.pf := rfl
@[simp] theorem setNow_mem (t : Nat) (s : State) : (setNow t s).mem = s.mem := rfl
@[simp] theorem setNow_repairs (t : Nat) (s : State) : (setNow t s).repairs = s.repairs := rfl
@[simp] theorem setNow_logbook (t : Nat) (s : State) : (setNow t s).logbook = s.logbook := rfl
@[simp] theorem setNow_logLive (t : Nat) (s : State) : (setNow t s).logLive = s.logLive := rfl
@[simp] theorem setNow_trust (t : Nat) (s : State) : (setNow t s).trust = s.trust := rfl
@[simp] theorem setNow_boot (t : Nat) (s : State) : (setNow t s).boot = s.boot := rfl
@[simp] theorem setNow_side (t : Nat) (s : State) : (setNow t s).side = s.side := rfl
@[simp] theorem setNow_thermal (t : Nat) (s : State) : (setNow t s).thermal = s.thermal := rfl

/-! ### useFresh -/

@[simp] theorem useFresh_pending (s : State) : (useFresh s).pending = s.pending := rfl
@[simp] theorem useFresh_now (s : State) : (useFresh s).now = s.now := rfl
@[simp] theorem useFresh_fresh (s : State) : (useFresh s).fresh = s.fresh + 1 := rfl
@[simp] theorem useFresh_out (s : State) : (useFresh s).out = s.out := rfl
@[simp] theorem useFresh_fixed (s : State) : (useFresh s).fixed = s.fixed := rfl
@[simp] theorem useFresh_dev (s : State) : (useFresh s).dev = s.dev := rfl
@[simp] theorem useFresh_power (s : State) : (useFresh s).power = s.power := rfl
@[simp] theorem useFresh_net (s : State) : (useFresh s).net = s.net := rfl
@[simp] theorem useFresh_cmds (s : State) : (useFresh s).cmds = s.cmds := rfl
@[simp] theorem useFresh_rdma (s : State) : (useFresh s).rdma = s.rdma := rfl
@[simp] theorem useFresh_regs (s : State) : (useFresh s).regs = s.regs := rfl
@[simp] theorem useFresh_lb (s : State) : (useFresh s).lb = s.lb := rfl
@[simp] theorem useFresh_lbSaved (s : State) : (useFresh s).lbSaved = s.lbSaved := rfl
@[simp] theorem useFresh_media (s : State) : (useFresh s).media = s.media := rfl
@[simp] theorem useFresh_eng (s : State) : (useFresh s).eng = s.eng := rfl
@[simp] theorem useFresh_plans (s : State) : (useFresh s).plans = s.plans := rfl
@[simp] theorem useFresh_lastPlan (s : State) : (useFresh s).lastPlan = s.lastPlan := rfl
@[simp] theorem useFresh_indexes (s : State) : (useFresh s).indexes = s.indexes := rfl
@[simp] theorem useFresh_lastIndex (s : State) : (useFresh s).lastIndex = s.lastIndex := rfl
@[simp] theorem useFresh_vaults (s : State) : (useFresh s).vaults = s.vaults := rfl
@[simp] theorem useFresh_berths (s : State) : (useFresh s).berths = s.berths := rfl
@[simp] theorem useFresh_clock (s : State) : (useFresh s).clock = s.clock := rfl
@[simp] theorem useFresh_tide (s : State) : (useFresh s).tide = s.tide := rfl
@[simp] theorem useFresh_hawser (s : State) : (useFresh s).hawser = s.hawser := rfl
@[simp] theorem useFresh_storm (s : State) : (useFresh s).storm = s.storm := rfl
@[simp] theorem useFresh_motionLog (s : State) : (useFresh s).motionLog = s.motionLog := rfl
@[simp] theorem useFresh_lastEvent (s : State) : (useFresh s).lastEvent = s.lastEvent := rfl
@[simp] theorem useFresh_pf (s : State) : (useFresh s).pf = s.pf := rfl
@[simp] theorem useFresh_mem (s : State) : (useFresh s).mem = s.mem := rfl
@[simp] theorem useFresh_repairs (s : State) : (useFresh s).repairs = s.repairs := rfl
@[simp] theorem useFresh_logbook (s : State) : (useFresh s).logbook = s.logbook := rfl
@[simp] theorem useFresh_logLive (s : State) : (useFresh s).logLive = s.logLive := rfl
@[simp] theorem useFresh_trust (s : State) : (useFresh s).trust = s.trust := rfl
@[simp] theorem useFresh_boot (s : State) : (useFresh s).boot = s.boot := rfl
@[simp] theorem useFresh_side (s : State) : (useFresh s).side = s.side := rfl
@[simp] theorem useFresh_thermal (s : State) : (useFresh s).thermal = s.thermal := rfl

/-! ### emit -/

@[simp] theorem emit_pending (o : Output) (s : State) : (emit o s).pending = s.pending := rfl
@[simp] theorem emit_now (o : Output) (s : State) : (emit o s).now = s.now := rfl
@[simp] theorem emit_fresh (o : Output) (s : State) : (emit o s).fresh = s.fresh := rfl
@[simp] theorem emit_out (o : Output) (s : State) : (emit o s).out = o :: s.out := rfl
@[simp] theorem emit_fixed (o : Output) (s : State) : (emit o s).fixed = s.fixed := rfl
@[simp] theorem emit_dev (o : Output) (s : State) : (emit o s).dev = s.dev := rfl
@[simp] theorem emit_power (o : Output) (s : State) : (emit o s).power = s.power := rfl
@[simp] theorem emit_net (o : Output) (s : State) : (emit o s).net = s.net := rfl
@[simp] theorem emit_cmds (o : Output) (s : State) : (emit o s).cmds = s.cmds := rfl
@[simp] theorem emit_rdma (o : Output) (s : State) : (emit o s).rdma = s.rdma := rfl
@[simp] theorem emit_regs (o : Output) (s : State) : (emit o s).regs = s.regs := rfl
@[simp] theorem emit_lb (o : Output) (s : State) : (emit o s).lb = s.lb := rfl
@[simp] theorem emit_lbSaved (o : Output) (s : State) : (emit o s).lbSaved = s.lbSaved := rfl
@[simp] theorem emit_media (o : Output) (s : State) : (emit o s).media = s.media := rfl
@[simp] theorem emit_eng (o : Output) (s : State) : (emit o s).eng = s.eng := rfl
@[simp] theorem emit_plans (o : Output) (s : State) : (emit o s).plans = s.plans := rfl
@[simp] theorem emit_lastPlan (o : Output) (s : State) : (emit o s).lastPlan = s.lastPlan := rfl
@[simp] theorem emit_indexes (o : Output) (s : State) : (emit o s).indexes = s.indexes := rfl
@[simp] theorem emit_lastIndex (o : Output) (s : State) : (emit o s).lastIndex = s.lastIndex := rfl
@[simp] theorem emit_vaults (o : Output) (s : State) : (emit o s).vaults = s.vaults := rfl
@[simp] theorem emit_berths (o : Output) (s : State) : (emit o s).berths = s.berths := rfl
@[simp] theorem emit_clock (o : Output) (s : State) : (emit o s).clock = s.clock := rfl
@[simp] theorem emit_tide (o : Output) (s : State) : (emit o s).tide = s.tide := rfl
@[simp] theorem emit_hawser (o : Output) (s : State) : (emit o s).hawser = s.hawser := rfl
@[simp] theorem emit_storm (o : Output) (s : State) : (emit o s).storm = s.storm := rfl
@[simp] theorem emit_motionLog (o : Output) (s : State) : (emit o s).motionLog = s.motionLog := rfl
@[simp] theorem emit_lastEvent (o : Output) (s : State) : (emit o s).lastEvent = s.lastEvent := rfl
@[simp] theorem emit_pf (o : Output) (s : State) : (emit o s).pf = s.pf := rfl
@[simp] theorem emit_mem (o : Output) (s : State) : (emit o s).mem = s.mem := rfl
@[simp] theorem emit_repairs (o : Output) (s : State) : (emit o s).repairs = s.repairs := rfl
@[simp] theorem emit_logbook (o : Output) (s : State) : (emit o s).logbook = s.logbook := rfl
@[simp] theorem emit_logLive (o : Output) (s : State) : (emit o s).logLive = s.logLive := rfl
@[simp] theorem emit_trust (o : Output) (s : State) : (emit o s).trust = s.trust := rfl
@[simp] theorem emit_boot (o : Output) (s : State) : (emit o s).boot = s.boot := rfl
@[simp] theorem emit_side (o : Output) (s : State) : (emit o s).side = s.side := rfl
@[simp] theorem emit_thermal (o : Output) (s : State) : (emit o s).thermal = s.thermal := rfl

/-! ### modPort -/

@[simp] theorem modPort_pending (n : Nat) (g : HostPort → HostPort) (s : State) : (modPort n g s).pending = s.pending := rfl
@[simp] theorem modPort_now (n : Nat) (g : HostPort → HostPort) (s : State) : (modPort n g s).now = s.now := rfl
@[simp] theorem modPort_fresh (n : Nat) (g : HostPort → HostPort) (s : State) : (modPort n g s).fresh = s.fresh := rfl
@[simp] theorem modPort_out (n : Nat) (g : HostPort → HostPort) (s : State) : (modPort n g s).out = s.out := rfl
@[simp] theorem modPort_fixed (n : Nat) (g : HostPort → HostPort) (s : State) : (modPort n g s).fixed = s.fixed := rfl
@[simp] theorem modPort_dev (n : Nat) (g : HostPort → HostPort) (s : State) : (modPort n g s).dev = s.dev := rfl
@[simp] theorem modPort_power (n : Nat) (g : HostPort → HostPort) (s : State) : (modPort n g s).power = s.power := rfl
@[simp] theorem modPort_net (n : Nat) (g : HostPort → HostPort) (s : State) : (modPort n g s).net = { s.net with ports := s.net.ports.modify n g } := rfl
@[simp] theorem modPort_cmds (n : Nat) (g : HostPort → HostPort) (s : State) : (modPort n g s).cmds = s.cmds := rfl
@[simp] theorem modPort_rdma (n : Nat) (g : HostPort → HostPort) (s : State) : (modPort n g s).rdma = s.rdma := rfl
@[simp] theorem modPort_regs (n : Nat) (g : HostPort → HostPort) (s : State) : (modPort n g s).regs = s.regs := rfl
@[simp] theorem modPort_lb (n : Nat) (g : HostPort → HostPort) (s : State) : (modPort n g s).lb = s.lb := rfl
@[simp] theorem modPort_lbSaved (n : Nat) (g : HostPort → HostPort) (s : State) : (modPort n g s).lbSaved = s.lbSaved := rfl
@[simp] theorem modPort_media (n : Nat) (g : HostPort → HostPort) (s : State) : (modPort n g s).media = s.media := rfl
@[simp] theorem modPort_eng (n : Nat) (g : HostPort → HostPort) (s : State) : (modPort n g s).eng = s.eng := rfl
@[simp] theorem modPort_plans (n : Nat) (g : HostPort → HostPort) (s : State) : (modPort n g s).plans = s.plans := rfl
@[simp] theorem modPort_lastPlan (n : Nat) (g : HostPort → HostPort) (s : State) : (modPort n g s).lastPlan = s.lastPlan := rfl
@[simp] theorem modPort_indexes (n : Nat) (g : HostPort → HostPort) (s : State) : (modPort n g s).indexes = s.indexes := rfl
@[simp] theorem modPort_lastIndex (n : Nat) (g : HostPort → HostPort) (s : State) : (modPort n g s).lastIndex = s.lastIndex := rfl
@[simp] theorem modPort_vaults (n : Nat) (g : HostPort → HostPort) (s : State) : (modPort n g s).vaults = s.vaults := rfl
@[simp] theorem modPort_berths (n : Nat) (g : HostPort → HostPort) (s : State) : (modPort n g s).berths = s.berths := rfl
@[simp] theorem modPort_clock (n : Nat) (g : HostPort → HostPort) (s : State) : (modPort n g s).clock = s.clock := rfl
@[simp] theorem modPort_tide (n : Nat) (g : HostPort → HostPort) (s : State) : (modPort n g s).tide = s.tide := rfl
@[simp] theorem modPort_hawser (n : Nat) (g : HostPort → HostPort) (s : State) : (modPort n g s).hawser = s.hawser := rfl
@[simp] theorem modPort_storm (n : Nat) (g : HostPort → HostPort) (s : State) : (modPort n g s).storm = s.storm := rfl
@[simp] theorem modPort_motionLog (n : Nat) (g : HostPort → HostPort) (s : State) : (modPort n g s).motionLog = s.motionLog := rfl
@[simp] theorem modPort_lastEvent (n : Nat) (g : HostPort → HostPort) (s : State) : (modPort n g s).lastEvent = s.lastEvent := rfl
@[simp] theorem modPort_pf (n : Nat) (g : HostPort → HostPort) (s : State) : (modPort n g s).pf = s.pf := rfl
@[simp] theorem modPort_mem (n : Nat) (g : HostPort → HostPort) (s : State) : (modPort n g s).mem = s.mem := rfl
@[simp] theorem modPort_repairs (n : Nat) (g : HostPort → HostPort) (s : State) : (modPort n g s).repairs = s.repairs := rfl
@[simp] theorem modPort_logbook (n : Nat) (g : HostPort → HostPort) (s : State) : (modPort n g s).logbook = s.logbook := rfl
@[simp] theorem modPort_logLive (n : Nat) (g : HostPort → HostPort) (s : State) : (modPort n g s).logLive = s.logLive := rfl
@[simp] theorem modPort_trust (n : Nat) (g : HostPort → HostPort) (s : State) : (modPort n g s).trust = s.trust := rfl
@[simp] theorem modPort_boot (n : Nat) (g : HostPort → HostPort) (s : State) : (modPort n g s).boot = s.boot := rfl
@[simp] theorem modPort_side (n : Nat) (g : HostPort → HostPort) (s : State) : (modPort n g s).side = s.side := rfl
@[simp] theorem modPort_thermal (n : Nat) (g : HostPort → HostPort) (s : State) : (modPort n g s).thermal = s.thermal := rfl

/-! ### modBerth -/

@[simp] theorem modBerth_pending (b : Nat) (g : Berth → Berth) (s : State) : (modBerth b g s).pending = s.pending := rfl
@[simp] theorem modBerth_now (b : Nat) (g : Berth → Berth) (s : State) : (modBerth b g s).now = s.now := rfl
@[simp] theorem modBerth_fresh (b : Nat) (g : Berth → Berth) (s : State) : (modBerth b g s).fresh = s.fresh := rfl
@[simp] theorem modBerth_out (b : Nat) (g : Berth → Berth) (s : State) : (modBerth b g s).out = s.out := rfl
@[simp] theorem modBerth_fixed (b : Nat) (g : Berth → Berth) (s : State) : (modBerth b g s).fixed = s.fixed := rfl
@[simp] theorem modBerth_dev (b : Nat) (g : Berth → Berth) (s : State) : (modBerth b g s).dev = s.dev := rfl
@[simp] theorem modBerth_power (b : Nat) (g : Berth → Berth) (s : State) : (modBerth b g s).power = s.power := rfl
@[simp] theorem modBerth_net (b : Nat) (g : Berth → Berth) (s : State) : (modBerth b g s).net = s.net := rfl
@[simp] theorem modBerth_cmds (b : Nat) (g : Berth → Berth) (s : State) : (modBerth b g s).cmds = s.cmds := rfl
@[simp] theorem modBerth_rdma (b : Nat) (g : Berth → Berth) (s : State) : (modBerth b g s).rdma = s.rdma := rfl
@[simp] theorem modBerth_regs (b : Nat) (g : Berth → Berth) (s : State) : (modBerth b g s).regs = s.regs := rfl
@[simp] theorem modBerth_lb (b : Nat) (g : Berth → Berth) (s : State) : (modBerth b g s).lb = s.lb := rfl
@[simp] theorem modBerth_lbSaved (b : Nat) (g : Berth → Berth) (s : State) : (modBerth b g s).lbSaved = s.lbSaved := rfl
@[simp] theorem modBerth_media (b : Nat) (g : Berth → Berth) (s : State) : (modBerth b g s).media = s.media := rfl
@[simp] theorem modBerth_eng (b : Nat) (g : Berth → Berth) (s : State) : (modBerth b g s).eng = s.eng := rfl
@[simp] theorem modBerth_plans (b : Nat) (g : Berth → Berth) (s : State) : (modBerth b g s).plans = s.plans := rfl
@[simp] theorem modBerth_lastPlan (b : Nat) (g : Berth → Berth) (s : State) : (modBerth b g s).lastPlan = s.lastPlan := rfl
@[simp] theorem modBerth_indexes (b : Nat) (g : Berth → Berth) (s : State) : (modBerth b g s).indexes = s.indexes := rfl
@[simp] theorem modBerth_lastIndex (b : Nat) (g : Berth → Berth) (s : State) : (modBerth b g s).lastIndex = s.lastIndex := rfl
@[simp] theorem modBerth_vaults (b : Nat) (g : Berth → Berth) (s : State) : (modBerth b g s).vaults = s.vaults := rfl
@[simp] theorem modBerth_berths (b : Nat) (g : Berth → Berth) (s : State) : (modBerth b g s).berths = s.berths.modify b g := rfl
@[simp] theorem modBerth_clock (b : Nat) (g : Berth → Berth) (s : State) : (modBerth b g s).clock = s.clock := rfl
@[simp] theorem modBerth_tide (b : Nat) (g : Berth → Berth) (s : State) : (modBerth b g s).tide = s.tide := rfl
@[simp] theorem modBerth_hawser (b : Nat) (g : Berth → Berth) (s : State) : (modBerth b g s).hawser = s.hawser := rfl
@[simp] theorem modBerth_storm (b : Nat) (g : Berth → Berth) (s : State) : (modBerth b g s).storm = s.storm := rfl
@[simp] theorem modBerth_motionLog (b : Nat) (g : Berth → Berth) (s : State) : (modBerth b g s).motionLog = s.motionLog := rfl
@[simp] theorem modBerth_lastEvent (b : Nat) (g : Berth → Berth) (s : State) : (modBerth b g s).lastEvent = s.lastEvent := rfl
@[simp] theorem modBerth_pf (b : Nat) (g : Berth → Berth) (s : State) : (modBerth b g s).pf = s.pf := rfl
@[simp] theorem modBerth_mem (b : Nat) (g : Berth → Berth) (s : State) : (modBerth b g s).mem = s.mem := rfl
@[simp] theorem modBerth_repairs (b : Nat) (g : Berth → Berth) (s : State) : (modBerth b g s).repairs = s.repairs := rfl
@[simp] theorem modBerth_logbook (b : Nat) (g : Berth → Berth) (s : State) : (modBerth b g s).logbook = s.logbook := rfl
@[simp] theorem modBerth_logLive (b : Nat) (g : Berth → Berth) (s : State) : (modBerth b g s).logLive = s.logLive := rfl
@[simp] theorem modBerth_trust (b : Nat) (g : Berth → Berth) (s : State) : (modBerth b g s).trust = s.trust := rfl
@[simp] theorem modBerth_boot (b : Nat) (g : Berth → Berth) (s : State) : (modBerth b g s).boot = s.boot := rfl
@[simp] theorem modBerth_side (b : Nat) (g : Berth → Berth) (s : State) : (modBerth b g s).side = s.side := rfl
@[simp] theorem modBerth_thermal (b : Nat) (g : Berth → Berth) (s : State) : (modBerth b g s).thermal = s.thermal := rfl

/-! ### setQueue -/

@[simp] theorem setQueue_pending (q : Queue) (s : State) : (setQueue q s).pending = s.pending := rfl
@[simp] theorem setQueue_now (q : Queue) (s : State) : (setQueue q s).now = s.now := rfl
@[simp] theorem setQueue_fresh (q : Queue) (s : State) : (setQueue q s).fresh = s.fresh := rfl
@[simp] theorem setQueue_out (q : Queue) (s : State) : (setQueue q s).out = s.out := rfl
@[simp] theorem setQueue_fixed (q : Queue) (s : State) : (setQueue q s).fixed = s.fixed := rfl
@[simp] theorem setQueue_dev (q : Queue) (s : State) : (setQueue q s).dev = s.dev := rfl
@[simp] theorem setQueue_power (q : Queue) (s : State) : (setQueue q s).power = s.power := rfl
@[simp] theorem setQueue_cmds (q : Queue) (s : State) : (setQueue q s).cmds = s.cmds := rfl
@[simp] theorem setQueue_rdma (q : Queue) (s : State) : (setQueue q s).rdma = s.rdma := rfl
@[simp] theorem setQueue_regs (q : Queue) (s : State) : (setQueue q s).regs = s.regs := rfl
@[simp] theorem setQueue_lb (q : Queue) (s : State) : (setQueue q s).lb = s.lb := rfl
@[simp] theorem setQueue_lbSaved (q : Queue) (s : State) : (setQueue q s).lbSaved = s.lbSaved := rfl
@[simp] theorem setQueue_media (q : Queue) (s : State) : (setQueue q s).media = s.media := rfl
@[simp] theorem setQueue_eng (q : Queue) (s : State) : (setQueue q s).eng = s.eng := rfl
@[simp] theorem setQueue_plans (q : Queue) (s : State) : (setQueue q s).plans = s.plans := rfl
@[simp] theorem setQueue_lastPlan (q : Queue) (s : State) : (setQueue q s).lastPlan = s.lastPlan := rfl
@[simp] theorem setQueue_indexes (q : Queue) (s : State) : (setQueue q s).indexes = s.indexes := rfl
@[simp] theorem setQueue_lastIndex (q : Queue) (s : State) : (setQueue q s).lastIndex = s.lastIndex := rfl
@[simp] theorem setQueue_vaults (q : Queue) (s : State) : (setQueue q s).vaults = s.vaults := rfl
@[simp] theorem setQueue_berths (q : Queue) (s : State) : (setQueue q s).berths = s.berths := rfl
@[simp] theorem setQueue_clock (q : Queue) (s : State) : (setQueue q s).clock = s.clock := rfl
@[simp] theorem setQueue_tide (q : Queue) (s : State) : (setQueue q s).tide = s.tide := rfl
@[simp] theorem setQueue_hawser (q : Queue) (s : State) : (setQueue q s).hawser = s.hawser := rfl
@[simp] theorem setQueue_storm (q : Queue) (s : State) : (setQueue q s).storm = s.storm := rfl
@[simp] theorem setQueue_motionLog (q : Queue) (s : State) : (setQueue q s).motionLog = s.motionLog := rfl
@[simp] theorem setQueue_lastEvent (q : Queue) (s : State) : (setQueue q s).lastEvent = s.lastEvent := rfl
@[simp] theorem setQueue_pf (q : Queue) (s : State) : (setQueue q s).pf = s.pf := rfl
@[simp] theorem setQueue_mem (q : Queue) (s : State) : (setQueue q s).mem = s.mem := rfl
@[simp] theorem setQueue_repairs (q : Queue) (s : State) : (setQueue q s).repairs = s.repairs := rfl
@[simp] theorem setQueue_logbook (q : Queue) (s : State) : (setQueue q s).logbook = s.logbook := rfl
@[simp] theorem setQueue_logLive (q : Queue) (s : State) : (setQueue q s).logLive = s.logLive := rfl
@[simp] theorem setQueue_trust (q : Queue) (s : State) : (setQueue q s).trust = s.trust := rfl
@[simp] theorem setQueue_boot (q : Queue) (s : State) : (setQueue q s).boot = s.boot := rfl
@[simp] theorem setQueue_side (q : Queue) (s : State) : (setQueue q s).side = s.side := rfl
@[simp] theorem setQueue_thermal (q : Queue) (s : State) : (setQueue q s).thermal = s.thermal := rfl

/-! ### resetQueues -/

@[simp] theorem resetQueues_pending (b : Nat) (s : State) : (resetQueues b s).pending = s.pending := rfl
@[simp] theorem resetQueues_now (b : Nat) (s : State) : (resetQueues b s).now = s.now := rfl
@[simp] theorem resetQueues_fresh (b : Nat) (s : State) : (resetQueues b s).fresh = s.fresh := rfl
@[simp] theorem resetQueues_out (b : Nat) (s : State) : (resetQueues b s).out = s.out := rfl
@[simp] theorem resetQueues_fixed (b : Nat) (s : State) : (resetQueues b s).fixed = s.fixed := rfl
@[simp] theorem resetQueues_dev (b : Nat) (s : State) : (resetQueues b s).dev = s.dev := rfl
@[simp] theorem resetQueues_power (b : Nat) (s : State) : (resetQueues b s).power = s.power := rfl
@[simp] theorem resetQueues_net (b : Nat) (s : State) : (resetQueues b s).net = { s.net with queues := s.net.queues.filter (fun x => x.berth != b) } := rfl
@[simp] theorem resetQueues_cmds (b : Nat) (s : State) : (resetQueues b s).cmds = s.cmds := rfl
@[simp] theorem resetQueues_rdma (b : Nat) (s : State) : (resetQueues b s).rdma = s.rdma := rfl
@[simp] theorem resetQueues_regs (b : Nat) (s : State) : (resetQueues b s).regs = s.regs := rfl
@[simp] theorem resetQueues_lb (b : Nat) (s : State) : (resetQueues b s).lb = s.lb := rfl
@[simp] theorem resetQueues_lbSaved (b : Nat) (s : State) : (resetQueues b s).lbSaved = s.lbSaved := rfl
@[simp] theorem resetQueues_media (b : Nat) (s : State) : (resetQueues b s).media = s.media := rfl
@[simp] theorem resetQueues_eng (b : Nat) (s : State) : (resetQueues b s).eng = s.eng := rfl
@[simp] theorem resetQueues_plans (b : Nat) (s : State) : (resetQueues b s).plans = s.plans := rfl
@[simp] theorem resetQueues_lastPlan (b : Nat) (s : State) : (resetQueues b s).lastPlan = s.lastPlan := rfl
@[simp] theorem resetQueues_indexes (b : Nat) (s : State) : (resetQueues b s).indexes = s.indexes := rfl
@[simp] theorem resetQueues_lastIndex (b : Nat) (s : State) : (resetQueues b s).lastIndex = s.lastIndex := rfl
@[simp] theorem resetQueues_vaults (b : Nat) (s : State) : (resetQueues b s).vaults = s.vaults := rfl
@[simp] theorem resetQueues_berths (b : Nat) (s : State) : (resetQueues b s).berths = s.berths := rfl
@[simp] theorem resetQueues_clock (b : Nat) (s : State) : (resetQueues b s).clock = s.clock := rfl
@[simp] theorem resetQueues_tide (b : Nat) (s : State) : (resetQueues b s).tide = s.tide := rfl
@[simp] theorem resetQueues_hawser (b : Nat) (s : State) : (resetQueues b s).hawser = s.hawser := rfl
@[simp] theorem resetQueues_storm (b : Nat) (s : State) : (resetQueues b s).storm = s.storm := rfl
@[simp] theorem resetQueues_motionLog (b : Nat) (s : State) : (resetQueues b s).motionLog = s.motionLog := rfl
@[simp] theorem resetQueues_lastEvent (b : Nat) (s : State) : (resetQueues b s).lastEvent = s.lastEvent := rfl
@[simp] theorem resetQueues_pf (b : Nat) (s : State) : (resetQueues b s).pf = s.pf := rfl
@[simp] theorem resetQueues_mem (b : Nat) (s : State) : (resetQueues b s).mem = s.mem := rfl
@[simp] theorem resetQueues_repairs (b : Nat) (s : State) : (resetQueues b s).repairs = s.repairs := rfl
@[simp] theorem resetQueues_logbook (b : Nat) (s : State) : (resetQueues b s).logbook = s.logbook := rfl
@[simp] theorem resetQueues_logLive (b : Nat) (s : State) : (resetQueues b s).logLive = s.logLive := rfl
@[simp] theorem resetQueues_trust (b : Nat) (s : State) : (resetQueues b s).trust = s.trust := rfl
@[simp] theorem resetQueues_boot (b : Nat) (s : State) : (resetQueues b s).boot = s.boot := rfl
@[simp] theorem resetQueues_side (b : Nat) (s : State) : (resetQueues b s).side = s.side := rfl
@[simp] theorem resetQueues_thermal (b : Nat) (s : State) : (resetQueues b s).thermal = s.thermal := rfl

/-! ### modActive -/

@[simp] theorem modActive_pending (n : Nat) (g : Active → Active) (s : State) : (modActive n g s).pending = s.pending := rfl
@[simp] theorem modActive_now (n : Nat) (g : Active → Active) (s : State) : (modActive n g s).now = s.now := rfl
@[simp] theorem modActive_fresh (n : Nat) (g : Active → Active) (s : State) : (modActive n g s).fresh = s.fresh := rfl
@[simp] theorem modActive_out (n : Nat) (g : Active → Active) (s : State) : (modActive n g s).out = s.out := rfl
@[simp] theorem modActive_fixed (n : Nat) (g : Active → Active) (s : State) : (modActive n g s).fixed = s.fixed := rfl
@[simp] theorem modActive_dev (n : Nat) (g : Active → Active) (s : State) : (modActive n g s).dev = s.dev := rfl
@[simp] theorem modActive_power (n : Nat) (g : Active → Active) (s : State) : (modActive n g s).power = s.power := rfl
@[simp] theorem modActive_net (n : Nat) (g : Active → Active) (s : State) : (modActive n g s).net = s.net := rfl
@[simp] theorem modActive_cmds (n : Nat) (g : Active → Active) (s : State) : (modActive n g s).cmds = { s.cmds with active := s.cmds.active.map (fun a => if a.id == n then g a else a) } := rfl
@[simp] theorem modActive_rdma (n : Nat) (g : Active → Active) (s : State) : (modActive n g s).rdma = s.rdma := rfl
@[simp] theorem modActive_regs (n : Nat) (g : Active → Active) (s : State) : (modActive n g s).regs = s.regs := rfl
@[simp] theorem modActive_lb (n : Nat) (g : Active → Active) (s : State) : (modActive n g s).lb = s.lb := rfl
@[simp] theorem modActive_lbSaved (n : Nat) (g : Active → Active) (s : State) : (modActive n g s).lbSaved = s.lbSaved := rfl
@[simp] theorem modActive_media (n : Nat) (g : Active → Active) (s : State) : (modActive n g s).media = s.media := rfl
@[simp] theorem modActive_eng (n : Nat) (g : Active → Active) (s : State) : (modActive n g s).eng = s.eng := rfl
@[simp] theorem modActive_plans (n : Nat) (g : Active → Active) (s : State) : (modActive n g s).plans = s.plans := rfl
@[simp] theorem modActive_lastPlan (n : Nat) (g : Active → Active) (s : State) : (modActive n g s).lastPlan = s.lastPlan := rfl
@[simp] theorem modActive_indexes (n : Nat) (g : Active → Active) (s : State) : (modActive n g s).indexes = s.indexes := rfl
@[simp] theorem modActive_lastIndex (n : Nat) (g : Active → Active) (s : State) : (modActive n g s).lastIndex = s.lastIndex := rfl
@[simp] theorem modActive_vaults (n : Nat) (g : Active → Active) (s : State) : (modActive n g s).vaults = s.vaults := rfl
@[simp] theorem modActive_berths (n : Nat) (g : Active → Active) (s : State) : (modActive n g s).berths = s.berths := rfl
@[simp] theorem modActive_clock (n : Nat) (g : Active → Active) (s : State) : (modActive n g s).clock = s.clock := rfl
@[simp] theorem modActive_tide (n : Nat) (g : Active → Active) (s : State) : (modActive n g s).tide = s.tide := rfl
@[simp] theorem modActive_hawser (n : Nat) (g : Active → Active) (s : State) : (modActive n g s).hawser = s.hawser := rfl
@[simp] theorem modActive_storm (n : Nat) (g : Active → Active) (s : State) : (modActive n g s).storm = s.storm := rfl
@[simp] theorem modActive_motionLog (n : Nat) (g : Active → Active) (s : State) : (modActive n g s).motionLog = s.motionLog := rfl
@[simp] theorem modActive_lastEvent (n : Nat) (g : Active → Active) (s : State) : (modActive n g s).lastEvent = s.lastEvent := rfl
@[simp] theorem modActive_pf (n : Nat) (g : Active → Active) (s : State) : (modActive n g s).pf = s.pf := rfl
@[simp] theorem modActive_mem (n : Nat) (g : Active → Active) (s : State) : (modActive n g s).mem = s.mem := rfl
@[simp] theorem modActive_repairs (n : Nat) (g : Active → Active) (s : State) : (modActive n g s).repairs = s.repairs := rfl
@[simp] theorem modActive_logbook (n : Nat) (g : Active → Active) (s : State) : (modActive n g s).logbook = s.logbook := rfl
@[simp] theorem modActive_logLive (n : Nat) (g : Active → Active) (s : State) : (modActive n g s).logLive = s.logLive := rfl
@[simp] theorem modActive_trust (n : Nat) (g : Active → Active) (s : State) : (modActive n g s).trust = s.trust := rfl
@[simp] theorem modActive_boot (n : Nat) (g : Active → Active) (s : State) : (modActive n g s).boot = s.boot := rfl
@[simp] theorem modActive_side (n : Nat) (g : Active → Active) (s : State) : (modActive n g s).side = s.side := rfl
@[simp] theorem modActive_thermal (n : Nat) (g : Active → Active) (s : State) : (modActive n g s).thermal = s.thermal := rfl

/-! ### dropActive -/

@[simp] theorem dropActive_pending (n : Nat) (s : State) : (dropActive n s).pending = s.pending := rfl
@[simp] theorem dropActive_now (n : Nat) (s : State) : (dropActive n s).now = s.now := rfl
@[simp] theorem dropActive_fresh (n : Nat) (s : State) : (dropActive n s).fresh = s.fresh := rfl
@[simp] theorem dropActive_out (n : Nat) (s : State) : (dropActive n s).out = s.out := rfl
@[simp] theorem dropActive_fixed (n : Nat) (s : State) : (dropActive n s).fixed = s.fixed := rfl
@[simp] theorem dropActive_dev (n : Nat) (s : State) : (dropActive n s).dev = s.dev := rfl
@[simp] theorem dropActive_power (n : Nat) (s : State) : (dropActive n s).power = s.power := rfl
@[simp] theorem dropActive_net (n : Nat) (s : State) : (dropActive n s).net = s.net := rfl
@[simp] theorem dropActive_cmds (n : Nat) (s : State) : (dropActive n s).cmds = { s.cmds with active := s.cmds.active.filter (fun a => a.id != n) } := rfl
@[simp] theorem dropActive_rdma (n : Nat) (s : State) : (dropActive n s).rdma = s.rdma := rfl
@[simp] theorem dropActive_regs (n : Nat) (s : State) : (dropActive n s).regs = s.regs := rfl
@[simp] theorem dropActive_lb (n : Nat) (s : State) : (dropActive n s).lb = s.lb := rfl
@[simp] theorem dropActive_lbSaved (n : Nat) (s : State) : (dropActive n s).lbSaved = s.lbSaved := rfl
@[simp] theorem dropActive_media (n : Nat) (s : State) : (dropActive n s).media = s.media := rfl
@[simp] theorem dropActive_eng (n : Nat) (s : State) : (dropActive n s).eng = s.eng := rfl
@[simp] theorem dropActive_plans (n : Nat) (s : State) : (dropActive n s).plans = s.plans := rfl
@[simp] theorem dropActive_lastPlan (n : Nat) (s : State) : (dropActive n s).lastPlan = s.lastPlan := rfl
@[simp] theorem dropActive_indexes (n : Nat) (s : State) : (dropActive n s).indexes = s.indexes := rfl
@[simp] theorem dropActive_lastIndex (n : Nat) (s : State) : (dropActive n s).lastIndex = s.lastIndex := rfl
@[simp] theorem dropActive_vaults (n : Nat) (s : State) : (dropActive n s).vaults = s.vaults := rfl
@[simp] theorem dropActive_berths (n : Nat) (s : State) : (dropActive n s).berths = s.berths := rfl
@[simp] theorem dropActive_clock (n : Nat) (s : State) : (dropActive n s).clock = s.clock := rfl
@[simp] theorem dropActive_tide (n : Nat) (s : State) : (dropActive n s).tide = s.tide := rfl
@[simp] theorem dropActive_hawser (n : Nat) (s : State) : (dropActive n s).hawser = s.hawser := rfl
@[simp] theorem dropActive_storm (n : Nat) (s : State) : (dropActive n s).storm = s.storm := rfl
@[simp] theorem dropActive_motionLog (n : Nat) (s : State) : (dropActive n s).motionLog = s.motionLog := rfl
@[simp] theorem dropActive_lastEvent (n : Nat) (s : State) : (dropActive n s).lastEvent = s.lastEvent := rfl
@[simp] theorem dropActive_pf (n : Nat) (s : State) : (dropActive n s).pf = s.pf := rfl
@[simp] theorem dropActive_mem (n : Nat) (s : State) : (dropActive n s).mem = s.mem := rfl
@[simp] theorem dropActive_repairs (n : Nat) (s : State) : (dropActive n s).repairs = s.repairs := rfl
@[simp] theorem dropActive_logbook (n : Nat) (s : State) : (dropActive n s).logbook = s.logbook := rfl
@[simp] theorem dropActive_logLive (n : Nat) (s : State) : (dropActive n s).logLive = s.logLive := rfl
@[simp] theorem dropActive_trust (n : Nat) (s : State) : (dropActive n s).trust = s.trust := rfl
@[simp] theorem dropActive_boot (n : Nat) (s : State) : (dropActive n s).boot = s.boot := rfl
@[simp] theorem dropActive_side (n : Nat) (s : State) : (dropActive n s).side = s.side := rfl
@[simp] theorem dropActive_thermal (n : Nat) (s : State) : (dropActive n s).thermal = s.thermal := rfl

/-! ### modQp -/

@[simp] theorem modQp_pending (n : BitVec 24) (g : Qp → Qp) (s : State) : (modQp n g s).pending = s.pending := rfl
@[simp] theorem modQp_now (n : BitVec 24) (g : Qp → Qp) (s : State) : (modQp n g s).now = s.now := rfl
@[simp] theorem modQp_fresh (n : BitVec 24) (g : Qp → Qp) (s : State) : (modQp n g s).fresh = s.fresh := rfl
@[simp] theorem modQp_out (n : BitVec 24) (g : Qp → Qp) (s : State) : (modQp n g s).out = s.out := rfl
@[simp] theorem modQp_fixed (n : BitVec 24) (g : Qp → Qp) (s : State) : (modQp n g s).fixed = s.fixed := rfl
@[simp] theorem modQp_dev (n : BitVec 24) (g : Qp → Qp) (s : State) : (modQp n g s).dev = s.dev := rfl
@[simp] theorem modQp_power (n : BitVec 24) (g : Qp → Qp) (s : State) : (modQp n g s).power = s.power := rfl
@[simp] theorem modQp_net (n : BitVec 24) (g : Qp → Qp) (s : State) : (modQp n g s).net = s.net := rfl
@[simp] theorem modQp_cmds (n : BitVec 24) (g : Qp → Qp) (s : State) : (modQp n g s).cmds = s.cmds := rfl
@[simp] theorem modQp_rdma (n : BitVec 24) (g : Qp → Qp) (s : State) : (modQp n g s).rdma = { s.rdma with qps := s.rdma.qps.map (fun q => if q.qpn == n then g q else q) } := rfl
@[simp] theorem modQp_regs (n : BitVec 24) (g : Qp → Qp) (s : State) : (modQp n g s).regs = s.regs := rfl
@[simp] theorem modQp_lb (n : BitVec 24) (g : Qp → Qp) (s : State) : (modQp n g s).lb = s.lb := rfl
@[simp] theorem modQp_lbSaved (n : BitVec 24) (g : Qp → Qp) (s : State) : (modQp n g s).lbSaved = s.lbSaved := rfl
@[simp] theorem modQp_media (n : BitVec 24) (g : Qp → Qp) (s : State) : (modQp n g s).media = s.media := rfl
@[simp] theorem modQp_eng (n : BitVec 24) (g : Qp → Qp) (s : State) : (modQp n g s).eng = s.eng := rfl
@[simp] theorem modQp_plans (n : BitVec 24) (g : Qp → Qp) (s : State) : (modQp n g s).plans = s.plans := rfl
@[simp] theorem modQp_lastPlan (n : BitVec 24) (g : Qp → Qp) (s : State) : (modQp n g s).lastPlan = s.lastPlan := rfl
@[simp] theorem modQp_indexes (n : BitVec 24) (g : Qp → Qp) (s : State) : (modQp n g s).indexes = s.indexes := rfl
@[simp] theorem modQp_lastIndex (n : BitVec 24) (g : Qp → Qp) (s : State) : (modQp n g s).lastIndex = s.lastIndex := rfl
@[simp] theorem modQp_vaults (n : BitVec 24) (g : Qp → Qp) (s : State) : (modQp n g s).vaults = s.vaults := rfl
@[simp] theorem modQp_berths (n : BitVec 24) (g : Qp → Qp) (s : State) : (modQp n g s).berths = s.berths := rfl
@[simp] theorem modQp_clock (n : BitVec 24) (g : Qp → Qp) (s : State) : (modQp n g s).clock = s.clock := rfl
@[simp] theorem modQp_tide (n : BitVec 24) (g : Qp → Qp) (s : State) : (modQp n g s).tide = s.tide := rfl
@[simp] theorem modQp_hawser (n : BitVec 24) (g : Qp → Qp) (s : State) : (modQp n g s).hawser = s.hawser := rfl
@[simp] theorem modQp_storm (n : BitVec 24) (g : Qp → Qp) (s : State) : (modQp n g s).storm = s.storm := rfl
@[simp] theorem modQp_motionLog (n : BitVec 24) (g : Qp → Qp) (s : State) : (modQp n g s).motionLog = s.motionLog := rfl
@[simp] theorem modQp_lastEvent (n : BitVec 24) (g : Qp → Qp) (s : State) : (modQp n g s).lastEvent = s.lastEvent := rfl
@[simp] theorem modQp_pf (n : BitVec 24) (g : Qp → Qp) (s : State) : (modQp n g s).pf = s.pf := rfl
@[simp] theorem modQp_mem (n : BitVec 24) (g : Qp → Qp) (s : State) : (modQp n g s).mem = s.mem := rfl
@[simp] theorem modQp_repairs (n : BitVec 24) (g : Qp → Qp) (s : State) : (modQp n g s).repairs = s.repairs := rfl
@[simp] theorem modQp_logbook (n : BitVec 24) (g : Qp → Qp) (s : State) : (modQp n g s).logbook = s.logbook := rfl
@[simp] theorem modQp_logLive (n : BitVec 24) (g : Qp → Qp) (s : State) : (modQp n g s).logLive = s.logLive := rfl
@[simp] theorem modQp_trust (n : BitVec 24) (g : Qp → Qp) (s : State) : (modQp n g s).trust = s.trust := rfl
@[simp] theorem modQp_boot (n : BitVec 24) (g : Qp → Qp) (s : State) : (modQp n g s).boot = s.boot := rfl
@[simp] theorem modQp_side (n : BitVec 24) (g : Qp → Qp) (s : State) : (modQp n g s).side = s.side := rfl
@[simp] theorem modQp_thermal (n : BitVec 24) (g : Qp → Qp) (s : State) : (modQp n g s).thermal = s.thermal := rfl

/-! ### modNs -/

@[simp] theorem modNs_pending (n : Nat) (g : Namespace → Namespace) (s : State) : (modNs n g s).pending = s.pending := rfl
@[simp] theorem modNs_now (n : Nat) (g : Namespace → Namespace) (s : State) : (modNs n g s).now = s.now := rfl
@[simp] theorem modNs_fresh (n : Nat) (g : Namespace → Namespace) (s : State) : (modNs n g s).fresh = s.fresh := rfl
@[simp] theorem modNs_out (n : Nat) (g : Namespace → Namespace) (s : State) : (modNs n g s).out = s.out := rfl
@[simp] theorem modNs_fixed (n : Nat) (g : Namespace → Namespace) (s : State) : (modNs n g s).fixed = s.fixed := rfl
@[simp] theorem modNs_dev (n : Nat) (g : Namespace → Namespace) (s : State) : (modNs n g s).dev = s.dev := rfl
@[simp] theorem modNs_power (n : Nat) (g : Namespace → Namespace) (s : State) : (modNs n g s).power = s.power := rfl
@[simp] theorem modNs_net (n : Nat) (g : Namespace → Namespace) (s : State) : (modNs n g s).net = s.net := rfl
@[simp] theorem modNs_cmds (n : Nat) (g : Namespace → Namespace) (s : State) : (modNs n g s).cmds = s.cmds := rfl
@[simp] theorem modNs_rdma (n : Nat) (g : Namespace → Namespace) (s : State) : (modNs n g s).rdma = s.rdma := rfl
@[simp] theorem modNs_regs (n : Nat) (g : Namespace → Namespace) (s : State) : (modNs n g s).regs = s.regs := rfl
@[simp] theorem modNs_lb (n : Nat) (g : Namespace → Namespace) (s : State) : (modNs n g s).lb = s.lb := rfl
@[simp] theorem modNs_lbSaved (n : Nat) (g : Namespace → Namespace) (s : State) : (modNs n g s).lbSaved = s.lbSaved := rfl
@[simp] theorem modNs_media (n : Nat) (g : Namespace → Namespace) (s : State) : (modNs n g s).media = { s.media with nss := s.media.nss.map (fun x => if x.nsid == n then g x else x) } := rfl
@[simp] theorem modNs_eng (n : Nat) (g : Namespace → Namespace) (s : State) : (modNs n g s).eng = s.eng := rfl
@[simp] theorem modNs_plans (n : Nat) (g : Namespace → Namespace) (s : State) : (modNs n g s).plans = s.plans := rfl
@[simp] theorem modNs_lastPlan (n : Nat) (g : Namespace → Namespace) (s : State) : (modNs n g s).lastPlan = s.lastPlan := rfl
@[simp] theorem modNs_indexes (n : Nat) (g : Namespace → Namespace) (s : State) : (modNs n g s).indexes = s.indexes := rfl
@[simp] theorem modNs_lastIndex (n : Nat) (g : Namespace → Namespace) (s : State) : (modNs n g s).lastIndex = s.lastIndex := rfl
@[simp] theorem modNs_vaults (n : Nat) (g : Namespace → Namespace) (s : State) : (modNs n g s).vaults = s.vaults := rfl
@[simp] theorem modNs_berths (n : Nat) (g : Namespace → Namespace) (s : State) : (modNs n g s).berths = s.berths := rfl
@[simp] theorem modNs_clock (n : Nat) (g : Namespace → Namespace) (s : State) : (modNs n g s).clock = s.clock := rfl
@[simp] theorem modNs_tide (n : Nat) (g : Namespace → Namespace) (s : State) : (modNs n g s).tide = s.tide := rfl
@[simp] theorem modNs_hawser (n : Nat) (g : Namespace → Namespace) (s : State) : (modNs n g s).hawser = s.hawser := rfl
@[simp] theorem modNs_storm (n : Nat) (g : Namespace → Namespace) (s : State) : (modNs n g s).storm = s.storm := rfl
@[simp] theorem modNs_motionLog (n : Nat) (g : Namespace → Namespace) (s : State) : (modNs n g s).motionLog = s.motionLog := rfl
@[simp] theorem modNs_lastEvent (n : Nat) (g : Namespace → Namespace) (s : State) : (modNs n g s).lastEvent = s.lastEvent := rfl
@[simp] theorem modNs_pf (n : Nat) (g : Namespace → Namespace) (s : State) : (modNs n g s).pf = s.pf := rfl
@[simp] theorem modNs_mem (n : Nat) (g : Namespace → Namespace) (s : State) : (modNs n g s).mem = s.mem := rfl
@[simp] theorem modNs_repairs (n : Nat) (g : Namespace → Namespace) (s : State) : (modNs n g s).repairs = s.repairs := rfl
@[simp] theorem modNs_logbook (n : Nat) (g : Namespace → Namespace) (s : State) : (modNs n g s).logbook = s.logbook := rfl
@[simp] theorem modNs_logLive (n : Nat) (g : Namespace → Namespace) (s : State) : (modNs n g s).logLive = s.logLive := rfl
@[simp] theorem modNs_trust (n : Nat) (g : Namespace → Namespace) (s : State) : (modNs n g s).trust = s.trust := rfl
@[simp] theorem modNs_boot (n : Nat) (g : Namespace → Namespace) (s : State) : (modNs n g s).boot = s.boot := rfl
@[simp] theorem modNs_side (n : Nat) (g : Namespace → Namespace) (s : State) : (modNs n g s).side = s.side := rfl
@[simp] theorem modNs_thermal (n : Nat) (g : Namespace → Namespace) (s : State) : (modNs n g s).thermal = s.thermal := rfl

/-! ### modHold -/

@[simp] theorem modHold_pending (n : Nat) (g : Hold → Hold) (s : State) : (modHold n g s).pending = s.pending := rfl
@[simp] theorem modHold_now (n : Nat) (g : Hold → Hold) (s : State) : (modHold n g s).now = s.now := rfl
@[simp] theorem modHold_fresh (n : Nat) (g : Hold → Hold) (s : State) : (modHold n g s).fresh = s.fresh := rfl
@[simp] theorem modHold_out (n : Nat) (g : Hold → Hold) (s : State) : (modHold n g s).out = s.out := rfl
@[simp] theorem modHold_fixed (n : Nat) (g : Hold → Hold) (s : State) : (modHold n g s).fixed = s.fixed := rfl
@[simp] theorem modHold_dev (n : Nat) (g : Hold → Hold) (s : State) : (modHold n g s).dev = s.dev := rfl
@[simp] theorem modHold_power (n : Nat) (g : Hold → Hold) (s : State) : (modHold n g s).power = s.power := rfl
@[simp] theorem modHold_net (n : Nat) (g : Hold → Hold) (s : State) : (modHold n g s).net = s.net := rfl
@[simp] theorem modHold_cmds (n : Nat) (g : Hold → Hold) (s : State) : (modHold n g s).cmds = s.cmds := rfl
@[simp] theorem modHold_rdma (n : Nat) (g : Hold → Hold) (s : State) : (modHold n g s).rdma = s.rdma := rfl
@[simp] theorem modHold_regs (n : Nat) (g : Hold → Hold) (s : State) : (modHold n g s).regs = s.regs := rfl
@[simp] theorem modHold_lb (n : Nat) (g : Hold → Hold) (s : State) : (modHold n g s).lb = s.lb := rfl
@[simp] theorem modHold_lbSaved (n : Nat) (g : Hold → Hold) (s : State) : (modHold n g s).lbSaved = s.lbSaved := rfl
@[simp] theorem modHold_media (n : Nat) (g : Hold → Hold) (s : State) : (modHold n g s).media = { s.media with holds := s.media.holds.map (fun x => if x.id == n then g x else x) } := rfl
@[simp] theorem modHold_eng (n : Nat) (g : Hold → Hold) (s : State) : (modHold n g s).eng = s.eng := rfl
@[simp] theorem modHold_plans (n : Nat) (g : Hold → Hold) (s : State) : (modHold n g s).plans = s.plans := rfl
@[simp] theorem modHold_lastPlan (n : Nat) (g : Hold → Hold) (s : State) : (modHold n g s).lastPlan = s.lastPlan := rfl
@[simp] theorem modHold_indexes (n : Nat) (g : Hold → Hold) (s : State) : (modHold n g s).indexes = s.indexes := rfl
@[simp] theorem modHold_lastIndex (n : Nat) (g : Hold → Hold) (s : State) : (modHold n g s).lastIndex = s.lastIndex := rfl
@[simp] theorem modHold_vaults (n : Nat) (g : Hold → Hold) (s : State) : (modHold n g s).vaults = s.vaults := rfl
@[simp] theorem modHold_berths (n : Nat) (g : Hold → Hold) (s : State) : (modHold n g s).berths = s.berths := rfl
@[simp] theorem modHold_clock (n : Nat) (g : Hold → Hold) (s : State) : (modHold n g s).clock = s.clock := rfl
@[simp] theorem modHold_tide (n : Nat) (g : Hold → Hold) (s : State) : (modHold n g s).tide = s.tide := rfl
@[simp] theorem modHold_hawser (n : Nat) (g : Hold → Hold) (s : State) : (modHold n g s).hawser = s.hawser := rfl
@[simp] theorem modHold_storm (n : Nat) (g : Hold → Hold) (s : State) : (modHold n g s).storm = s.storm := rfl
@[simp] theorem modHold_motionLog (n : Nat) (g : Hold → Hold) (s : State) : (modHold n g s).motionLog = s.motionLog := rfl
@[simp] theorem modHold_lastEvent (n : Nat) (g : Hold → Hold) (s : State) : (modHold n g s).lastEvent = s.lastEvent := rfl
@[simp] theorem modHold_pf (n : Nat) (g : Hold → Hold) (s : State) : (modHold n g s).pf = s.pf := rfl
@[simp] theorem modHold_mem (n : Nat) (g : Hold → Hold) (s : State) : (modHold n g s).mem = s.mem := rfl
@[simp] theorem modHold_repairs (n : Nat) (g : Hold → Hold) (s : State) : (modHold n g s).repairs = s.repairs := rfl
@[simp] theorem modHold_logbook (n : Nat) (g : Hold → Hold) (s : State) : (modHold n g s).logbook = s.logbook := rfl
@[simp] theorem modHold_logLive (n : Nat) (g : Hold → Hold) (s : State) : (modHold n g s).logLive = s.logLive := rfl
@[simp] theorem modHold_trust (n : Nat) (g : Hold → Hold) (s : State) : (modHold n g s).trust = s.trust := rfl
@[simp] theorem modHold_boot (n : Nat) (g : Hold → Hold) (s : State) : (modHold n g s).boot = s.boot := rfl
@[simp] theorem modHold_side (n : Nat) (g : Hold → Hold) (s : State) : (modHold n g s).side = s.side := rfl
@[simp] theorem modHold_thermal (n : Nat) (g : Hold → Hold) (s : State) : (modHold n g s).thermal = s.thermal := rfl

/-! ### modPlan -/

@[simp] theorem modPlan_pending (n : Nat) (g : Plan → Plan) (s : State) : (modPlan n g s).pending = s.pending := rfl
@[simp] theorem modPlan_now (n : Nat) (g : Plan → Plan) (s : State) : (modPlan n g s).now = s.now := rfl
@[simp] theorem modPlan_fresh (n : Nat) (g : Plan → Plan) (s : State) : (modPlan n g s).fresh = s.fresh := rfl
@[simp] theorem modPlan_out (n : Nat) (g : Plan → Plan) (s : State) : (modPlan n g s).out = s.out := rfl
@[simp] theorem modPlan_fixed (n : Nat) (g : Plan → Plan) (s : State) : (modPlan n g s).fixed = s.fixed := rfl
@[simp] theorem modPlan_dev (n : Nat) (g : Plan → Plan) (s : State) : (modPlan n g s).dev = s.dev := rfl
@[simp] theorem modPlan_power (n : Nat) (g : Plan → Plan) (s : State) : (modPlan n g s).power = s.power := rfl
@[simp] theorem modPlan_net (n : Nat) (g : Plan → Plan) (s : State) : (modPlan n g s).net = s.net := rfl
@[simp] theorem modPlan_cmds (n : Nat) (g : Plan → Plan) (s : State) : (modPlan n g s).cmds = s.cmds := rfl
@[simp] theorem modPlan_rdma (n : Nat) (g : Plan → Plan) (s : State) : (modPlan n g s).rdma = s.rdma := rfl
@[simp] theorem modPlan_regs (n : Nat) (g : Plan → Plan) (s : State) : (modPlan n g s).regs = s.regs := rfl
@[simp] theorem modPlan_lb (n : Nat) (g : Plan → Plan) (s : State) : (modPlan n g s).lb = s.lb := rfl
@[simp] theorem modPlan_lbSaved (n : Nat) (g : Plan → Plan) (s : State) : (modPlan n g s).lbSaved = s.lbSaved := rfl
@[simp] theorem modPlan_media (n : Nat) (g : Plan → Plan) (s : State) : (modPlan n g s).media = s.media := rfl
@[simp] theorem modPlan_eng (n : Nat) (g : Plan → Plan) (s : State) : (modPlan n g s).eng = s.eng := rfl
@[simp] theorem modPlan_plans (n : Nat) (g : Plan → Plan) (s : State) : (modPlan n g s).plans = s.plans.map (fun p => if p.id == n then g p else p) := rfl
@[simp] theorem modPlan_lastPlan (n : Nat) (g : Plan → Plan) (s : State) : (modPlan n g s).lastPlan = s.lastPlan := rfl
@[simp] theorem modPlan_indexes (n : Nat) (g : Plan → Plan) (s : State) : (modPlan n g s).indexes = s.indexes := rfl
@[simp] theorem modPlan_lastIndex (n : Nat) (g : Plan → Plan) (s : State) : (modPlan n g s).lastIndex = s.lastIndex := rfl
@[simp] theorem modPlan_vaults (n : Nat) (g : Plan → Plan) (s : State) : (modPlan n g s).vaults = s.vaults := rfl
@[simp] theorem modPlan_berths (n : Nat) (g : Plan → Plan) (s : State) : (modPlan n g s).berths = s.berths := rfl
@[simp] theorem modPlan_clock (n : Nat) (g : Plan → Plan) (s : State) : (modPlan n g s).clock = s.clock := rfl
@[simp] theorem modPlan_tide (n : Nat) (g : Plan → Plan) (s : State) : (modPlan n g s).tide = s.tide := rfl
@[simp] theorem modPlan_hawser (n : Nat) (g : Plan → Plan) (s : State) : (modPlan n g s).hawser = s.hawser := rfl
@[simp] theorem modPlan_storm (n : Nat) (g : Plan → Plan) (s : State) : (modPlan n g s).storm = s.storm := rfl
@[simp] theorem modPlan_motionLog (n : Nat) (g : Plan → Plan) (s : State) : (modPlan n g s).motionLog = s.motionLog := rfl
@[simp] theorem modPlan_lastEvent (n : Nat) (g : Plan → Plan) (s : State) : (modPlan n g s).lastEvent = s.lastEvent := rfl
@[simp] theorem modPlan_pf (n : Nat) (g : Plan → Plan) (s : State) : (modPlan n g s).pf = s.pf := rfl
@[simp] theorem modPlan_mem (n : Nat) (g : Plan → Plan) (s : State) : (modPlan n g s).mem = s.mem := rfl
@[simp] theorem modPlan_repairs (n : Nat) (g : Plan → Plan) (s : State) : (modPlan n g s).repairs = s.repairs := rfl
@[simp] theorem modPlan_logbook (n : Nat) (g : Plan → Plan) (s : State) : (modPlan n g s).logbook = s.logbook := rfl
@[simp] theorem modPlan_logLive (n : Nat) (g : Plan → Plan) (s : State) : (modPlan n g s).logLive = s.logLive := rfl
@[simp] theorem modPlan_trust (n : Nat) (g : Plan → Plan) (s : State) : (modPlan n g s).trust = s.trust := rfl
@[simp] theorem modPlan_boot (n : Nat) (g : Plan → Plan) (s : State) : (modPlan n g s).boot = s.boot := rfl
@[simp] theorem modPlan_side (n : Nat) (g : Plan → Plan) (s : State) : (modPlan n g s).side = s.side := rfl
@[simp] theorem modPlan_thermal (n : Nat) (g : Plan → Plan) (s : State) : (modPlan n g s).thermal = s.thermal := rfl

/-! ### modIndex -/

@[simp] theorem modIndex_pending (n : Nat) (g : VIndex → VIndex) (s : State) : (modIndex n g s).pending = s.pending := rfl
@[simp] theorem modIndex_now (n : Nat) (g : VIndex → VIndex) (s : State) : (modIndex n g s).now = s.now := rfl
@[simp] theorem modIndex_fresh (n : Nat) (g : VIndex → VIndex) (s : State) : (modIndex n g s).fresh = s.fresh := rfl
@[simp] theorem modIndex_out (n : Nat) (g : VIndex → VIndex) (s : State) : (modIndex n g s).out = s.out := rfl
@[simp] theorem modIndex_fixed (n : Nat) (g : VIndex → VIndex) (s : State) : (modIndex n g s).fixed = s.fixed := rfl
@[simp] theorem modIndex_dev (n : Nat) (g : VIndex → VIndex) (s : State) : (modIndex n g s).dev = s.dev := rfl
@[simp] theorem modIndex_power (n : Nat) (g : VIndex → VIndex) (s : State) : (modIndex n g s).power = s.power := rfl
@[simp] theorem modIndex_net (n : Nat) (g : VIndex → VIndex) (s : State) : (modIndex n g s).net = s.net := rfl
@[simp] theorem modIndex_cmds (n : Nat) (g : VIndex → VIndex) (s : State) : (modIndex n g s).cmds = s.cmds := rfl
@[simp] theorem modIndex_rdma (n : Nat) (g : VIndex → VIndex) (s : State) : (modIndex n g s).rdma = s.rdma := rfl
@[simp] theorem modIndex_regs (n : Nat) (g : VIndex → VIndex) (s : State) : (modIndex n g s).regs = s.regs := rfl
@[simp] theorem modIndex_lb (n : Nat) (g : VIndex → VIndex) (s : State) : (modIndex n g s).lb = s.lb := rfl
@[simp] theorem modIndex_lbSaved (n : Nat) (g : VIndex → VIndex) (s : State) : (modIndex n g s).lbSaved = s.lbSaved := rfl
@[simp] theorem modIndex_media (n : Nat) (g : VIndex → VIndex) (s : State) : (modIndex n g s).media = s.media := rfl
@[simp] theorem modIndex_eng (n : Nat) (g : VIndex → VIndex) (s : State) : (modIndex n g s).eng = s.eng := rfl
@[simp] theorem modIndex_plans (n : Nat) (g : VIndex → VIndex) (s : State) : (modIndex n g s).plans = s.plans := rfl
@[simp] theorem modIndex_lastPlan (n : Nat) (g : VIndex → VIndex) (s : State) : (modIndex n g s).lastPlan = s.lastPlan := rfl
@[simp] theorem modIndex_indexes (n : Nat) (g : VIndex → VIndex) (s : State) : (modIndex n g s).indexes = s.indexes.map (fun x => if x.id == n then g x else x) := rfl
@[simp] theorem modIndex_lastIndex (n : Nat) (g : VIndex → VIndex) (s : State) : (modIndex n g s).lastIndex = s.lastIndex := rfl
@[simp] theorem modIndex_vaults (n : Nat) (g : VIndex → VIndex) (s : State) : (modIndex n g s).vaults = s.vaults := rfl
@[simp] theorem modIndex_berths (n : Nat) (g : VIndex → VIndex) (s : State) : (modIndex n g s).berths = s.berths := rfl
@[simp] theorem modIndex_clock (n : Nat) (g : VIndex → VIndex) (s : State) : (modIndex n g s).clock = s.clock := rfl
@[simp] theorem modIndex_tide (n : Nat) (g : VIndex → VIndex) (s : State) : (modIndex n g s).tide = s.tide := rfl
@[simp] theorem modIndex_hawser (n : Nat) (g : VIndex → VIndex) (s : State) : (modIndex n g s).hawser = s.hawser := rfl
@[simp] theorem modIndex_storm (n : Nat) (g : VIndex → VIndex) (s : State) : (modIndex n g s).storm = s.storm := rfl
@[simp] theorem modIndex_motionLog (n : Nat) (g : VIndex → VIndex) (s : State) : (modIndex n g s).motionLog = s.motionLog := rfl
@[simp] theorem modIndex_lastEvent (n : Nat) (g : VIndex → VIndex) (s : State) : (modIndex n g s).lastEvent = s.lastEvent := rfl
@[simp] theorem modIndex_pf (n : Nat) (g : VIndex → VIndex) (s : State) : (modIndex n g s).pf = s.pf := rfl
@[simp] theorem modIndex_mem (n : Nat) (g : VIndex → VIndex) (s : State) : (modIndex n g s).mem = s.mem := rfl
@[simp] theorem modIndex_repairs (n : Nat) (g : VIndex → VIndex) (s : State) : (modIndex n g s).repairs = s.repairs := rfl
@[simp] theorem modIndex_logbook (n : Nat) (g : VIndex → VIndex) (s : State) : (modIndex n g s).logbook = s.logbook := rfl
@[simp] theorem modIndex_logLive (n : Nat) (g : VIndex → VIndex) (s : State) : (modIndex n g s).logLive = s.logLive := rfl
@[simp] theorem modIndex_trust (n : Nat) (g : VIndex → VIndex) (s : State) : (modIndex n g s).trust = s.trust := rfl
@[simp] theorem modIndex_boot (n : Nat) (g : VIndex → VIndex) (s : State) : (modIndex n g s).boot = s.boot := rfl
@[simp] theorem modIndex_side (n : Nat) (g : VIndex → VIndex) (s : State) : (modIndex n g s).side = s.side := rfl
@[simp] theorem modIndex_thermal (n : Nat) (g : VIndex → VIndex) (s : State) : (modIndex n g s).thermal = s.thermal := rfl

/-! ### modVault -/

@[simp] theorem modVault_pending (b : Nat) (g : Vault → Vault) (s : State) : (modVault b g s).pending = s.pending := rfl
@[simp] theorem modVault_now (b : Nat) (g : Vault → Vault) (s : State) : (modVault b g s).now = s.now := rfl
@[simp] theorem modVault_fresh (b : Nat) (g : Vault → Vault) (s : State) : (modVault b g s).fresh = s.fresh := rfl
@[simp] theorem modVault_out (b : Nat) (g : Vault → Vault) (s : State) : (modVault b g s).out = s.out := rfl
@[simp] theorem modVault_fixed (b : Nat) (g : Vault → Vault) (s : State) : (modVault b g s).fixed = s.fixed := rfl
@[simp] theorem modVault_dev (b : Nat) (g : Vault → Vault) (s : State) : (modVault b g s).dev = s.dev := rfl
@[simp] theorem modVault_power (b : Nat) (g : Vault → Vault) (s : State) : (modVault b g s).power = s.power := rfl
@[simp] theorem modVault_net (b : Nat) (g : Vault → Vault) (s : State) : (modVault b g s).net = s.net := rfl
@[simp] theorem modVault_cmds (b : Nat) (g : Vault → Vault) (s : State) : (modVault b g s).cmds = s.cmds := rfl
@[simp] theorem modVault_rdma (b : Nat) (g : Vault → Vault) (s : State) : (modVault b g s).rdma = s.rdma := rfl
@[simp] theorem modVault_regs (b : Nat) (g : Vault → Vault) (s : State) : (modVault b g s).regs = s.regs := rfl
@[simp] theorem modVault_lb (b : Nat) (g : Vault → Vault) (s : State) : (modVault b g s).lb = s.lb := rfl
@[simp] theorem modVault_lbSaved (b : Nat) (g : Vault → Vault) (s : State) : (modVault b g s).lbSaved = s.lbSaved := rfl
@[simp] theorem modVault_media (b : Nat) (g : Vault → Vault) (s : State) : (modVault b g s).media = s.media := rfl
@[simp] theorem modVault_eng (b : Nat) (g : Vault → Vault) (s : State) : (modVault b g s).eng = s.eng := rfl
@[simp] theorem modVault_plans (b : Nat) (g : Vault → Vault) (s : State) : (modVault b g s).plans = s.plans := rfl
@[simp] theorem modVault_lastPlan (b : Nat) (g : Vault → Vault) (s : State) : (modVault b g s).lastPlan = s.lastPlan := rfl
@[simp] theorem modVault_indexes (b : Nat) (g : Vault → Vault) (s : State) : (modVault b g s).indexes = s.indexes := rfl
@[simp] theorem modVault_lastIndex (b : Nat) (g : Vault → Vault) (s : State) : (modVault b g s).lastIndex = s.lastIndex := rfl
@[simp] theorem modVault_vaults (b : Nat) (g : Vault → Vault) (s : State) : (modVault b g s).vaults = s.vaults.map (fun v => if v.berth == b then g v else v) := rfl
@[simp] theorem modVault_berths (b : Nat) (g : Vault → Vault) (s : State) : (modVault b g s).berths = s.berths := rfl
@[simp] theorem modVault_clock (b : Nat) (g : Vault → Vault) (s : State) : (modVault b g s).clock = s.clock := rfl
@[simp] theorem modVault_tide (b : Nat) (g : Vault → Vault) (s : State) : (modVault b g s).tide = s.tide := rfl
@[simp] theorem modVault_hawser (b : Nat) (g : Vault → Vault) (s : State) : (modVault b g s).hawser = s.hawser := rfl
@[simp] theorem modVault_storm (b : Nat) (g : Vault → Vault) (s : State) : (modVault b g s).storm = s.storm := rfl
@[simp] theorem modVault_motionLog (b : Nat) (g : Vault → Vault) (s : State) : (modVault b g s).motionLog = s.motionLog := rfl
@[simp] theorem modVault_lastEvent (b : Nat) (g : Vault → Vault) (s : State) : (modVault b g s).lastEvent = s.lastEvent := rfl
@[simp] theorem modVault_pf (b : Nat) (g : Vault → Vault) (s : State) : (modVault b g s).pf = s.pf := rfl
@[simp] theorem modVault_mem (b : Nat) (g : Vault → Vault) (s : State) : (modVault b g s).mem = s.mem := rfl
@[simp] theorem modVault_repairs (b : Nat) (g : Vault → Vault) (s : State) : (modVault b g s).repairs = s.repairs := rfl
@[simp] theorem modVault_logbook (b : Nat) (g : Vault → Vault) (s : State) : (modVault b g s).logbook = s.logbook := rfl
@[simp] theorem modVault_logLive (b : Nat) (g : Vault → Vault) (s : State) : (modVault b g s).logLive = s.logLive := rfl
@[simp] theorem modVault_trust (b : Nat) (g : Vault → Vault) (s : State) : (modVault b g s).trust = s.trust := rfl
@[simp] theorem modVault_boot (b : Nat) (g : Vault → Vault) (s : State) : (modVault b g s).boot = s.boot := rfl
@[simp] theorem modVault_side (b : Nat) (g : Vault → Vault) (s : State) : (modVault b g s).side = s.side := rfl
@[simp] theorem modVault_thermal (b : Nat) (g : Vault → Vault) (s : State) : (modVault b g s).thermal = s.thermal := rfl

/-! ### modQuay -/

@[simp] theorem modQuay_pending (q : Nat) (g : Quay → Quay) (s : State) : (modQuay q g s).pending = s.pending := rfl
@[simp] theorem modQuay_now (q : Nat) (g : Quay → Quay) (s : State) : (modQuay q g s).now = s.now := rfl
@[simp] theorem modQuay_fresh (q : Nat) (g : Quay → Quay) (s : State) : (modQuay q g s).fresh = s.fresh := rfl
@[simp] theorem modQuay_out (q : Nat) (g : Quay → Quay) (s : State) : (modQuay q g s).out = s.out := rfl
@[simp] theorem modQuay_fixed (q : Nat) (g : Quay → Quay) (s : State) : (modQuay q g s).fixed = s.fixed := rfl
@[simp] theorem modQuay_dev (q : Nat) (g : Quay → Quay) (s : State) : (modQuay q g s).dev = s.dev := rfl
@[simp] theorem modQuay_power (q : Nat) (g : Quay → Quay) (s : State) : (modQuay q g s).power = s.power := rfl
@[simp] theorem modQuay_net (q : Nat) (g : Quay → Quay) (s : State) : (modQuay q g s).net = s.net := rfl
@[simp] theorem modQuay_cmds (q : Nat) (g : Quay → Quay) (s : State) : (modQuay q g s).cmds = s.cmds := rfl
@[simp] theorem modQuay_rdma (q : Nat) (g : Quay → Quay) (s : State) : (modQuay q g s).rdma = s.rdma := rfl
@[simp] theorem modQuay_regs (q : Nat) (g : Quay → Quay) (s : State) : (modQuay q g s).regs = s.regs := rfl
@[simp] theorem modQuay_lb (q : Nat) (g : Quay → Quay) (s : State) : (modQuay q g s).lb = s.lb := rfl
@[simp] theorem modQuay_lbSaved (q : Nat) (g : Quay → Quay) (s : State) : (modQuay q g s).lbSaved = s.lbSaved := rfl
@[simp] theorem modQuay_media (q : Nat) (g : Quay → Quay) (s : State) : (modQuay q g s).media = s.media := rfl
@[simp] theorem modQuay_eng (q : Nat) (g : Quay → Quay) (s : State) : (modQuay q g s).eng = { s.eng with quays := s.eng.quays.modify q g } := rfl
@[simp] theorem modQuay_plans (q : Nat) (g : Quay → Quay) (s : State) : (modQuay q g s).plans = s.plans := rfl
@[simp] theorem modQuay_lastPlan (q : Nat) (g : Quay → Quay) (s : State) : (modQuay q g s).lastPlan = s.lastPlan := rfl
@[simp] theorem modQuay_indexes (q : Nat) (g : Quay → Quay) (s : State) : (modQuay q g s).indexes = s.indexes := rfl
@[simp] theorem modQuay_lastIndex (q : Nat) (g : Quay → Quay) (s : State) : (modQuay q g s).lastIndex = s.lastIndex := rfl
@[simp] theorem modQuay_vaults (q : Nat) (g : Quay → Quay) (s : State) : (modQuay q g s).vaults = s.vaults := rfl
@[simp] theorem modQuay_berths (q : Nat) (g : Quay → Quay) (s : State) : (modQuay q g s).berths = s.berths := rfl
@[simp] theorem modQuay_clock (q : Nat) (g : Quay → Quay) (s : State) : (modQuay q g s).clock = s.clock := rfl
@[simp] theorem modQuay_tide (q : Nat) (g : Quay → Quay) (s : State) : (modQuay q g s).tide = s.tide := rfl
@[simp] theorem modQuay_hawser (q : Nat) (g : Quay → Quay) (s : State) : (modQuay q g s).hawser = s.hawser := rfl
@[simp] theorem modQuay_storm (q : Nat) (g : Quay → Quay) (s : State) : (modQuay q g s).storm = s.storm := rfl
@[simp] theorem modQuay_motionLog (q : Nat) (g : Quay → Quay) (s : State) : (modQuay q g s).motionLog = s.motionLog := rfl
@[simp] theorem modQuay_lastEvent (q : Nat) (g : Quay → Quay) (s : State) : (modQuay q g s).lastEvent = s.lastEvent := rfl
@[simp] theorem modQuay_pf (q : Nat) (g : Quay → Quay) (s : State) : (modQuay q g s).pf = s.pf := rfl
@[simp] theorem modQuay_mem (q : Nat) (g : Quay → Quay) (s : State) : (modQuay q g s).mem = s.mem := rfl
@[simp] theorem modQuay_repairs (q : Nat) (g : Quay → Quay) (s : State) : (modQuay q g s).repairs = s.repairs := rfl
@[simp] theorem modQuay_logbook (q : Nat) (g : Quay → Quay) (s : State) : (modQuay q g s).logbook = s.logbook := rfl
@[simp] theorem modQuay_logLive (q : Nat) (g : Quay → Quay) (s : State) : (modQuay q g s).logLive = s.logLive := rfl
@[simp] theorem modQuay_trust (q : Nat) (g : Quay → Quay) (s : State) : (modQuay q g s).trust = s.trust := rfl
@[simp] theorem modQuay_boot (q : Nat) (g : Quay → Quay) (s : State) : (modQuay q g s).boot = s.boot := rfl
@[simp] theorem modQuay_side (q : Nat) (g : Quay → Quay) (s : State) : (modQuay q g s).side = s.side := rfl
@[simp] theorem modQuay_thermal (q : Nat) (g : Quay → Quay) (s : State) : (modQuay q g s).thermal = s.thermal := rfl

/-! ### modQuayMedia -/

@[simp] theorem modQuayMedia_pending (q : Nat) (g : QuayMedia → QuayMedia) (s : State) : (modQuayMedia q g s).pending = s.pending := rfl
@[simp] theorem modQuayMedia_now (q : Nat) (g : QuayMedia → QuayMedia) (s : State) : (modQuayMedia q g s).now = s.now := rfl
@[simp] theorem modQuayMedia_fresh (q : Nat) (g : QuayMedia → QuayMedia) (s : State) : (modQuayMedia q g s).fresh = s.fresh := rfl
@[simp] theorem modQuayMedia_out (q : Nat) (g : QuayMedia → QuayMedia) (s : State) : (modQuayMedia q g s).out = s.out := rfl
@[simp] theorem modQuayMedia_fixed (q : Nat) (g : QuayMedia → QuayMedia) (s : State) : (modQuayMedia q g s).fixed = s.fixed := rfl
@[simp] theorem modQuayMedia_dev (q : Nat) (g : QuayMedia → QuayMedia) (s : State) : (modQuayMedia q g s).dev = s.dev := rfl
@[simp] theorem modQuayMedia_power (q : Nat) (g : QuayMedia → QuayMedia) (s : State) : (modQuayMedia q g s).power = s.power := rfl
@[simp] theorem modQuayMedia_net (q : Nat) (g : QuayMedia → QuayMedia) (s : State) : (modQuayMedia q g s).net = s.net := rfl
@[simp] theorem modQuayMedia_cmds (q : Nat) (g : QuayMedia → QuayMedia) (s : State) : (modQuayMedia q g s).cmds = s.cmds := rfl
@[simp] theorem modQuayMedia_rdma (q : Nat) (g : QuayMedia → QuayMedia) (s : State) : (modQuayMedia q g s).rdma = s.rdma := rfl
@[simp] theorem modQuayMedia_regs (q : Nat) (g : QuayMedia → QuayMedia) (s : State) : (modQuayMedia q g s).regs = s.regs := rfl
@[simp] theorem modQuayMedia_lb (q : Nat) (g : QuayMedia → QuayMedia) (s : State) : (modQuayMedia q g s).lb = s.lb := rfl
@[simp] theorem modQuayMedia_lbSaved (q : Nat) (g : QuayMedia → QuayMedia) (s : State) : (modQuayMedia q g s).lbSaved = s.lbSaved := rfl
@[simp] theorem modQuayMedia_media (q : Nat) (g : QuayMedia → QuayMedia) (s : State) : (modQuayMedia q g s).media = { s.media with quays := s.media.quays.modify q g } := rfl
@[simp] theorem modQuayMedia_eng (q : Nat) (g : QuayMedia → QuayMedia) (s : State) : (modQuayMedia q g s).eng = s.eng := rfl
@[simp] theorem modQuayMedia_plans (q : Nat) (g : QuayMedia → QuayMedia) (s : State) : (modQuayMedia q g s).plans = s.plans := rfl
@[simp] theorem modQuayMedia_lastPlan (q : Nat) (g : QuayMedia → QuayMedia) (s : State) : (modQuayMedia q g s).lastPlan = s.lastPlan := rfl
@[simp] theorem modQuayMedia_indexes (q : Nat) (g : QuayMedia → QuayMedia) (s : State) : (modQuayMedia q g s).indexes = s.indexes := rfl
@[simp] theorem modQuayMedia_lastIndex (q : Nat) (g : QuayMedia → QuayMedia) (s : State) : (modQuayMedia q g s).lastIndex = s.lastIndex := rfl
@[simp] theorem modQuayMedia_vaults (q : Nat) (g : QuayMedia → QuayMedia) (s : State) : (modQuayMedia q g s).vaults = s.vaults := rfl
@[simp] theorem modQuayMedia_berths (q : Nat) (g : QuayMedia → QuayMedia) (s : State) : (modQuayMedia q g s).berths = s.berths := rfl
@[simp] theorem modQuayMedia_clock (q : Nat) (g : QuayMedia → QuayMedia) (s : State) : (modQuayMedia q g s).clock = s.clock := rfl
@[simp] theorem modQuayMedia_tide (q : Nat) (g : QuayMedia → QuayMedia) (s : State) : (modQuayMedia q g s).tide = s.tide := rfl
@[simp] theorem modQuayMedia_hawser (q : Nat) (g : QuayMedia → QuayMedia) (s : State) : (modQuayMedia q g s).hawser = s.hawser := rfl
@[simp] theorem modQuayMedia_storm (q : Nat) (g : QuayMedia → QuayMedia) (s : State) : (modQuayMedia q g s).storm = s.storm := rfl
@[simp] theorem modQuayMedia_motionLog (q : Nat) (g : QuayMedia → QuayMedia) (s : State) : (modQuayMedia q g s).motionLog = s.motionLog := rfl
@[simp] theorem modQuayMedia_lastEvent (q : Nat) (g : QuayMedia → QuayMedia) (s : State) : (modQuayMedia q g s).lastEvent = s.lastEvent := rfl
@[simp] theorem modQuayMedia_pf (q : Nat) (g : QuayMedia → QuayMedia) (s : State) : (modQuayMedia q g s).pf = s.pf := rfl
@[simp] theorem modQuayMedia_mem (q : Nat) (g : QuayMedia → QuayMedia) (s : State) : (modQuayMedia q g s).mem = s.mem := rfl
@[simp] theorem modQuayMedia_repairs (q : Nat) (g : QuayMedia → QuayMedia) (s : State) : (modQuayMedia q g s).repairs = s.repairs := rfl
@[simp] theorem modQuayMedia_logbook (q : Nat) (g : QuayMedia → QuayMedia) (s : State) : (modQuayMedia q g s).logbook = s.logbook := rfl
@[simp] theorem modQuayMedia_logLive (q : Nat) (g : QuayMedia → QuayMedia) (s : State) : (modQuayMedia q g s).logLive = s.logLive := rfl
@[simp] theorem modQuayMedia_trust (q : Nat) (g : QuayMedia → QuayMedia) (s : State) : (modQuayMedia q g s).trust = s.trust := rfl
@[simp] theorem modQuayMedia_boot (q : Nat) (g : QuayMedia → QuayMedia) (s : State) : (modQuayMedia q g s).boot = s.boot := rfl
@[simp] theorem modQuayMedia_side (q : Nat) (g : QuayMedia → QuayMedia) (s : State) : (modQuayMedia q g s).side = s.side := rfl
@[simp] theorem modQuayMedia_thermal (q : Nat) (g : QuayMedia → QuayMedia) (s : State) : (modQuayMedia q g s).thermal = s.thermal := rfl

/-! ### modHawserPort -/

@[simp] theorem modHawserPort_pending (n : Nat) (g : HawserPort → HawserPort) (s : State) : (modHawserPort n g s).pending = s.pending := rfl
@[simp] theorem modHawserPort_now (n : Nat) (g : HawserPort → HawserPort) (s : State) : (modHawserPort n g s).now = s.now := rfl
@[simp] theorem modHawserPort_fresh (n : Nat) (g : HawserPort → HawserPort) (s : State) : (modHawserPort n g s).fresh = s.fresh := rfl
@[simp] theorem modHawserPort_out (n : Nat) (g : HawserPort → HawserPort) (s : State) : (modHawserPort n g s).out = s.out := rfl
@[simp] theorem modHawserPort_fixed (n : Nat) (g : HawserPort → HawserPort) (s : State) : (modHawserPort n g s).fixed = s.fixed := rfl
@[simp] theorem modHawserPort_dev (n : Nat) (g : HawserPort → HawserPort) (s : State) : (modHawserPort n g s).dev = s.dev := rfl
@[simp] theorem modHawserPort_power (n : Nat) (g : HawserPort → HawserPort) (s : State) : (modHawserPort n g s).power = s.power := rfl
@[simp] theorem modHawserPort_net (n : Nat) (g : HawserPort → HawserPort) (s : State) : (modHawserPort n g s).net = s.net := rfl
@[simp] theorem modHawserPort_cmds (n : Nat) (g : HawserPort → HawserPort) (s : State) : (modHawserPort n g s).cmds = s.cmds := rfl
@[simp] theorem modHawserPort_rdma (n : Nat) (g : HawserPort → HawserPort) (s : State) : (modHawserPort n g s).rdma = s.rdma := rfl
@[simp] theorem modHawserPort_regs (n : Nat) (g : HawserPort → HawserPort) (s : State) : (modHawserPort n g s).regs = s.regs := rfl
@[simp] theorem modHawserPort_lb (n : Nat) (g : HawserPort → HawserPort) (s : State) : (modHawserPort n g s).lb = s.lb := rfl
@[simp] theorem modHawserPort_lbSaved (n : Nat) (g : HawserPort → HawserPort) (s : State) : (modHawserPort n g s).lbSaved = s.lbSaved := rfl
@[simp] theorem modHawserPort_media (n : Nat) (g : HawserPort → HawserPort) (s : State) : (modHawserPort n g s).media = s.media := rfl
@[simp] theorem modHawserPort_eng (n : Nat) (g : HawserPort → HawserPort) (s : State) : (modHawserPort n g s).eng = s.eng := rfl
@[simp] theorem modHawserPort_plans (n : Nat) (g : HawserPort → HawserPort) (s : State) : (modHawserPort n g s).plans = s.plans := rfl
@[simp] theorem modHawserPort_lastPlan (n : Nat) (g : HawserPort → HawserPort) (s : State) : (modHawserPort n g s).lastPlan = s.lastPlan := rfl
@[simp] theorem modHawserPort_indexes (n : Nat) (g : HawserPort → HawserPort) (s : State) : (modHawserPort n g s).indexes = s.indexes := rfl
@[simp] theorem modHawserPort_lastIndex (n : Nat) (g : HawserPort → HawserPort) (s : State) : (modHawserPort n g s).lastIndex = s.lastIndex := rfl
@[simp] theorem modHawserPort_vaults (n : Nat) (g : HawserPort → HawserPort) (s : State) : (modHawserPort n g s).vaults = s.vaults := rfl
@[simp] theorem modHawserPort_berths (n : Nat) (g : HawserPort → HawserPort) (s : State) : (modHawserPort n g s).berths = s.berths := rfl
@[simp] theorem modHawserPort_clock (n : Nat) (g : HawserPort → HawserPort) (s : State) : (modHawserPort n g s).clock = s.clock := rfl
@[simp] theorem modHawserPort_tide (n : Nat) (g : HawserPort → HawserPort) (s : State) : (modHawserPort n g s).tide = s.tide := rfl
@[simp] theorem modHawserPort_hawser (n : Nat) (g : HawserPort → HawserPort) (s : State) : (modHawserPort n g s).hawser = { s.hawser with ports := s.hawser.ports.modify n g } := rfl
@[simp] theorem modHawserPort_storm (n : Nat) (g : HawserPort → HawserPort) (s : State) : (modHawserPort n g s).storm = s.storm := rfl
@[simp] theorem modHawserPort_motionLog (n : Nat) (g : HawserPort → HawserPort) (s : State) : (modHawserPort n g s).motionLog = s.motionLog := rfl
@[simp] theorem modHawserPort_lastEvent (n : Nat) (g : HawserPort → HawserPort) (s : State) : (modHawserPort n g s).lastEvent = s.lastEvent := rfl
@[simp] theorem modHawserPort_pf (n : Nat) (g : HawserPort → HawserPort) (s : State) : (modHawserPort n g s).pf = s.pf := rfl
@[simp] theorem modHawserPort_mem (n : Nat) (g : HawserPort → HawserPort) (s : State) : (modHawserPort n g s).mem = s.mem := rfl
@[simp] theorem modHawserPort_repairs (n : Nat) (g : HawserPort → HawserPort) (s : State) : (modHawserPort n g s).repairs = s.repairs := rfl
@[simp] theorem modHawserPort_logbook (n : Nat) (g : HawserPort → HawserPort) (s : State) : (modHawserPort n g s).logbook = s.logbook := rfl
@[simp] theorem modHawserPort_logLive (n : Nat) (g : HawserPort → HawserPort) (s : State) : (modHawserPort n g s).logLive = s.logLive := rfl
@[simp] theorem modHawserPort_trust (n : Nat) (g : HawserPort → HawserPort) (s : State) : (modHawserPort n g s).trust = s.trust := rfl
@[simp] theorem modHawserPort_boot (n : Nat) (g : HawserPort → HawserPort) (s : State) : (modHawserPort n g s).boot = s.boot := rfl
@[simp] theorem modHawserPort_side (n : Nat) (g : HawserPort → HawserPort) (s : State) : (modHawserPort n g s).side = s.side := rfl
@[simp] theorem modHawserPort_thermal (n : Nat) (g : HawserPort → HawserPort) (s : State) : (modHawserPort n g s).thermal = s.thermal := rfl

/-! ### enterState -/

@[simp] theorem enterState_pending (d : DevState) (s : State) : (enterState d s).pending = s.pending := rfl
@[simp] theorem enterState_now (d : DevState) (s : State) : (enterState d s).now = s.now := rfl
@[simp] theorem enterState_fresh (d : DevState) (s : State) : (enterState d s).fresh = s.fresh := rfl
@[simp] theorem enterState_out (d : DevState) (s : State) : (enterState d s).out = s.out := rfl
@[simp] theorem enterState_fixed (d : DevState) (s : State) : (enterState d s).fixed = s.fixed := rfl
@[simp] theorem enterState_dev (d : DevState) (s : State) : (enterState d s).dev = { s.dev with state := d, prev := s.dev.state, enteredAt := s.now } := rfl
@[simp] theorem enterState_power (d : DevState) (s : State) : (enterState d s).power = s.power := rfl
@[simp] theorem enterState_net (d : DevState) (s : State) : (enterState d s).net = s.net := rfl
@[simp] theorem enterState_cmds (d : DevState) (s : State) : (enterState d s).cmds = s.cmds := rfl
@[simp] theorem enterState_rdma (d : DevState) (s : State) : (enterState d s).rdma = s.rdma := rfl
@[simp] theorem enterState_regs (d : DevState) (s : State) : (enterState d s).regs = s.regs := rfl
@[simp] theorem enterState_lb (d : DevState) (s : State) : (enterState d s).lb = s.lb := rfl
@[simp] theorem enterState_lbSaved (d : DevState) (s : State) : (enterState d s).lbSaved = s.lbSaved := rfl
@[simp] theorem enterState_media (d : DevState) (s : State) : (enterState d s).media = { s.media with service := serviceNs s } := rfl
@[simp] theorem enterState_eng (d : DevState) (s : State) : (enterState d s).eng = s.eng := rfl
@[simp] theorem enterState_plans (d : DevState) (s : State) : (enterState d s).plans = s.plans := rfl
@[simp] theorem enterState_lastPlan (d : DevState) (s : State) : (enterState d s).lastPlan = s.lastPlan := rfl
@[simp] theorem enterState_indexes (d : DevState) (s : State) : (enterState d s).indexes = s.indexes := rfl
@[simp] theorem enterState_lastIndex (d : DevState) (s : State) : (enterState d s).lastIndex = s.lastIndex := rfl
@[simp] theorem enterState_vaults (d : DevState) (s : State) : (enterState d s).vaults = s.vaults := rfl
@[simp] theorem enterState_berths (d : DevState) (s : State) : (enterState d s).berths = s.berths := rfl
@[simp] theorem enterState_clock (d : DevState) (s : State) : (enterState d s).clock = s.clock := rfl
@[simp] theorem enterState_tide (d : DevState) (s : State) : (enterState d s).tide = s.tide := rfl
@[simp] theorem enterState_hawser (d : DevState) (s : State) : (enterState d s).hawser = s.hawser := rfl
@[simp] theorem enterState_storm (d : DevState) (s : State) : (enterState d s).storm = s.storm := rfl
@[simp] theorem enterState_motionLog (d : DevState) (s : State) : (enterState d s).motionLog = s.motionLog := rfl
@[simp] theorem enterState_lastEvent (d : DevState) (s : State) : (enterState d s).lastEvent = s.lastEvent := rfl
@[simp] theorem enterState_pf (d : DevState) (s : State) : (enterState d s).pf = s.pf := rfl
@[simp] theorem enterState_mem (d : DevState) (s : State) : (enterState d s).mem = s.mem := rfl
@[simp] theorem enterState_repairs (d : DevState) (s : State) : (enterState d s).repairs = s.repairs := rfl
@[simp] theorem enterState_logbook (d : DevState) (s : State) : (enterState d s).logbook = s.logbook := rfl
@[simp] theorem enterState_logLive (d : DevState) (s : State) : (enterState d s).logLive = s.logLive := rfl
@[simp] theorem enterState_trust (d : DevState) (s : State) : (enterState d s).trust = s.trust := rfl
@[simp] theorem enterState_boot (d : DevState) (s : State) : (enterState d s).boot = s.boot := rfl
@[simp] theorem enterState_side (d : DevState) (s : State) : (enterState d s).side = s.side := rfl
@[simp] theorem enterState_thermal (d : DevState) (s : State) : (enterState d s).thermal = s.thermal := rfl

end Sys2Proof.Machine
end

