-- ==== Sys2Proof/Laws/Commands.lean ====
section
/-! SUPPORT. How a whole command gets from its arrival to its completion: one lemma per stage, which proofs about single
commands cite. -/

namespace Sys2Proof.Machine

/-! ### Up to admission -/

@[simp] theorem counted_cmds (t : Nat) (f : Frame) (s : State) : (counted t f s).cmds = s.cmds := rfl
@[simp] theorem counted_power (t : Nat) (f : Frame) (s : State) : (counted t f s).power = s.power := rfl
@[simp] theorem counted_dev (t : Nat) (f : Frame) (s : State) : (counted t f s).dev = s.dev := rfl
@[simp] theorem counted_out (t : Nat) (f : Frame) (s : State) : (counted t f s).out = s.out := rfl
@[simp] theorem counted_rdma (t : Nat) (f : Frame) (s : State) : (counted t f s).rdma = s.rdma := rfl
@[simp] theorem counted_media (t : Nat) (f : Frame) (s : State) : (counted t f s).media = s.media := rfl
@[simp] theorem counted_now (t : Nat) (f : Frame) (s : State) : (counted t f s).now = max s.now t := rfl

theorem atAdmission_split (t : Nat) (f : Frame) (s : State) (P : State → Prop) (h : P (counted t f s)) (h' : ∀ q, P (setQueue q (counted t f s))) :
    P (atAdmission t f s) := by
  unfold atAdmission; split
  · exact h' _
  · exact h

@[simp] theorem atAdmission_cmds (t : Nat) (f : Frame) (s : State) : (atAdmission t f s).cmds = s.cmds :=
  atAdmission_split t f s (fun x => x.cmds = s.cmds) rfl (fun _ => rfl)
@[simp] theorem atAdmission_power (t : Nat) (f : Frame) (s : State) : (atAdmission t f s).power = s.power :=
  atAdmission_split t f s (fun x => x.power = s.power) rfl (fun _ => rfl)
@[simp] theorem atAdmission_dev (t : Nat) (f : Frame) (s : State) : (atAdmission t f s).dev = s.dev :=
  atAdmission_split t f s (fun x => x.dev = s.dev) rfl (fun _ => rfl)
@[simp] theorem atAdmission_out (t : Nat) (f : Frame) (s : State) : (atAdmission t f s).out = s.out :=
  atAdmission_split t f s (fun x => x.out = s.out) rfl (fun _ => rfl)

/-- A command in order meets admission in the state `atAdmission`. -/
theorem runCommand_accept {sp : CmdSpec} {t : Nat} {f : Frame} {s : State} (hop : specOf sp.opcode = some sp) (h : Accepted sp t f s) :
    runCommand sp.opcode t f s = settled t f s (accept sp f (sequenced t f s) (atAdmission t f s)) := by
  obtain ⟨-, ⟨hup, hhd, hur, hlen⟩, hord, hadm⟩ := h
  have hn : max 1 (ceilDiv (f.params.length + f.payload.length) (fragUnit s)) = 1 := by
    have hU : fragUnit s = 8192 ∨ fragUnit s = 1408 := by unfold fragUnit; split <;> simp
    unfold ceilDiv
    have : (f.params.length + f.payload.length + fragUnit s - 1) / fragUnit s ≤ 1 := by
      rcases hU with h | h <;> rw [h] at hlen ⊢ <;> omega
    omega
  have hU2 : fragUnit (setNow t s) = fragUnit s := rfl
  unfold runCommand
  simp only [hup, if_true, hU2, hn, Nat.mul_one, hhd]
  have hc : hostCharge f.berth f.port (32 + (f.params.length + f.payload.length))
      (modPortStats f.port (fun p => { p with framesIn := satAdd 64 p.framesIn 1 }) (setNow t s)) = counted t f s := rfl
  rw [hc]
  unfold submit
  rw [if_neg (by simp [hur])]
  have key : admitCommand sp.opcode f (sequenced t f s) (atAdmission t f s) = accept sp f (sequenced t f s) (atAdmission t f s) := by
    simp only [admitCommand, hop, hadm]
  rw [← key]
  by_cases hs : sequenced t f s = true
  · obtain ⟨h1, h2⟩ := hord hs
    have hs' : sequencedNow (counted t f s) f = true := hs
    have hd : (f.seq - (getQueue (counted t f s) f.berth f.queue).expected).toNat = 0 := by rw [h1]; simp
    have hA : atAdmission t f s = setQueue { getQueue (counted t f s) f.berth f.queue with
        expected := (getQueue (counted t f s) f.berth f.queue).expected + 1 } (counted t f s) := by
      unfold atAdmission; rw [if_pos hs]
    rw [if_pos hs', hA, settled, if_pos hs, hs]
    unfold sequence
    simp only [hd, if_true]
    unfold inOrder
    simp only [h2, List.length_nil, followers]
  · have hs' : ¬ sequencedNow (counted t f s) f = true := hs
    have hf : sequenced t f s = false := by simpa using hs
    have hA : atAdmission t f s = counted t f s := by unfold atAdmission; rw [if_neg hs]
    rw [if_neg hs', hA, settled, if_neg hs, hf]

/-! ### From admission to completion -/

/-- A command whose work takes no time of its own and fetches no host data. -/
structure Plain (sp : CmdSpec) : Prop where
  result : sp.result = false
  take   : ∀ s a, sp.take s a = s
  start  : ∀ s a, sp.start s a = s
  slow   : ∀ s a, sp.slow s a = false
  fetch  : ∀ s f, (sp.uses s f).fetch = []

@[simp] theorem enter_cmds (sp : CmdSpec) (f : Frame) (c : Bool) (s : State) :
    (enter sp f c s).cmds = { s.cmds with
      nextId := s.cmds.nextId + 1, active := s.cmds.active ++ [newActive sp f c s],
      slots := if sp.result then newSlot sp f s :: s.cmds.slots else s.cmds.slots } := by
  unfold enter; dsimp only; split <;> rfl

@[simp] theorem enter_power (sp : CmdSpec) (f : Frame) (c : Bool) (s : State) : (enter sp f c s).power = s.power := by
  unfold enter; dsimp only; split <;> rfl

@[simp] theorem enter_berths (sp : CmdSpec) (f : Frame) (c : Bool) (s : State) : (enter sp f c s).berths = s.berths := by
  unfold enter; dsimp only; split <;> rfl

theorem find_append_new {l : List Active} {a : Active} {n : Nat} (h : ∀ x ∈ l, x.id < n) (ha : a.id = n) :
    (l ++ [a]).find? (fun x => x.id == n) = some a := by
  rw [List.find?_append]
  have : l.find? (fun x => x.id == n) = none := by
    rw [List.find?_eq_none]; intro x hx; have := h x hx; simp; omega
  rw [this]; simp [ha]

theorem map_append_new {l : List Active} {a : Active} {n : Nat} (g : Active → Active) (h : ∀ x ∈ l, x.id < n) (ha : a.id = n) :
    (l ++ [a]).map (fun x => if x.id == n then g x else x) = l ++ [g a] := by
  rw [List.map_append, List.map_cons, List.map_nil, if_pos (by simp [ha])]
  congr 1
  conv_rhs => rw [← List.map_id l]
  refine List.map_congr_left (fun x hx => ?_)
  have := h x hx
  rw [if_neg (by simp; omega)]; rfl

/-- A command that names no data reference is unhurt. -/
theorem unhurt_of_norefs {sp : CmdSpec} {t : Nat} {f : Frame} {s : State} (hr : ∀ s f, (sp.uses s f).refs = []) (hs : ∀ s f, (sp.uses s f).sources = []) :
    Unhurt sp t f s := by
  constructor
  · have : (startedCmd sp t f s).qps = [] := by simp [startedCmd, newActive, refQps, hr]
    simp [failedQp, this]
  · unfold poisonedRef
    dsimp only
    rw [hr, hs]
    split
    · rfl
    · simp [firstSome]

/-- A command that starts at once and is plain ends its work in the same step. -/
theorem accept_plain {sp : CmdSpec} {t : Nat} {f : Frame} {s : State} (hp : Plain sp) (h : Starts sp t f s) (hc : Unhurt sp t f s) :
    accept sp f (sequenced t f s) (atAdmission t f s) =
      sp.after (complete (startedCmd sp t f s) (sp.work (running sp t f s) (startedCmd sp t f s)).2 (sp.work (running sp t f s) (startedCmd sp t f s)).1)
        (startedCmd sp t f s) := by
  obtain ⟨⟨⟨-, hids, -⟩, -, -, -⟩, hprev, hsus, hdep, hwait⟩ := h
  set A := atAdmission t f s with hA
  set c := sequenced t f s
  have hcm : A.cmds = s.cmds := atAdmission_cmds t f s
  have hidsA : ∀ x ∈ A.cmds.active, x.id < A.cmds.nextId := by rw [hcm]; exact hids
  have hid : (newActive sp f c A).id = A.cmds.nextId := rfl
  have htk : taken sp t f s = enter sp f c A := by
    simp only [taken, hp.take, hp.result]; rfl
  rw [htk] at hwait
  have hget : getActive (enter sp f c A) A.cmds.nextId = some (newActive sp f c A) := by
    simp only [getActive, enter_cmds]; exact find_append_new hidsA hid
  have hber : (getBerth (enter sp f c A) f.berth).state = (getBerth s f.berth).state := by
    have hg : ∀ (g : Berth → Berth) (l : List Berth) (b : Nat), (∀ x, (g x).state = x.state) → ((l.modify b g).getD f.berth {}).state = (l.getD f.berth {}).state := by
      intro g l b hg
      simp only [List.getD_eq_getElem?_getD, List.getElem?_modify]
      cases l[f.berth]? with
      | none => rfl
      | some x => simp; split <;> simp [hg]
    have : A.berths = (counted t f s).berths := by rw [hA]; unfold atAdmission; split <;> rfl
    simp only [getBerth, enter_berths, this]
    exact hg _ _ _ (fun _ => rfl)
  have hph : phaseOf sp (enter sp f c A) (newActive sp f c A) = 3 := by
    unfold phaseOf
    rw [if_neg, if_neg, if_neg (by rw [hwait]; simp), if_neg]
    · show ¬ sp.depth A f < _
      rw [enter_power, hA, atAdmission_power]; exact not_lt.mpr hdep
    · rintro ⟨h1, h2⟩
      have h2' : (getBerth s f.berth).state = .suspended := by rw [← hber]; exact h2
      rcases hsus with h | h
      · rcases h1 with h1 | h1
        · exact h1 h
        · simp [newActive] at h1
      · exact h h2'
    · simp only [Bool.and_eq_true, enter_cmds, List.any_eq_true, decide_eq_true_eq, beq_iff_eq, not_and, not_exists]
      intro hcs x hx
      rcases List.mem_append.mp hx with hx | hx
      · rw [hcm] at hx
        intro hh
        exact not_lt.mpr (hprev x hx hh.1.1.2 hh.1.2 hh.2)
      · simp only [List.mem_singleton] at hx
        subst hx
        intro hh
        exact absurd hh.1.1.1 (lt_irrefl _)
  have hact : ∀ (X : State) (g : Active → Active), X.cmds.active = A.cmds.active ++ [newActive sp f c A] →
      (∀ x, (g x).id = x.id) → (modActive A.cmds.nextId g X).cmds.active = A.cmds.active ++ [g (newActive sp f c A)] := by
    intro X g hX _
    rw [modActive_cmds, hX]; exact map_append_new g hidsA hid
  unfold accept
  simp only [hp.take, hp.result, Bool.false_eq_true, if_false]
  unfold tryStart
  rw [hget]
  dsimp only
  rw [if_neg (by simp [newActive]), hph, if_neg (by omega)]
  simp only [hp.fetch, fetchAll, hp.start, List.map_nil, List.isEmpty_nil, hp.slow, Bool.not_false, Bool.and_true, if_true]
  set g1 : Active → Active := fun a => { a with phase := 3 } with hg1
  set g2 : Active → Active := fun a => { a with awaiting := [] } with hg2
  have e1 : (modActive A.cmds.nextId g1 (enter sp f c A)).cmds.active = A.cmds.active ++ [g1 (newActive sp f c A)] :=
    hact _ _ (by rw [enter_cmds]) (fun _ => rfl)
  have e2 : (modActive A.cmds.nextId g2 (modActive A.cmds.nextId g1 (enter sp f c A))).cmds.active = A.cmds.active ++ [startedCmd sp t f s] := by
    rw [modActive_cmds]
    show List.map _ _ = _
    rw [e1, map_append_new g2 hidsA (show (g1 (newActive sp f c A)).id = _ from hid)]; rfl
  have erun : modActive A.cmds.nextId g2 (modActive A.cmds.nextId g1 (enter sp f c A)) = running sp t f s := by
    unfold running
    rw [htk]
    dsimp only
    rw [← hA, ← e2]
    rfl
  rw [erun]
  have hgr : getActive (running sp t f s) A.cmds.nextId = some (startedCmd sp t f s) := by
    simp only [getActive, running]; exact find_append_new hidsA hid
  rw [hgr]
  dsimp only
  unfold endWork
  dsimp only
  rw [hc.1, show (startedCmd sp t f s).frame = f from rfl, hc.2]

/-! ### Rows that are one whole command -/

theorem quickRows_exec : ∀ r ∈ quickRows, ∀ t f s, exec (r.row t f) s = .next (runCommand r.spec.opcode t (r.frame f) s) := by
  simp only [quickRows, List.forall_mem_append, List.forall_mem_cons, List.not_mem_nil, false_implies, implies_true, and_true]
  repeat' apply And.intro
  all_goals exact fun _ _ _ => rfl

theorem quickRows_spec : ∀ r ∈ quickRows, specOf r.spec.opcode = some r.spec := by
  simp only [quickRows, List.forall_mem_append, List.forall_mem_cons, List.not_mem_nil, false_implies, implies_true, and_true]
  repeat' apply And.intro
  all_goals rfl

theorem quickRows_plain : ∀ r ∈ quickRows, Plain r.spec := by
  simp only [quickRows, List.forall_mem_append, List.forall_mem_cons, List.not_mem_nil, false_implies, implies_true, and_true]
  repeat' apply And.intro
  all_goals exact ⟨rfl, fun _ _ => rfl, fun _ _ => rfl, fun _ _ => rfl, fun _ _ => rfl⟩

theorem quickRows_frame : ∀ r ∈ quickRows, ∀ f, r.frame f = f := by
  simp only [quickRows, List.forall_mem_append, List.forall_mem_cons, List.not_mem_nil, false_implies, implies_true, and_true]
  repeat' apply And.intro
  all_goals exact fun _ => rfl

theorem quickRows_after : ∀ r ∈ quickRows, ∀ s a, r.spec.after s a = s := by
  simp only [quickRows, List.forall_mem_append, List.forall_mem_cons, List.not_mem_nil, false_implies, implies_true, and_true]
  repeat' apply And.intro
  all_goals exact fun _ _ => rfl

theorem resultRows_exec : ∀ r ∈ resultRows ++ storedRows ++ slowRows, ∀ t f s, exec (r.row t f) s = .next (runCommand r.spec.opcode t (r.frame f) s) := by
  simp only [resultRows, storedRows, slowRows, List.forall_mem_append, List.forall_mem_cons, List.not_mem_nil, false_implies, implies_true, and_true]
  repeat' apply And.intro
  all_goals exact fun _ _ _ => rfl

theorem resultRows_spec : ∀ r ∈ resultRows ++ storedRows ++ slowRows, specOf r.spec.opcode = some r.spec := by
  simp only [resultRows, storedRows, slowRows, List.forall_mem_append, List.forall_mem_cons, List.not_mem_nil, false_implies, implies_true, and_true]
  repeat' apply And.intro
  all_goals rfl

end Sys2Proof.Machine
end

