-- ==== Sys2Proof/Laws/Deliver.lean ====
section
/-! SUPPORT. What replies, reply caches, gap timers and completions change: for each operation one lemma that names every
field it may change. -/

namespace Sys2Proof.Machine

theorem countReply_frame (p st : Nat) (s : State) : countReply p st s = { s with net := (countReply p st s).net } := rfl

theorem sendReply_frame (p : Nat) (ip : Addr) (udp : Nat) (r : Reply) (s : State) :
    sendReply p ip udp r s = { s with net := (sendReply p ip udp r s).net, out := (sendReply p ip udp r s).out } := by
  unfold sendReply; dsimp only; split <;> rfl

/-- A port that is up sends the reply; one that is not sends nothing. -/
theorem sendReply_out (p : Nat) (ip : Addr) (udp : Nat) (r : Reply) (s : State) :
    (sendReply p ip udp r s).out = if portUp s p then .reply p ip udp (fragUnit s) r :: s.out else s.out := by
  unfold sendReply; dsimp only; split <;> rfl

theorem cachePut_frame (b q : Nat) (x : BitVec 32) (c : Cached) (s : State) : cachePut b q x c s = { s with net := (cachePut b q x c s).net } := rfl

theorem answer_frame (op : Nat) (f : Frame) (c : Bool) (st : Nat) (d : Detail) (fl pl : Bytes) (s : State) :
    answer op f c st d fl pl s = { s with net := (answer op f c st d fl pl s).net, out := (answer op f c st d fl pl s).out } := by
  unfold answer; dsimp only
  split
  · rw [cachePut_frame, sendReply_frame]
  · rw [sendReply_frame]

theorem answer_out (op : Nat) (f : Frame) (c : Bool) (st : Nat) (d : Detail) (fl pl : Bytes) (s : State) :
    (answer op f c st d fl pl s).out =
      if portUp s f.port then .reply f.port f.srcIp f.srcUdp (fragUnit s) (replyOf s op f st d fl pl) :: s.out else s.out := by
  unfold answer; dsimp only
  split
  · rw [cachePut_frame]; exact sendReply_out ..
  · exact sendReply_out ..

theorem gapTimer_frame (b q : Nat) (e : BitVec 32) (s : State) : gapTimer b q e s = { s with net := (gapTimer b q e s).net } := by
  unfold gapTimer; dsimp only; split
  · rfl
  · split <;> rfl

theorem settled_frame (t : Nat) (f : Frame) (s r : State) : settled t f s r = { r with net := (settled t f s r).net } := by
  unfold settled; split
  · exact gapTimer_frame ..
  · rfl

/-- Freed units restart idle timers and count waits in the berth's use statistics; nothing else changes. -/
theorem unitsReleased_frame (a : Active) (s : State) :
    unitsReleased a s = { s with power := (unitsReleased a s).power, berths := (unitsReleased a s).berths, fresh := (unitsReleased a s).fresh } := by
  unfold unitsReleased; dsimp only; split
  · split <;> rfl
  · rfl

/-- A berth keeps everything but its use statistics when a command's units are freed. -/
theorem unitsReleased_berth (a : Active) (s : State) (b : Nat) :
    getBerth (unitsReleased a s) b = { getBerth s b with use := (getBerth (unitsReleased a s) b).use } := by
  have key : ∀ (g : Berth → Berth) (l : List Berth), (∀ x, g x = { x with use := (g x).use }) →
      (l.modify a.frame.berth g).getD b {} = { l.getD b {} with use := ((l.modify a.frame.berth g).getD b {}).use } := by
    intro g l hg
    simp only [List.getD_eq_getElem?_getD, List.getElem?_modify]
    cases l[b]? with
    | none => rfl
    | some x =>
      simp only [Option.map_eq_map, Option.map_some, Option.getD_some]
      split
      · exact hg x
      · rfl
  unfold unitsReleased; dsimp only; split
  · split
    · exact key _ _ (fun _ => rfl)
    · rfl
  · rfl

theorem drainIdle_none (s : State) (h : s.dev.drain = none) : drainIdle s = s := by unfold drainIdle; rw [h]

theorem countUe_ok (st : Nat) (s : State) (h : st ≠ stMediaUe) : countUe st s = s := by unfold countUe; rw [if_neg h]

/-- The state from which a completing command is answered. -/
def freed (a : Active) (s : State) : State := unitsReleased a (dropWork a.id (dropActive a.id s))

/-- Completing a host's command that is not result-producing, outside a drain: what it held is freed and it is answered. -/
theorem complete_answer (a : Active) (o : WorkOut) (s : State) (hr : a.result = false) (ho : a.origin = none) (hd : s.dev.drain = none)
    (hu : o.status ≠ stMediaUe) :
    complete a o s = answer a.opcode a.frame a.sequenced o.status o.detail o.fields o.payload (freed a s) := by
  unfold complete
  dsimp only
  rw [ho, hr, countUe_ok _ _ hu]
  simp only [Bool.false_eq_true, if_false]
  refine drainIdle_none _ ?_
  rw [answer_frame, unitsReleased_frame]
  exact hd

theorem freed_frame (a : Active) (s : State) :
    freed a s = { s with cmds := (dropActive a.id s).cmds, hawser := (freed a s).hawser, power := (freed a s).power, berths := (freed a s).berths, fresh := (freed a s).fresh } := by
  unfold freed; rw [unitsReleased_frame]; rfl

/-- When the last accepted command of a drain completes, the drain goes on: OPEN captures and their regions go. -/
theorem drainIdle_frame (s : State) : drainIdle s = { s with dev := (drainIdle s).dev, vaults := (drainIdle s).vaults, rdma := (drainIdle s).rdma } := by
  unfold drainIdle; split
  · split <;> rfl
  · rfl

theorem finish_eq (sp : CmdSpec) (t : Nat) (f : Frame) (s w : State) (o : WorkOut) (hr : sp.result = false) (hd : w.dev.drain = none) (hu : o.status ≠ stMediaUe) :
    finish sp t f s w o = settled t f s (answer sp.opcode f (sequenced t f s) o.status o.detail o.fields o.payload (freed (startedCmd sp t f s) w)) := by
  unfold finish; rw [complete_answer _ _ _ hr rfl hd hu]; rfl

end Sys2Proof.Machine
end

