-- ==== Sys2Proof/Laws/Answers.lean ====
section
/-! SUPPORT. What a command that is answered in its own step leaves: `answers_of_work` turns what its work does into the
state after the reply. -/

namespace Sys2Proof.Machine

/-! ### Places -/

theorem getBerth_modBerth (b c : Nat) (g : Berth → Berth) (s : State) :
    getBerth (modBerth b g s) c = if b = c ∧ c < s.berths.length then g (getBerth s c) else getBerth s c := by
  simp only [getBerth, modBerth, List.getD_eq_getElem?_getD, List.getElem?_modify]
  by_cases hc : c < s.berths.length
  · rw [List.getElem?_eq_getElem hc]
    by_cases hb : b = c <;> simp [hb, hc]
  · rw [List.getElem?_eq_none (by omega)]
    simp [hc]

theorem hostPort_modPort (n m : Nat) (g : HostPort → HostPort) (s : State) :
    hostPort (modPort n g s) m = if n = m ∧ m < s.net.ports.length then g (hostPort s m) else hostPort s m := by
  simp only [hostPort, modPort, List.getD_eq_getElem?_getD, List.getElem?_modify]
  by_cases hc : m < s.net.ports.length
  · rw [List.getElem?_eq_getElem hc]
    by_cases hb : n = m <;> simp [hb, hc]
  · rw [List.getElem?_eq_none (by omega)]
    simp [hc]

theorem find?_filter_ne {α : Type} (p q : α → Bool) (l : List α) (h : ∀ x, p x = true → q x = true) : (l.filter q).find? p = l.find? p := by
  induction l with
  | nil => rfl
  | cons x l ih =>
    by_cases hq : q x = true
    · rw [List.filter_cons_of_pos hq, List.find?_cons, List.find?_cons, ih]
    · rw [List.filter_cons_of_neg hq, ih, List.find?_cons]
      have : p x = false := by
        cases hp : p x with
        | false => rfl
        | true => exact absurd (h x hp) hq
      rw [this]

theorem getQueue_setQueue (q : Queue) (b n : Nat) (s : State) :
    getQueue (setQueue q s) b n = if b = q.berth ∧ n = q.queue then q else getQueue s b n := by
  simp only [getQueue, setQueue, List.find?_cons]
  by_cases h : b = q.berth ∧ n = q.queue
  · obtain ⟨rfl, rfl⟩ := h
    simp
  · rw [if_neg h]
    have : (q.berth == b && q.queue == n) = false := by
      rw [Bool.and_eq_false_iff]
      by_cases hb : b = q.berth
      · right
        have : n ≠ q.queue := fun hn => h ⟨hb, hn⟩
        simp [Ne.symm this]
      · left
        simp [Ne.symm hb]
    rw [this]
    rw [find?_filter_ne]
    intro x hx
    simp only [Bool.and_eq_true, beq_iff_eq] at hx
    simp only [Bool.not_eq_true', Bool.and_eq_false_iff, beq_eq_false_iff_ne]
    by_cases hb : b = q.berth
    · right
      have : n ≠ q.queue := fun hn => h ⟨hb, hn⟩
      omega
    · left
      omega

theorem getQueue_berth (s : State) (b q : Nat) : (getQueue s b q).berth = b ∧ (getQueue s b q).queue = q := by
  unfold getQueue
  cases h : s.net.queues.find? (fun x => x.berth == b && x.queue == q) with
  | none => exact ⟨rfl, rfl⟩
  | some x =>
    have := List.find?_some h
    simp only [Bool.and_eq_true, beq_iff_eq] at this
    exact this

/-! ### Places kept -/

theorem PlacesKept.refl (f : Frame) (s : State) : PlacesKept f s s :=
  ⟨fun _ => rfl, fun _ => rfl, fun b q => by split <;> rfl⟩

theorem PlacesKept.trans {f : Frame} {a b c : State} (h : PlacesKept f a b) (h' : PlacesKept f b c) : PlacesKept f a c := by
  refine ⟨fun n => ?_, fun n => ?_, fun m q => ?_⟩
  · rw [h'.1 n, h.1 n]
  · rw [h'.2.1 n, h.2.1 n]
  · have h1 := h.2.2 m q
    have h2 := h'.2.2 m q
    split at h1
    · rename_i hc
      rw [if_pos hc] at h2 ⊢
      rw [h2, h1]
    · rename_i hc
      rw [if_neg hc] at h2 ⊢
      rw [h2, h1]

/-- Operations that leave berths, ports and queues alone keep every place. -/
theorem PlacesKept.of_eq (f : Frame) {a b : State} (hb : b.berths = a.berths) (hp : b.net.ports = a.net.ports) (hq : b.net.queues = a.net.queues) :
    PlacesKept f a b := by
  have h1 : ∀ n, getBerth b n = getBerth a n := fun n => by simp only [getBerth, hb]
  have h2 : ∀ n, hostPort b n = hostPort a n := fun n => by simp only [hostPort, hp]
  have h3 : ∀ n q, getQueue b n q = getQueue a n q := fun n q => by simp only [getQueue, hq]
  refine ⟨fun n => by rw [h1], fun n => by rw [h2], fun m q => ?_⟩
  rw [h3]; split <;> rfl

theorem PlacesKept.modBerth (f : Frame) (b : Nat) (g : Berth → Berth) (s : State) (hg : ∀ x, g x = { x with use := (g x).use, buckets := (g x).buckets }) :
    PlacesKept f s (modBerth b g s) := by
  refine ⟨fun n => ?_, fun _ => rfl, fun m q => ?_⟩
  · rw [getBerth_modBerth]; split
    · exact hg _
    · rfl
  · show getQueue s m q = _
    split <;> rfl

theorem PlacesKept.modPortStats (f : Frame) (n : Nat) (g : PortStats → PortStats) (s : State) : PlacesKept f s (modPortStats n g s) := by
  refine ⟨fun _ => rfl, fun m => ?_, fun m q => ?_⟩
  · unfold Machine.modPortStats
    rw [hostPort_modPort]; split <;> rfl
  · show getQueue s m q = _
    split <;> rfl

theorem PlacesKept.setQueue {f : Frame} {q : Queue} {s : State} (hb : q.berth = f.berth) (hq : q.queue = f.queue)
    (h : q = { getQueue s f.berth f.queue with expected := q.expected, cache := q.cache, dest := q.dest, gapSince := q.gapSince }) :
    PlacesKept f s (setQueue q s) := by
  refine ⟨fun _ => rfl, fun _ => rfl, fun m n => ?_⟩
  rw [getQueue_setQueue, hb, hq]
  split
  · rename_i hc
    obtain ⟨rfl, rfl⟩ := hc
    exact h
  · rfl

/-! ### Where an operation keeps places -/

theorem counted_places (t : Nat) (f : Frame) (s : State) : PlacesKept f s (counted t f s) := by
  unfold counted hostCharge
  exact ((PlacesKept.of_eq f (a := s) (b := setNow t s) rfl rfl rfl).trans (PlacesKept.modPortStats f _ _ _)).trans
    (PlacesKept.modBerth f _ _ _ (fun _ => rfl))

theorem own_queue (f : Frame) (s : State) : (getQueue s f.berth f.queue).berth = f.berth ∧ (getQueue s f.berth f.queue).queue = f.queue :=
  getQueue_berth s f.berth f.queue

theorem atAdmission_places (t : Nat) (f : Frame) (s : State) : PlacesKept f s (atAdmission t f s) := by
  unfold atAdmission
  split
  · refine (counted_places t f s).trans (PlacesKept.setQueue ?_ ?_ rfl)
    · exact (own_queue f _).1
    · exact (own_queue f _).2
  · exact counted_places t f s

theorem enter_places (sp : CmdSpec) (f : Frame) (c : Bool) (s : State) : PlacesKept f s (enter sp f c s) := by
  unfold enter
  dsimp only
  split
  · exact PlacesKept.of_eq f rfl rfl rfl
  · refine (PlacesKept.of_eq f (a := s) rfl rfl rfl).trans (PlacesKept.setQueue ?_ ?_ rfl)
    · exact (own_queue f _).1
    · exact (own_queue f _).2

theorem countReply_places (f : Frame) (p st : Nat) (s : State) : PlacesKept f s (countReply p st s) := PlacesKept.modPortStats f _ _ _

theorem sendReply_places (f : Frame) (p : Nat) (ip : Addr) (udp : Nat) (r : Reply) (s : State) : PlacesKept f s (sendReply p ip udp r s) := by
  unfold sendReply
  dsimp only
  split
  · exact (countReply_places f _ _ s).trans (PlacesKept.of_eq f rfl rfl rfl)
  · exact countReply_places f _ _ s

theorem answer_places (op : Nat) (f : Frame) (c : Bool) (st : Nat) (d : Detail) (fl pl : Bytes) (s : State) :
    PlacesKept f s (answer op f c st d fl pl s) := by
  unfold answer
  dsimp only
  split
  · refine (sendReply_places f _ _ _ _ s).trans (PlacesKept.setQueue ?_ ?_ rfl)
    · exact (own_queue f _).1
    · exact (own_queue f _).2
  · exact sendReply_places f _ _ _ _ s

theorem gapTimer_places (f : Frame) (e : BitVec 32) (s : State) : PlacesKept f s (gapTimer f.berth f.queue e s) := by
  unfold gapTimer
  dsimp only
  split
  · refine PlacesKept.setQueue ?_ ?_ rfl
    · exact (own_queue f _).1
    · exact (own_queue f _).2
  · split
    · refine PlacesKept.setQueue ?_ ?_ rfl
      · exact (own_queue f _).1
      · exact (own_queue f _).2
    · exact PlacesKept.refl f s

theorem settled_places (t : Nat) (f : Frame) (s r : State) : PlacesKept f r (settled t f s r) := by
  unfold settled
  split
  · exact gapTimer_places f _ r
  · exact PlacesKept.refl f r

theorem unitsReleased_places (f : Frame) (a : Active) (s : State) : PlacesKept f s (unitsReleased a s) := by
  unfold unitsReleased
  dsimp only
  split
  · split
    · exact (PlacesKept.of_eq f (a := s) rfl rfl rfl).trans ((PlacesKept.modBerth f _ _ _ (fun _ => rfl)).trans (PlacesKept.of_eq f rfl rfl rfl))
    · exact PlacesKept.of_eq f rfl rfl rfl
  · exact PlacesKept.refl f s

theorem freed_places (f : Frame) (a : Active) (s : State) : PlacesKept f s (freed a s) := by
  unfold freed
  exact (PlacesKept.of_eq f (a := s) rfl rfl rfl).trans (unitsReleased_places f a _)

/-! ### What is kept beside places -/

theorem answer_net (op : Nat) (f : Frame) (c : Bool) (st : Nat) (d : Detail) (fl pl : Bytes) (s : State) :
    (answer op f c st d fl pl s).net =
      { s.net with ports := (answer op f c st d fl pl s).net.ports, queues := (answer op f c st d fl pl s).net.queues } := by
  unfold answer sendReply
  dsimp only
  split <;> split <;> rfl

theorem settled_net (t : Nat) (f : Frame) (s r : State) :
    (settled t f s r).net = { r.net with queues := (settled t f s r).net.queues } := by
  unfold settled gapTimer
  dsimp only
  split
  · split
    · rfl
    · split <;> rfl
  · rfl

theorem unitsReleased_power (a : Active) (s : State) : (unitsReleased a s).power =
    { s.power with
      lastP0 := (unitsReleased a s).power.lastP0
      lastNand := (unitsReleased a s).power.lastNand
      lastSram := (unitsReleased a s).power.lastSram } := by
  unfold unitsReleased
  dsimp only
  split
  · split <;> rfl
  · rfl

theorem freed_hawser (a : Active) (s : State) : (freed a s).hawser = (dropWork a.id s).hawser := by
  unfold freed
  rw [unitsReleased_frame]
  rfl

/-! ### The state in which a plain command's work is done -/

/-- What admission has changed when a plain command's work is done. -/
structure Admitted (f : Frame) (a : Active) (s r : State) : Prop where
  eq : r = { s with
    now := r.now, berths := r.berths
    net := { s.net with ports := r.net.ports, queues := r.net.queues }
    cmds := { s.cmds with nextId := s.cmds.nextId + 1, active := s.cmds.active ++ [a] } }
  places : PlacesKept f s r
  id : a.id = s.cmds.nextId

theorem running_admitted {sp : CmdSpec} {t : Nat} {f : Frame} {s : State} (hp : Plain sp) : Admitted f (startedCmd sp t f s) s (running sp t f s) := by
  have hcm := atAdmission_cmds t f s
  refine ⟨?_, ?_, ?_⟩
  · have e : atAdmission t f s = { s with
        now := (atAdmission t f s).now, berths := (atAdmission t f s).berths
        net := { s.net with ports := (atAdmission t f s).net.ports, queues := (atAdmission t f s).net.queues } } := by
      unfold atAdmission; split <;> rfl
    have e2 : ∀ x : State, enter sp f (sequenced t f s) x =
        { x with cmds := (enter sp f (sequenced t f s) x).cmds, net := { x.net with queues := (enter sp f (sequenced t f s) x).net.queues } } := by
      intro x; unfold enter; dsimp only; split <;> rfl
    have hcmds : (enter sp f (sequenced t f s) (atAdmission t f s)).cmds =
        { s.cmds with nextId := s.cmds.nextId + 1, active := s.cmds.active ++ [newActive sp f (sequenced t f s) (atAdmission t f s)] } := by
      rw [enter_cmds, hcm, hp.result]; rfl
    unfold running taken
    simp only [hp.take, hp.result, Bool.false_eq_true, if_false]
    rw [e2, hcmds, hcm]
    generalize hA : atAdmission t f s = A at *
    rw [e]
  · unfold running taken
    simp only [hp.take, hp.result, Bool.false_eq_true, if_false]
    exact ((atAdmission_places t f s).trans (enter_places sp f _ _)).trans (PlacesKept.of_eq f rfl rfl rfl)
  · show (atAdmission t f s).cmds.nextId = _
    rw [hcm]

/-- The works of commands that cannot end with a media error and change only what `w` says. -/
structure WorkIs (f : Frame) (a : Active) (w w' : State) : Prop where
  eq : w' = { w with
    now := w'.now, fresh := w'.fresh, berths := w'.berths
    net := { w.net with ports := w'.net.ports, queues := w'.net.queues }
    cmds := { w.cmds with nextId := w.cmds.nextId + 1, active := w.cmds.active ++ [a] } }
  places : PlacesKept f w w'

theorem answeredAs_intro {u w : State}
    (h0 : u = { w with now := u.now, fresh := u.fresh, out := u.out, berths := u.berths, net := u.net, cmds := u.cmds, power := u.power, hawser := u.hawser })
    (hn : u.net = { w.net with ports := u.net.ports, queues := u.net.queues })
    (hc : u.cmds = { w.cmds with nextId := w.cmds.nextId + 1 })
    (hp : u.power = { w.power with lastP0 := u.power.lastP0, lastNand := u.power.lastNand, lastSram := u.power.lastSram })
    (hh : u.hawser = (dropWork w.cmds.nextId w).hawser) : u = answeredAs u w := by
  unfold answeredAs
  rw [← hn, ← hc, ← hp, ← hh]
  exact h0

theorem drop_new {l : List Active} {a : Active} (h : ∀ x ∈ l, x.id ≠ a.id) : (l ++ [a]).filter (fun x => x.id != a.id) = l := by
  rw [List.filter_append, List.filter_cons_of_neg (by simp), List.filter_nil, List.append_nil, List.filter_eq_self]
  intro x hx
  simpa using h x hx

/-- A command that is answered at once, from what its work leaves. -/
theorem answers_of_finish {sp : CmdSpec} {i : Instr} {t : Nat} {f : Frame} {s w w' : State} {o : WorkOut}
    (hx : exec i s = .next (finish sp t f s w' o)) (hr : sp.result = false) (hup : portUp w' f.port = true)
    (hw : WorkIs f (startedCmd sp t f s) w w') (hd : w.dev.drain = none) (hu : o.status ≠ stMediaUe)
    (hids : ∀ a ∈ w.cmds.active, a.id ≠ (startedCmd sp t f s).id) (hid : (startedCmd sp t f s).id = w.cmds.nextId) (hout : w.out = s.out)
    (hunit : fragUnit w = fragUnit s) :
    Answers sp i f s o w := by
  have hd' : w'.dev.drain = none := by rw [hw.eq]; exact hd
  set A := startedCmd sp t f s with hA
  set u1 := freed A w' with hu1
  have fr1 : u1 = { w' with cmds := (dropActive A.id w').cmds, hawser := u1.hawser, power := u1.power, berths := u1.berths, fresh := u1.fresh } := freed_frame A w'
  set u2 := answer sp.opcode f (sequenced t f s) o.status o.detail o.fields o.payload u1 with hu2
  have fr2 : u2 = { u1 with net := u2.net, out := u2.out } := answer_frame ..
  set u3 := settled t f s u2 with hu3
  have fr3 : u3 = { u2 with net := u3.net } := settled_frame ..
  have hfin : finish sp t f s w' o = u3 := finish_eq sp t f s w' o hr hd' hu
  rw [hfin] at hx
  have hreg : fragUnit u1 = fragUnit s := by
    rw [← hunit]; rw [fr1]; show fragUnit w' = _; rw [hw.eq]; rfl
  have hout' : u1.out = s.out := by rw [fr1]; show w'.out = _; rw [hw.eq]; exact hout
  have hp' : portUp u1 f.port = true := by rw [fr1]; exact hup
  refine ⟨u3, hx, ?_, ?_, ?_⟩
  · refine ⟨[], [], replyOf u1 sp.opcode f o.status o.detail o.fields o.payload, ?_, rfl, rfl, rfl, rfl, rfl, rfl, rfl, rfl, rfl⟩
    rw [fr3]
    show u2.out = _
    rw [hu2, answer_out, if_pos hp', hreg, hout']
    rfl
  · have hcm : u3.cmds = { w.cmds with nextId := w.cmds.nextId + 1 } := by
      rw [fr3, fr2, fr1]
      show (dropActive A.id w').cmds = _
      unfold dropActive
      dsimp only
      have hc := congrArg State.cmds hw.eq
      dsimp only at hc
      rw [hc]
      dsimp only
      rw [drop_new hids]
    have hnet : u3.net = { w.net with ports := u3.net.ports, queues := u3.net.queues } := by
      have h3 := settled_net t f s u2
      have h2 := answer_net sp.opcode f (sequenced t f s) o.status o.detail o.fields o.payload u1
      rw [← hu2] at h2
      rw [← hu3] at h3
      have h1 : u1.net = w'.net := by rw [fr1]
      have h0 := congrArg State.net hw.eq
      dsimp only at h0
      rw [h3, h2, h1, h0]
    have hpow : u3.power = { w.power with lastP0 := u3.power.lastP0, lastNand := u3.power.lastNand, lastSram := u3.power.lastSram } := by
      have h3 : u3.power = u1.power := by rw [fr3, fr2]
      have h1 : u1.power = { w'.power with lastP0 := u1.power.lastP0, lastNand := u1.power.lastNand, lastSram := u1.power.lastSram } := by
        rw [hu1]; unfold freed; exact unitsReleased_power _ _
      have h0 : w'.power = w.power := by rw [hw.eq]
      rw [h3, ← h0]; exact h1
    have hhaw : u3.hawser = (dropWork w.cmds.nextId w).hawser := by
      have h3 : u3.hawser = u1.hawser := by rw [fr3, fr2]
      rw [h3, hu1, freed_hawser, hid]
      have h0 : w'.hawser = w.hawser := by rw [hw.eq]
      unfold dropWork
      rw [h0]
    refine answeredAs_intro ?_ hnet hcm hpow hhaw
    have e3 : u3 = { u1 with net := u3.net, out := u3.out } := by
      rw [fr3, fr2]
    have e1 : u3 = { w' with now := u3.now, cmds := u3.cmds, hawser := u3.hawser, power := u3.power, berths := u3.berths, fresh := u3.fresh, net := u3.net, out := u3.out } := by
      conv_lhs => rw [e3, fr1]
      rw [e3, fr1]
    rw [hw.eq] at e1
    exact e1
  · exact ((hw.places.trans (freed_places f A w')).trans (answer_places ..)).trans (settled_places ..)

theorem running_now {sp : CmdSpec} (hp : Plain sp) (t : Nat) (f : Frame) (s : State) : (running sp t f s).now = max s.now t := by
  have e1 : (enter sp f (sequenced t f s) (atAdmission t f s)).now = (atAdmission t f s).now := by
    unfold enter; dsimp only; split <;> rfl
  have e2 : (atAdmission t f s).now = max s.now t := by unfold atAdmission; split <;> rfl
  unfold running taken
  simp only [hp.take, hp.result, Bool.false_eq_true, if_false]
  rw [e1, e2]

/-- A command whose work takes no time and that starts at once is answered in its step, in the state its work leaves. -/
theorem answers_of_admitted {sp : CmdSpec} {row : Nat → Frame → Instr} {t : Nat} {f : Frame} {s w : State} {o : WorkOut}
    (hr : (⟨sp, row, id⟩ : CmdRow) ∈ quickRows) (hs : Starts sp t f s) (hn : Unhurt sp t f s)
    (hw : ∃ w', sp.work (running sp t f s) (startedCmd sp t f s) = (w', o) ∧ WorkIs f (startedCmd sp t f s) w w')
    (hd : s.dev.drain = none) (hu : o.status ≠ stMediaUe)
    (hdev : w.dev = s.dev) (hpf : w.pf = s.pf) (hports : w.net.ports = s.net.ports) (hout : w.out = s.out)
    (hregs : w.regs = s.regs) (hnext : w.cmds.nextId = s.cmds.nextId) (hact : ∀ a ∈ w.cmds.active, a.id < s.cmds.nextId) :
    Answers sp (row t f) f s o w := by
  have hp : Plain sp := quickRows_plain _ hr
  have hadm := running_admitted (t := t) (f := f) (s := s) hp
  obtain ⟨w', hwork, hwis⟩ := hw
  have hx : exec (row t f) s = .next (finish sp t f s w' o) := by
    have h1 := quickRows_exec _ hr t f s
    have h2 := runCommand_accept (quickRows_spec _ hr) hs.1
    have h3 := accept_plain hp hs hn
    have h4 := quickRows_after _ hr
    dsimp only [id] at h1 h2 h3 h4
    rw [h1, h2, h3, h4, hwork]
    rfl
  refine answers_of_finish hx hp.result ?_ hwis (by rw [hdev]; exact hd) hu ?_ ?_ hout ?_
  · have hup : portUp (setNow t s) f.port = true := hs.1.2.1.1
    have h1 : (hostPort w' f.port).linkUp = (hostPort w f.port).linkUp := by rw [hwis.places.2.1 f.port]
    have h2 : (hostPort w f.port).linkUp = (hostPort s f.port).linkUp := by simp only [hostPort, hports]
    have h3 : w'.dev = s.dev := by rw [hwis.eq]; exact hdev
    have h4 : w'.pf = s.pf := by rw [hwis.eq]; exact hpf
    unfold portUp at hup ⊢
    rw [h1, h2, h3, h4]
    exact hup
  · intro a ha
    have := hact a ha
    rw [hadm.id]
    omega
  · rw [hadm.id, hnext]
  · unfold fragUnit; rw [hregs]

/-- The state of `s` after admission, with its changes named. -/
def admitted (s : State) (a : Active) (n : Nat) (b : List Berth) (p : List HostPort) (q : List Queue) : State :=
  { s with
    now := n, berths := b, net := { s.net with ports := p, queues := q }
    cmds := { s.cmds with nextId := s.cmds.nextId + 1, active := s.cmds.active ++ [a] } }

/-- `answers_of_admitted`, with the state in which the work is done and the command as variables. -/
theorem answers_of_work {sp : CmdSpec} {row : Nat → Frame → Instr} {t : Nat} {f : Frame} {s w : State} {o : WorkOut}
    (hr : (⟨sp, row, id⟩ : CmdRow) ∈ quickRows) (hs : Starts sp t f s) (hn : Unhurt sp t f s)
    (hw : ∀ b p q a, a.frame = f → a.id = s.cmds.nextId → a.accepted = ptpNow (setNow t s) → PlacesKept f s (admitted s a (max s.now t) b p q) →
      ∃ w', sp.work (admitted s a (max s.now t) b p q) a = (w', o) ∧ WorkIs f a w w')
    (hd : s.dev.drain = none) (hu : o.status ≠ stMediaUe)
    (hdev : w.dev = s.dev) (hpf : w.pf = s.pf) (hports : w.net.ports = s.net.ports) (hout : w.out = s.out)
    (hregs : w.regs = s.regs) (hnext : w.cmds.nextId = s.cmds.nextId) (hact : ∀ a ∈ w.cmds.active, a.id < s.cmds.nextId) :
    Answers sp (row t f) f s o w := by
  have hp : Plain sp := quickRows_plain _ hr
  have hx := running_admitted (t := t) (f := f) (s := s) hp
  have hnow := running_now hp t f s
  refine answers_of_admitted hr hs hn ?_ hd hu hdev hpf hports hout hregs hnext hact
  set x := running sp t f s
  have e : x = admitted s (startedCmd sp t f s) (max s.now t) x.berths x.net.ports x.net.queues := by
    rw [← hnow]; exact hx.eq
  rw [e]
  refine hw x.berths x.net.ports x.net.queues _ rfl hx.id ?_ (e ▸ hx.places)
  have e2 : (atAdmission t f s).now = max s.now t := by unfold atAdmission; split <;> rfl
  have e3 : (atAdmission t f s).clock = s.clock := by unfold atAdmission; split <;> rfl
  show ptpNow (atAdmission t f s) = _
  unfold ptpNow
  rw [e2, e3]; rfl

end Sys2Proof.Machine
end

