-- ==== Sys2Proof/Laws/Memory.lean ====
section
/-! SUPPORT. The laws of sparse memory: every operation keeps the canonical form, a read after a write to the same place
gives the value written, and a write leaves every other place alone. Byte strings read back what they were written as. -/

namespace Sys2Proof.Machine

/-! ### The canonical form -/

/-- The canonical form, said of every listed cell and of every pair. -/
theorem memWf_iff (m : Mem) : memWf m = true ↔ m.Pairwise (fun a b => a.1 < b.1) ∧ ∀ c ∈ m, c.2 ≠ 0 := by
  induction m with
  | nil => simp [memWf]
  | cons p m ih =>
    obtain ⟨x, c⟩ := p
    cases m with
    | nil => simp [memWf]
    | cons q m =>
      obtain ⟨y, d⟩ := q
      simp only [memWf, Bool.and_eq_true, ih, List.pairwise_cons, List.mem_cons, forall_eq_or_imp, decide_eq_true_eq, bne_iff_ne]
      constructor
      · rintro ⟨⟨hc, hxy⟩, ⟨h1, h2⟩, hd, h3⟩
        exact ⟨⟨⟨hxy, fun z hz => lt_trans hxy (h1 z hz)⟩, h1, h2⟩, hc, hd, h3⟩
      · rintro ⟨⟨⟨hxy, -⟩, h1, h2⟩, hc, hd, h3⟩
        exact ⟨⟨hc, hxy⟩, ⟨h1, h2⟩, hd, h3⟩

theorem memWf_tail {p : Host.Cell} {m : Mem} (h : memWf (p :: m) = true) : memWf m = true := by
  rw [memWf_iff] at h ⊢
  exact ⟨(List.pairwise_cons.mp h.1).2, fun c hc => h.2 c (List.mem_cons_of_mem _ hc)⟩

/-- Every cell that a write leaves listed is an old one or the one written. -/
theorem mem_memPut {m : Mem} {a : Nat} {b : Byte} {c : Host.Cell} (h : c ∈ memPut m a b) : c ∈ m ∨ (c = (a, b) ∧ b ≠ 0) := by
  induction m with
  | nil => simp only [memPut] at h; split at h <;> simp_all
  | cons p m ih =>
    obtain ⟨x, d⟩ := p
    simp only [memPut] at h
    split_ifs at h <;> simp only [List.mem_cons] at h ⊢ <;> tauto

theorem memPut_wf {m : Mem} {a : Nat} {b : Byte} (h : memWf m = true) : memWf (memPut m a b) = true := by
  induction m with
  | nil =>
    simp only [memPut]
    split_ifs with hb
    · rfl
    · simpa [memWf] using hb
  | cons p m ih =>
    obtain ⟨x, d⟩ := p
    have ht := memWf_tail h
    rw [memWf_iff] at h
    obtain ⟨hp, hz⟩ := h
    have hgt := (List.pairwise_cons.mp hp).1
    have hd : d ≠ 0 := hz (x, d) (by simp)
    simp only [memPut]
    split_ifs with h1 h2 h3 h4
    · exact (memWf_iff _).mpr ⟨hp, hz⟩
    · refine (memWf_iff _).mpr ⟨List.pairwise_cons.mpr ⟨?_, hp⟩, ?_⟩
      · intro c hc
        rcases List.mem_cons.mp hc with rfl | hc
        · exact h1
        · exact lt_trans h1 (hgt c hc)
      · intro c hc
        rcases List.mem_cons.mp hc with rfl | hc
        · exact h2
        · exact hz c hc
    · exact ht
    · subst h3
      rw [memWf_iff] at ht
      refine (memWf_iff _).mpr ⟨List.pairwise_cons.mpr ⟨fun c hc => hgt c hc, ht.1⟩, ?_⟩
      intro c hc
      rcases List.mem_cons.mp hc with rfl | hc
      · exact h4
      · exact ht.2 c hc
    · have hi := ih ht
      rw [memWf_iff] at hi
      refine (memWf_iff _).mpr ⟨List.pairwise_cons.mpr ⟨?_, hi.1⟩, ?_⟩
      · intro c hc
        rcases mem_memPut hc with hc | ⟨rfl, -⟩
        · exact hgt c hc
        · show x < a; omega
      · intro c hc
        rcases List.mem_cons.mp hc with rfl | hc
        · exact hd
        · exact hi.2 c hc

theorem memWrite_wf {m : Mem} {a : Nat} {bs : Bytes} (h : memWf m = true) : memWf (memWrite m a bs) = true := by
  induction bs generalizing m a with
  | nil => exact h
  | cons b bs ih => exact ih (memPut_wf h)

theorem memClear_wf {m : Mem} {a n : Nat} (h : memWf m = true) : memWf (memClear m a n) = true := by
  rw [memWf_iff] at h ⊢
  exact ⟨h.1.filter _, fun c hc => h.2 c (List.mem_of_mem_filter hc)⟩

/-! ### Reads after writes -/

/-- An address below every listed one reads zero. -/
theorem memGet_below {m : Mem} {a : Nat} (h : ∀ c ∈ m, a < c.1) : memGet m a = 0 := by
  induction m with
  | nil => rfl
  | cons p m ih =>
    obtain ⟨x, d⟩ := p
    have hx : a < x := h (x, d) (by simp)
    simp only [memGet, if_neg (by omega : ¬ x = a)]
    exact ih (fun c hc => h c (List.mem_cons_of_mem _ hc))

theorem memGet_memPut {m : Mem} (h : memWf m = true) (a k : Nat) (b : Byte) :
    memGet (memPut m a b) k = if k = a then b else memGet m k := by
  induction m with
  | nil =>
    simp only [memPut]
    by_cases hb : b = 0 <;> by_cases hk : k = a
    · rw [if_pos hb, if_pos hk, hb]; rfl
    · rw [if_pos hb, if_neg hk]
    · rw [if_neg hb, if_pos hk, hk]; simp [memGet]
    · rw [if_neg hb, if_neg hk]; simp [memGet, Ne.symm hk]
  | cons p m ih =>
    obtain ⟨x, d⟩ := p
    have ht := memWf_tail h
    have hgt : ∀ c ∈ m, x < c.1 := (List.pairwise_cons.mp ((memWf_iff _).mp h).1).1
    have hlow (z : Nat) (hz : z ≤ x) : memGet m z = 0 := memGet_below (fun c hc => lt_of_le_of_lt hz (hgt c hc))
    have hi := ih ht
    simp only [memPut]
    by_cases hk : k = a
    · subst hk
      rw [if_pos rfl] at hi ⊢
      split_ifs with h1 h2 h3 h4
      · simp [memGet, hlow k (by omega), h2]; omega
      · simp [memGet]
      · simp [hlow k (by omega), h4]
      · simp [memGet]
      · simp only [memGet, hi]; rw [if_neg (by omega)]
    · rw [if_neg hk] at hi ⊢
      split_ifs with h1 h2 h3 h4
      · rfl
      · simp [memGet, Ne.symm hk]
      · subst h3; simp [memGet, Ne.symm hk]
      · subst h3; simp [memGet, Ne.symm hk]
      · simp only [memGet, hi]

/-- A write changes the bytes it names and no other. -/
theorem memGet_memWrite {m : Mem} (h : memWf m = true) (a k : Nat) (bs : Bytes) :
    memGet (memWrite m a bs) k = if a ≤ k ∧ k < a + bs.length then bs.getD (k - a) 0 else memGet m k := by
  induction bs generalizing m a with
  | nil => simp [memWrite]
  | cons b bs ih =>
    simp only [memWrite, ih (memPut_wf h), memGet_memPut h, List.length_cons]
    by_cases h1 : k = a
    · subst h1; simp
    · by_cases h2 : a ≤ k ∧ k < a + (bs.length + 1)
      · rw [if_pos (by omega), if_pos h2]
        obtain ⟨j, hj⟩ : ∃ j, k - a = j + 1 := ⟨k - a - 1, by omega⟩
        rw [hj, show k - (a + 1) = j by omega]; simp
      · rw [if_neg (by omega), if_neg h2, if_neg h1]

theorem memGet_memClear (m : Mem) (a n k : Nat) :
    memGet (memClear m a n) k = if a ≤ k ∧ k < a + n then 0 else memGet m k := by
  induction m with
  | nil => simp [memClear, memGet]
  | cons p m ih =>
    obtain ⟨x, d⟩ := p
    simp only [memClear] at ih ⊢
    by_cases hx : x < a ∨ a + n ≤ x
    · rw [List.filter_cons_of_pos (by simpa using hx)]
      simp only [memGet, ih]
      split_ifs <;> first | rfl | omega
    · rw [List.filter_cons_of_neg (by simpa using hx), ih]
      simp only [memGet]
      split_ifs <;> first | rfl | omega

@[simp] theorem memRead_length (m : Mem) (a n : Nat) : (memRead m a n).length = n := by
  induction n generalizing a with
  | zero => rfl
  | succ n ih => simp [memRead, ih]

theorem memRead_congr {m m' : Mem} {a n : Nat} (h : ∀ k, a ≤ k → k < a + n → memGet m k = memGet m' k) :
    memRead m a n = memRead m' a n := by
  induction n generalizing a with
  | zero => rfl
  | succ n ih =>
    simp only [memRead]
    rw [h a (by omega) (by omega), ih (fun k h1 h2 => h k (by omega) (by omega))]

/-- What was written at a place is read there. -/
theorem memRead_memWrite {m : Mem} (h : memWf m = true) (a : Nat) (bs : Bytes) : memRead (memWrite m a bs) a bs.length = bs := by
  induction bs generalizing m a with
  | nil => rfl
  | cons b bs ih =>
    have hb : memGet (memWrite m a (b :: bs)) a = b := by rw [memGet_memWrite h]; simp
    simp only [List.length_cons, memRead, hb]
    congr 1
    exact ih (memPut_wf h) (a + 1)

/-- A write outside a range does not change what the range reads as. -/
theorem memRead_memWrite_apart {m : Mem} (h : memWf m = true) (a k n : Nat) (bs : Bytes) (hd : k + n ≤ a ∨ a + bs.length ≤ k) :
    memRead (memWrite m a bs) k n = memRead m k n :=
  memRead_congr (fun j h1 h2 => by rw [memGet_memWrite h, if_neg (by omega)])

/-! ### Byte strings -/

@[simp] theorem toLE_length (n v : Nat) : (toLE n v).length = n := by
  induction n generalizing v with
  | zero => rfl
  | succ n ih => simp [toLE, ih]

theorem ofLE_toLE (n v : Nat) : ofLE (toLE n v) = v % 256 ^ n := by
  induction n generalizing v with
  | zero => simp [toLE, ofLE, Nat.mod_one]
  | succ n ih =>
    simp only [toLE, ofLE, ih, BitVec.toNat_ofNat]
    rw [show (256 : Nat) ^ (n + 1) = 256 * 256 ^ n from Nat.pow_succ', Nat.mod_mul (x := v)]

theorem getLE_toLE (n v : Nat) (tail : Bytes) : getLE (toLE n v ++ tail) 0 n = v % 256 ^ n := by
  simp [getLE, slice, ← ofLE_toLE]

/-- A field further on is read behind what comes first. -/
theorem getLE_append (pre bs : Bytes) (off n : Nat) (h : pre.length ≤ off) :
    getLE (pre ++ bs) off n = getLE bs (off - pre.length) n := by
  simp only [getLE, slice, List.drop_append, List.drop_eq_nil_of_le h, List.nil_append]

end Sys2Proof.Machine
end

