-- ==== Sys2Proof/WellFormed.lean ====
section
/-! DEFINITION. Well-formed commands and events: every operand lies in the range that its place in the hardware gives it (Tables 0.1,
1.1, 2.1, 3.1, 12.2). What the module itself refuses is no question of form. -/

namespace Sys2Proof

/-- The numbers of a command's header fit their fields (Table 2.1). -/
def Frame.wf (f : Frame) : Bool :=
  decide (f.port < 8 ∧ f.srcUdp < 65536 ∧ f.berth < 256 ∧ f.queue < 256 ∧ f.params.length < 2 ^ 32 ∧ f.payload.length < 2 ^ 32)

def Datagram.wf (d : Datagram) : Bool := decide (d.port < 8 ∧ d.dstUdp < 65536 ∧ d.srcUdp < 65536 ∧ d.bytes.length ≤ 9000)

def ReasmKey.wf (k : ReasmKey) : Bool := decide (k.port < 8 ∧ k.srcUdp < 65536 ∧ k.berth < 16 ∧ k.queue < 256)

def HawserRx.wf (r : HawserRx) : Bool := decide (r.port < 6 ∧ r.bytes.length = 1024)

def NandRead.wf (r : NandRead) : Bool := decide (r.quay < 24 ∧ r.die < 32 ∧ r.plane < 6 ∧ r.block < 1365) && r.failed.all (fun c => decide (c < 4)) && r.lost.all r.failed.contains

def NandProgram.wf (p : NandProgram) : Bool := decide (p.quay < 24 ∧ p.die < 32 ∧ p.plane < 6 ∧ p.block < 1365)

def Engine.wf : Engine → Bool
  | .crane n => decide (n < 8)
  | .quayArray q => decide (q < 24)
  | .scoring q => decide (q < 24)

def Sensor.wf : Sensor → Bool
  | .quay q => decide (q < 24)
  | .compute d i => decide (d < 2 ∧ i < 4)
  | .ioDie i => decide (i < 2)
  | .regulator i => decide (i < 4)
  | .inlet => true
  | .outlet => true

def SramWord.wf (w : SramWord) : Bool := decide (w.unit ≤ 4)

def TrialFaults.wf (x : TrialFaults) : Bool :=
  x.cranes.all (fun n => decide (n < 8)) && x.hawsers.all (fun n => decide (n < 6)) && x.hosts.all (fun n => decide (n < 8))
    && x.quays.all (fun n => decide (n < 24)) && x.computes.all (fun n => decide (n < 2)) && x.srams.all (fun n => decide (n < 8))

def Instr.wf : Instr → Bool
  | .nimoxFrame _ d => d.wf
  | .reassemblyTimeout _ k => k.wf
  | .refusedKeyExpiry _ k => k.wf
  | .sequenceGapTimeout _ berth queue => decide (berth < 16) && decide (queue < 64)
  | .commandStart _ _ => true
  | .workCompletion _ _ _ => true
  | .powerExitComplete _ => true
  | .idleP1Timeout _ => true
  | .idleP2Timeout _ => true
  | .idleP3Timeout _ => true
  | .echo _ f => f.wf
  | .getParam _ f => f.wf
  | .setParam _ f => f.wf
  | .portClass _ f port _ => f.wf && decide (port < 8)
  | .nimoxTransport _ f _ _ => f.wf
  | .berthShares _ f _ _ => f.wf
  | .breakwater _ f _ _ => f.wf
  | .hawserConfig _ f _ _ => f.wf
  | .userWp _ f group _ => f.wf && decide (group < 8)
  | .floor _ f _ => f.wf
  | .revoke _ f key => f.wf && decide (key < 4)
  | .eventsClear _ f pid _ => f.wf && decide (pid < 65536)
  | .readResult _ f => f.wf
  | .release _ f => f.wf
  | .queueStatus _ f => f.wf
  | .queueSet _ f => f.wf
  | .drain _ f => f.wf
  | .reset _ f => f.wf
  | .qpCreate _ f => f.wf
  | .qpDestroy _ f => f.wf
  | .regionRegister _ f => f.wf
  | .regionDeregister _ f => f.wf
  | .rdmaWrite _ p => decide (p.port < 8)
  | .rdmaWriteWithImmediate _ p _ => decide (p.port < 8)
  | .rdmaRead _ p => decide (p.port < 8)
  | .rdmaReadResponse _ _ _ _ => true
  | .ackReceived _ _ _ => true
  | .nakReceived _ _ _ _ => true
  | .ackTimeout _ _ => true
  | .congestionNotificationPacket _ _ => true
  | .rateRecovery _ _ => true
  | .pfcFrame _ port priority _ => decide (port < 8) && decide (priority < 8)
  | .arpRequest _ port _ _ _ => decide (port < 8)
  | .neighborDiscovery _ port _ _ => decide (port < 8)
  | .icmpEcho _ port _ _ _ _ _ => decide (port < 8)
  | .lldpTransmit _ port => decide (port < 8)
  | .hostLinkAttemptTimeout _ port => decide (port < 8)
  | .hostLinkLoss _ port => decide (port < 8)
  | .sync _ m => decide (m.port < 8)
  | .followUp _ m => decide (m.port < 8)
  | .delayReqSend _ => true
  | .delayResp _ m => decide (m.port < 8)
  | .ptpAnnounce _ m => decide (m.port < 8)
  | .masterLoss _ => true
  | .syncTimeout _ => true
  | .ppsPulse _ => true
  | .nsCreate _ f => f.wf
  | .nsDelete _ f => f.wf
  | .nsInfo _ f => f.wf
  | .nsRead _ f => f.wf
  | .nsWrite _ f => f.wf
  | .nsDiscard _ f => f.wf
  | .nsFlush _ f => f.wf
  | .holdCreate _ f => f.wf
  | .holdWrite _ f => f.wf
  | .holdSeal _ f => f.wf
  | .holdRead _ f => f.wf
  | .holdDelete _ f => f.wf
  | .holdInfo _ f => f.wf
  | .holdMap _ f => f.wf
  | .relocAck _ f => f.wf
  | .relocList _ f => f.wf
  | .nandReadComplete _ r => r.wf
  | .nandProgramComplete _ p => p.wf
  | .nandEraseComplete _ quay _ _ => decide (quay < 24)
  | .dieCommandTimeout _ quay die => decide (quay < 24) && decide (die < 32)
  | .dredging _ quay => decide (quay < 24)
  | .wearLevelling _ quay => decide (quay < 24)
  | .pslcPoolTarget _ quay => decide (quay < 24)
  | .mapCheckpoint _ => true
  | .relocation _ _ _ _ => true
  | .noticeRepeat _ _ _ => true
  | .forwardingExpiry _ _ _ => true
  | .quayLinkLoss _ quay _ => decide (quay < 24)
  | .quayLinkTrainTimeout _ quay => decide (quay < 24)
  | .enginePartBoundary _ e => e.wf
  | .tideWindowStart _ _ => true
  | .tideWindowEnd _ _ => true
  | .tideTableSwitch _ => true
  | .planLoad _ f => f.wf
  | .planBind _ f => f.wf
  | .planUnbind _ f => f.wf
  | .planDelete _ f => f.wf
  | .planInfo _ f => f.wf
  | .planRun _ f => f.wf
  | .planEstimate _ f => f.wf
  | .contextClear _ f => f.wf
  | .adaptStep _ f => f.wf
  | .adaptExport _ f => f.wf
  | .adaptReset _ f => f.wf
  | .indexCreate _ f => f.wf
  | .indexDelete _ f => f.wf
  | .indexInfo _ f => f.wf
  | .indexInsert _ f => f.wf
  | .indexRemove _ f => f.wf
  | .indexSearch _ f => f.wf
  | .indexRebalance _ f => f.wf
  | .indexFold _ _ quay => decide (quay < 24)
  | .selectTopk _ f => f.wf
  | .selectMerge _ f => f.wf
  | .vaultCreate _ f => f.wf
  | .vaultDelete _ f => f.wf
  | .vaultInfo _ f => f.wf
  | .vaultPlan _ f => f.wf
  | .vaultBegin _ f => f.wf
  | .vaultCommit _ f => f.wf
  | .vaultCancel _ f => f.wf
  | .vaultList _ f => f.wf
  | .vaultManifest _ f => f.wf
  | .vaultRestore _ f => f.wf
  | .vaultVerify _ f => f.wf
  | .vaultConsolidate _ f => f.wf
  | .vaultKeep _ f => f.wf
  | .vaultDrop _ f => f.wf
  | .replAccept _ f => f.wf
  | .replSet _ f => f.wf
  | .consolidation _ berth => decide (berth < 16)
  | .captureDue _ berth => decide (berth < 16)
  | .hello _ berth => decide (berth < 16)
  | .begin _ berth => decide (berth < 16)
  | .endRecord _ berth => decide (berth < 16)
  | .credit _ berth => decide (berth < 16)
  | .acknowledgement _ berth => decide (berth < 16)
  | .replTimeout _ berth => decide (berth < 16)
  | .replRetry _ berth => decide (berth < 16)
  | .berthCreate _ f => f.wf
  | .berthRelease _ f => f.wf
  | .berthSuspend _ f => f.wf
  | .berthResume _ f => f.wf
  | .berthInfo _ f => f.wf
  | .tideLoad _ f => f.wf
  | .tideRead _ f => f.wf
  | .bollardRead _ f bollard => f.wf && decide (bollard.toNat < 64)
  | .bollardGive _ f bollard _ => f.wf && decide (bollard.toNat < 64)
  | .bollardTake _ f bollard _ => f.wf && decide (bollard.toNat < 64)
  | .bollardSet _ f bollard _ => f.wf && decide (bollard.toNat < 64)
  | .mailSend _ f => f.wf
  | .mailRecv _ f => f.wf
  | .hawserInfo _ f => f.wf
  | .hawserRetrain _ f => f.wf
  | .fleetMap _ f => f.wf
  | .allReduce _ f => f.wf
  | .allGather _ f => f.wf
  | .idle _ r => r.wf
  | .data _ r => r.wf
  | .ident _ r => r.wf
  | .topo _ r => r.wf
  | .flowOpen _ r => r.wf
  | .flowAck _ r => r.wf
  | .work _ r => r.wf
  | .result _ r => r.wf
  | .announce _ r => r.wf
  | .hawserReplayTimeout _ port => decide (port < 6)
  | .hawserTraining _ port => decide (port < 6)
  | .trainingStepTimeout _ port => decide (port < 6)
  | .hawserDownRetry _ port => decide (port < 6)
  | .identRecheck _ port => decide (port < 6)
  | .braceAlert _ f => f.wf
  | .motionEvents _ f => f.wf
  | .motionWaveform _ f => f.wf
  | .accelerometerSample _ _ => true
  | .braceSealComplete _ => true
  | .accelerometerFault _ => true
  | .alertExpiry _ _ => true
  | .peerExpiry _ moduleNo => decide (moduleNo < 4096)
  | .announcementRepeat _ => true
  | .holdOffExpiry _ => true
  | .powerFailAssertion _ => true
  | .pfGlitch _ => true
  | .flushComplete _ _ => true
  | .powerRestored _ => true
  | .holdupMeasurement _ _ _ => true
  | .patrolScrub _ w _ => w.wf
  | .poisonRewrite _ w => w.wf
  | .logbookInfo _ f => f.wf
  | .logbookRead _ f => f.wf
  | .logbookProgram _ f => f.wf
  | .logbookErase _ f => f.wf
  | .logbookSettings _ f => f.wf
  | .logbookCompaction _ _ => true
  | .fwInfo _ f => f.wf
  | .fwStage _ f => f.wf
  | .fwActivate _ f => f.wf
  | .fwCommit _ f => f.wf
  | .identity _ f => f.wf
  | .attest _ f => f.wf
  | .inputSwitchClose _ _ => true
  | .senseBreak _ => true
  | .overvoltage _ => true
  | .railsInRegulation _ => true
  | .railFault _ => true
  | .railRetry _ => true
  | .componentStart _ component _ => decide (component < 3)
  | .startTimeout _ component => decide (component < 3)
  | .seaTrialComplete _ faults => faults.wf
  | .holdupBankFull _ => true
  | .holdupChargeTimeout _ => true
  | .mountingComplete _ _ _ _ => true
  | .holdSExpiry _ => true
  | .drainComplete _ => true
  | .sidebandTransaction _ _ => true
  | .sidebandTimeout _ => true
  | .sidebandReset _ => true
  | .powerDown _ => true
  | .powerUp _ => true
  | .cancel _ => true
  | .temperatureSample _ sensor _ => sensor.wf
  | .tempSensorTimeout _ sensor => sensor.wf
  | .thermalStepExit _ sensor => sensor.wf
  | .thermalTrip _ sensor => sensor.wf
  | .powerSample _ _ => true
  | .powerSampleTimeout _ => true
  | .powerStepExit _ => true
  | .hostLinkUp _ port gbps => decide (port < 8) && (gbps == 400 || gbps == 200 || gbps == 100)
  | .hawserSignalLoss _ port => decide (port < 6)
  | .quayLinkLock _ quay => decide (quay < 24)
  | .laneLock _ port lanes => decide (port < 6) && (lanes == 8 || lanes == 4)
  | .comparatorRearm _ => true
  | .logbookOperationComplete _ bank _ => decide (bank < 4)
  | .resetSealComplete _ => true
  | .railsOffExpiry _ => true

end Sys2Proof
end

