-- ==== Sys2Proof/Tests/Slice0.lean ====
section
/-! SUPPORT. Tests: an ill-formed term for each check of WellFormed, the spec's worked examples, and for each statement states and
operands that meet its hypotheses. -/

open Sys2Proof Sys2Proof.Machine

section

set_option Elab.async false

/-! ### Form -/

def tstOk : Frame := { port := 0, srcIp := 0, srcUdp := 0, urgent := false, berth := 0, queue := 0, tag := 0, seq := 0, params := [], payload := [] }
def tstDgram : Datagram := { port := 0, dstIp := 0, dstUdp := 0, srcIp := 0, srcUdp := 0, bytes := [] }
def tstKey : ReasmKey := { port := 0, srcIp := 0, srcUdp := 0, berth := 0, queue := 0, tag := 0, seq := 0 }
def tstRx : HawserRx := { port := 0, fecOk := true, bytes := zeros 1024 }
def tstPage : NandRead :=
  { quay := 0, die := 0, plane := 0, block := 0, page := 0, pslc := false, retries := 0, soft := false, corrected := 0, failed := [1], lost := [1], target := .none }
def tstProg : NandProgram := { quay := 0, die := 0, plane := 0, block := 0, pslc := false, ok := true, entries := 0 }
def tstFaults : TrialFaults :=
  { cranes := [], hawsers := [], hosts := [], quays := [], computes := [], srams := [], ioDie := false, logbook := false, seismic := false }
def tstPkt : RdmaPkt := { port := 0, qpn := 5, psn := 7, ce := false, op := .write, rkey := 0x101, offset := 0, length := 2, data := [1, 2] }
def tstPtp : PtpMsg := { port := 0, domain := 0, version := 2, master := 1, seqId := 1, twoStep := false, origin := 0, arrival := 0, priority := 0, interval := 1000000000 }

/-- A term that meets every check, for each check below. -/
theorem test_wf_accepts : ([.echo 0 tstOk, .nimoxFrame 0 tstDgram, .reassemblyTimeout 0 tstKey, .idle 0 tstRx, .nandReadComplete 0 tstPage,
    .nandProgramComplete 0 tstProg, .seaTrialComplete 0 tstFaults, .rdmaWrite 0 tstPkt, .sync 0 tstPtp, .enginePartBoundary 0 (.crane 7),
    .tempSensorTimeout 0 (.compute 1 3), .poisonRewrite 0 ⟨4, 0, 0⟩, .hostLinkUp 0 7 100, .laneLock 0 5 4, .bollardGive 0 tstOk 63 1] : List Instr).all Instr.wf = true := by
  decide +kernel

/-- Each bound of a header's numbers, one step outside. -/
theorem test_wf_header : [{ tstOk with port := 8 }, { tstOk with srcUdp := 65536 }, { tstOk with berth := 256 }, { tstOk with queue := 256 }].all
    (fun f => !(Instr.echo 0 f).wf) = true := by decide +kernel

theorem test_wf_datagram : [{ tstDgram with port := 8 }, { tstDgram with dstUdp := 65536 }, { tstDgram with srcUdp := 65536 }, { tstDgram with bytes := zeros 9001 }].all
    (fun d => !(Instr.nimoxFrame 0 d).wf) = true := by decide +kernel

theorem test_wf_key : [{ tstKey with port := 8 }, { tstKey with srcUdp := 65536 }, { tstKey with berth := 16 }, { tstKey with queue := 256 }].all
    (fun k => !(Instr.reassemblyTimeout 0 k).wf && !(Instr.refusedKeyExpiry 0 k).wf) = true := by decide +kernel

theorem test_wf_hawser : [{ tstRx with port := 6 }, { tstRx with bytes := zeros 1023 }].all (fun r => !(Instr.data 0 r).wf) = true := by decide +kernel

theorem test_wf_media : ([{ tstPage with quay := 24 }, { tstPage with die := 32 }, { tstPage with plane := 6 }, { tstPage with block := 1365 }, { tstPage with failed := [4], lost := [] },
      { tstPage with failed := [] }].all (fun r => !(Instr.nandReadComplete 0 r).wf)
    && [{ tstProg with quay := 24 }, { tstProg with die := 32 }, { tstProg with plane := 6 }, { tstProg with block := 1365 }].all
      (fun p => !(Instr.nandProgramComplete 0 p).wf)) = true := by decide +kernel

theorem test_wf_faults : [{ tstFaults with cranes := [8] }, { tstFaults with hawsers := [6] }, { tstFaults with hosts := [8] }, { tstFaults with quays := [24] },
    { tstFaults with computes := [2] }, { tstFaults with srams := [8] }].all (fun x => !(Instr.seaTrialComplete 0 x).wf) = true := by decide +kernel

/-- Ports, berths, queues, quays, engines, sensors, components, banks, groups, keys, bollards and speeds that the hardware does not have. -/
theorem test_wf_numbers : ([.rdmaWrite 0 { tstPkt with port := 8 }, .rdmaRead 0 { tstPkt with port := 8 }, .rdmaWriteWithImmediate 0 { tstPkt with port := 8 } 0,
    .sync 0 { tstPtp with port := 8 }, .followUp 0 { tstPtp with port := 8 }, .delayResp 0 { tstPtp with port := 8 }, .ptpAnnounce 0 { tstPtp with port := 8 },
    .portClass 0 tstOk 8 0, .userWp 0 tstOk 8 true, .revoke 0 tstOk 4, .eventsClear 0 tstOk 65536 0, .sequenceGapTimeout 0 16 0, .sequenceGapTimeout 0 0 64,
    .pfcFrame 0 8 0 true, .pfcFrame 0 0 8 true, .arpRequest 0 8 0 0 0, .neighborDiscovery 0 8 0 0, .icmpEcho 0 8 0 0 0 0 [], .lldpTransmit 0 8, .hostLinkLoss 0 8,
    .hostLinkAttemptTimeout 0 8, .hostLinkUp 0 8 400, .hostLinkUp 0 0 200000, .dredging 0 24, .wearLevelling 0 24, .pslcPoolTarget 0 24, .quayLinkLoss 0 24 0,
    .quayLinkTrainTimeout 0 24, .quayLinkLock 0 24, .nandEraseComplete 0 24 0 [], .dieCommandTimeout 0 24 0, .dieCommandTimeout 0 0 32, .indexFold 0 1 24] : List Instr).all
      (fun i => !i.wf) = true ∧
    ([.enginePartBoundary 0 (.crane 8), .enginePartBoundary 0 (.quayArray 24), .enginePartBoundary 0 (.scoring 24), .consolidation 0 16, .captureDue 0 16, .hello 0 16, .begin 0 16,
    .endRecord 0 16, .credit 0 16, .acknowledgement 0 16, .replTimeout 0 16, .replRetry 0 16, .bollardRead 0 tstOk 64, .bollardGive 0 tstOk 64 1, .bollardTake 0 tstOk 64 1,
    .bollardSet 0 tstOk 64 1, .hawserReplayTimeout 0 6, .hawserTraining 0 6, .trainingStepTimeout 0 6, .hawserDownRetry 0 6, .identRecheck 0 6, .hawserSignalLoss 0 6,
    .laneLock 0 6 8, .laneLock 0 0 2, .peerExpiry 0 4096, .patrolScrub 0 ⟨5, 0, 0⟩ .clean, .poisonRewrite 0 ⟨5, 0, 0⟩, .componentStart 0 3 0, .startTimeout 0 3,
    .temperatureSample 0 (.quay 24) 0, .tempSensorTimeout 0 (.compute 2 0), .thermalStepExit 0 (.ioDie 2), .thermalTrip 0 (.regulator 4),
    .logbookOperationComplete 0 4 true] : List Instr).all (fun i => !i.wf) = true := by
  constructor <;> decide +kernel

/-- A plan image with one part and two entries of 4 rows at most, the first of inference, the second of training. -/
def tstImage : Bytes :=
  zeros 6 ++ [1] ++ zeros 17 ++ toLE 4 1 ++ zeros 100 ++ (toLE 2 4 ++ zeros 2 ++ toLE 4 2 ++ toLE 8 192) ++ zeros 48
    ++ (zeros 8 ++ toLE 4 4 ++ zeros 36) ++ (zeros 8 ++ toLE 4 4 ++ [1] ++ zeros 35)

/-! ### A small module in READY, and commands to it -/

/-- A module in READY with its links up, every unit in service, and one object of each kind in berth 0. -/
def tstDev : Device := { state := .ready, prev := .mounting, units := BitVec.allOnes 64, trialPassed := true, bankFull := true }

def tstPort : HostPort := { linkUp := true, gbps := 400 }

def tstShares : BitVec 128 := (1 <<< 48) ||| (64 <<< 32) ||| (4 <<< 24) ||| (8 <<< 16) ||| 512

def tstBerth (st : BerthState) : Berth := { state := st, regs := { shares := tstShares, breakwater := openBreakwater } }

/-- B0 and B2 MOORED, B1 SUSPENDED, the others FREE. -/
def tstBerths : List Berth := tstBerth .moored :: { state := .suspended } :: { state := .moored } :: List.replicate 13 {}

def tstSlot (tag : BitVec 32) (i : Nat) (x : SlotState) : Slot :=
  { berth := 0, index := i, tag := tag, queue := 0, state := x, reserved := 32, outcome := zeros 40 }

def tstQp : Qp :=
  { qpn := 5, berth := 0, port := 0, mtu := 4096, dscp := 0, hopLimit := 64, remoteQpn := 9, remoteGid := 1, localGid := 0, sendPsn := 0, recvPsn := 7,
    state := .rts, retryCnt := 3, retries := 0, ackTimeout := 0, rateMbps := 400000 }

def tstRegion : Region := { berth := 0, index := 1, rkey := 0x101, offset := 0, length := 65536, canWrite := true, canRead := true, owner := .plain }

def tstRun : Run := { offset := 0, length := 4096, sb := 3, stripe := 0, narrow := false, gen := 0 }

def tstHold (id written : Nat) (sealed : Bool) : Hold :=
  { id := id, berth := 0, quay := 0, size := 4096, alloc := 4096, written := written, isSealed := sealed, runs := [tstRun] }

def tstFwd : Forward := { hold := 1, oldToken := 77, newToken := 78, offset := 0, length := 4096, born := 0, lastSent := 0 }

def tstPlan (id : Nat) (x : PlanState) (img : Bytes) : Plan := { id := id, berth := 0, image := img, state := x }

def tstIndex : VIndex :=
  { id := 1, berth := 0, hold := 1, table := 0, metric := 0, codeBits := 8, dim := 8, subspaces := 1, degree := 8, rrFmt := 0xD, rr := false, codebook := [],
    nodeMax := 4, itemsMax := 100, allocGib := 1, sram := 0, entry := 0,
    nodes := [{ no := 0, state := .live, home := 0, centroid := List.replicate 8 0, edges := [] }] }

def tstCkpt (id : Nat) (x : CkptState) : Ckpt := { id := id, step := id, state := x, tensors := [], rkey := BitVec.ofNat 32 (0x200 + id) }

def tstVault : Vault :=
  { berth := 0, pslc := 37446746112, tlc := 1073741824, staging := 268435456, consAt := 0, lastId := 5, ckpts := [tstCkpt 2 .openC, tstCkpt 3 .captured, tstCkpt 4 .consolidated, tstCkpt 5 .consolidated] }

def tstEvent : MotionEvent :=
  { no := 1, cause := 1, flags := 0, devState := 4, timeState := 0, openTime := 0, closeTime := 0, peakTime := 0, peak := 0, peakXyz := [], staltaPeak := 0,
    errBound := 0, source := 0, firstTime := 0, samples := [(1, 2, 3), (4, 5, 6)] }

def tstReady : State :=
  { State.reset with
    dev := tstDev, net := { ports := List.replicate 8 tstPort }, berths := tstBerths
    cmds := { nextId := 3, slots := [tstSlot 7 0 .ready, tstSlot 8 1 .pending, tstSlot 9 2 .discard] }
    rdma := { qps := [tstQp], regions := [tstRegion] }
    media := { nss := [{ nsid := 1, berth := 0, blocks := 1024, forward := true }], holds := [tstHold 1 4096 true, { tstHold 2 0 false with size := 1024 }, tstHold 3 4096 false], fwds := [tstFwd] }
    plans := [tstPlan 1 .loaded (zeros 64), tstPlan 2 .bound tstImage], indexes := [tstIndex], vaults := [tstVault], motionLog := [tstEvent] }

/-- The same module without a vault, and with one that has no OPEN checkpoint. -/
def tstNoVault : State := { tstReady with vaults := [] }

def tstOldVault : State := { tstReady with vaults := [{ tstVault with ckpts := [tstCkpt 3 .captured, tstCkpt 5 .consolidated] }] }

/-- A command of berth 0 and queue 0 that arrives on E0. -/
def tstFrame (params payload : Bytes) : Frame :=
  { port := 0, srcIp := 0, srcUdp := 40000, urgent := false, berth := 0, queue := 0, tag := 1, seq := 0, params := params, payload := payload }

/-- A parameter block of numbers, each in so many bytes. -/
def tstBlock : List (Nat × Nat) → Bytes
  | [] => []
  | (w, v) :: l => toLE w v ++ tstBlock l

/-- Data in the payload: bytes `lo` to `lo + n`. -/
def tstRef (lo n : Nat) : Bytes := tstBlock [(8, 1), (8, lo), (8, n), (8, 0)]

def tstNoRef : Bytes := zeros 32

/-! ### The spec's worked examples -/

/-- 01_machine.md, the example of the unit-presence word: C5 fails sea trial on an X. -/
theorem test_example_unit_word : unitsWord .X { tstFaults with cranes := [5] } = 0x000001FF10FFBFDF := by decide +kernel

/-- 03_media_and_holds.md, the examples of R90 and R94: bits [47:0] of the first run's token before and after its move. -/
theorem test_example_tokens : tokenLow 7 { offset := 0, length := 0, sb := 1200, stripe := 0, narrow := false, gen := 0x25 } = 0x002500009607 ∧
    tokenLow 7 { offset := 0, length := 0, sb := 88, stripe := 0, narrow := false, gen := 512 } = 0x020000000B07 := by decide +kernel

/-- 04_narrow_arithmetic.md, the example of R110: four INT3 codes. -/
theorem test_example_bit_stream : (List.range 4).map (streamCode [0x3B, 0x04] 3) = [3, 7, 0, 2] := by decide +kernel

/-- The stored values of the worked example of 04_narrow_arithmetic.md as FP32: 0.5, −0.25, 1.375, 0.05, −0.5, 40, 0.8 and 0.3. -/
def tstExampleOp : MatOp :=
  { n := 1, x := [[0x3F000000, 0xBE800000, 0x3FB00000, 0x3D4CCCCD, 0xBF000000, 0x42200000, 0x3F4CCCCD, 0x3E99999A].map f32], fmtA := 8, fmtW := 4, sw := f32 0x3E19999A,
    codes := [[5], [14], [1], [7], [15], [3], [11]], outs := [5], outW := [[f32 0x3C240000]], shift := 1 }

/-- 06_crane_arrays.md, the example of R159: a decode projection of 16 tokens takes SHALLOW, IS, with C_est 16,909 and 33,816,576 B read. -/
theorem test_example_crane_choice :
    ((bestChoice (craneChoices { m := 16, k1 := 8192, o := 0, n := 8192, bw := 4, bx := 16, accum := false } 0)).map
      (fun c => (ceilDiv c.est cyc, c.bytes, c.shape, c.mode))) = some (16909, 33816576, 3, 3) := by decide +kernel

/-- 09_selection.md, the example of SELECT_MERGE with K = 4 and K = 8: keys of the result, and EXCLUDED. -/
theorem test_example_merge :
    let e (k r : Nat) : Ent := { key := k, rank := f32 r, attr := 0 }
    let l := [e 11 0x3F000000, e 40 0x3F400000, e 3 0x3F400000, e 7 0x3FA00000, e 90 0x7F800000, e 40 0x3E800000, e 5 0x3F400000, e 2 0x80000000, e 63 0x7FC00000, e padKey 0x7F800000]
    (bestK 4 l).map Ent.key = [2, 40, 11, 3] ∧ (bestK 8 l).map Ent.key = [2, 40, 11, 3, 5, 7, 90] ∧ nanEntries l + padEntries l = 2 := by decide +kernel

/-- 10_vault.md, the example of R271: the fields of the reply from offset 32. -/
theorem test_example_vault_plan :
    (cmdVaultPlan.work { tstReady with berths := [{ state := .moored, regs := { vaultControl := 0x00000004_00000E10_00000000_00000000 } }] }
      { id := 0, opcode := 0x0603, phase := 3, accepted := 0, acceptedLocal := 0, result := false,
        frame := tstFrame (tstBlock [(4, 2000000), (4, 200), (8, 8), (8, 400000000000), (8, 0), (8, 1099511627776), (8, 67108864), (8, 62500)]) [] }).2.fields =
    tstBlock [(4, 1), (4, 197), (4, 3), (4, 9514), (8, 4123656977), (8, 1499511627776), (8, 469801607168), (8, 1500585369600), (8, 5205097709568), (8, 7502926848000), (8, 436)] := by
  decide +kernel

/-- 04_narrow_arithmetic.md, the worked example: one activation of 7 underflows, of 8 elements. The sums' order is free (log entry 41), so the sum
itself is not a closed value here. -/
theorem test_example_quantisation : tstExampleOp.run.counts.elements = 8 ∧ tstExampleOp.run.counts.outputs = 1 ∧ tstExampleOp.run.counts.uflAct = 1 ∧
    tstExampleOp.run.counts.mainBase = 7 := by decide +kernel

/-- One row for each command that is answered in its step, in the order of `quickRows`, with operands that every check lets pass. -/
def tstQuick : List (CmdSpec × Frame) :=
  let c (sp : CmdSpec) (l : List (Nat × Nat)) : CmdSpec × Frame := (sp, tstFrame (tstBlock l) [])
  [ (cmdEcho, tstFrame [] [1, 2, 3]), (cmdGetParam, tstFrame (tstBlock [(2, 1), (6, 0)]) (tstBlock [(2, 0x10), (6, 0)])), c cmdReadResult [(8, 7), (8, 0), (4, 16), (4, 0)],
    c cmdRelease [(8, 8)], c cmdQueueStatus [(8, 0)], c cmdQueueSet [(1, 3), (1, 1), (6, 0)], c cmdDrain [(8, 10)], c cmdReset [(8, 10)],
    c cmdQpCreate [(3, 0), (1, 64), (4, 9), (4, 0), (2, 3), (2, 0), (16, 1)], c cmdQpDestroy [(8, 5)], c cmdRegionRegister [(8, 4096), (8, 8192), (8, 3)],
    c cmdRegionDeregister [(8, 0x101)], c cmdNsCreate [(8, 1024), (8, 1)], c cmdNsDelete [(8, 1)], c cmdNsInfo [(8, 1)], c cmdHoldCreate [(8, 4096), (8, 2)],
    c cmdHoldDelete [(8, 3)], c cmdHoldInfo [(8, 1)], c cmdRelocAck [(8, 1), (8, 77)] ] ++
  [ c cmdPlanUnbind [(8, 2)], c cmdPlanDelete [(8, 1)], c cmdPlanInfo [(8, 1)], c cmdPlanEstimate [(8, 2), (4, 4), (4, 0)], c cmdContextClear [(8, 2)],
    c cmdAdaptReset [(8, 2)], c cmdIndexDelete [(8, 1)], c cmdIndexInfo [(8, 1)] ] ++
  [ c cmdVaultInfo [(8, 0)], c cmdVaultPlan [(4, 1000), (4, 4), (8, 1), (8, 4096), (8, 4096), (8, 8192), (8, 4096), (8, 10)],
    (cmdVaultBegin, tstFrame (tstBlock [(8, 9), (8, 1)] ++ tstRef 0 96) (tstBlock [(8, 1), (8, 4096), (80, 0)])), c cmdVaultCancel [(8, 2)], c cmdVaultKeep [(8, 0x100000004)],
    c cmdVaultDrop [(8, 4)], c cmdReplAccept [(4, 5), (4, 0), (8, 67108864)], c cmdReplSet [(4, 5), (4, 0), (8, 9), (8, 67108864)] ] ++
  [ c cmdBerthCreate [(8, 3), (8, 0x1000400000000), (8, 0)], c cmdBerthRelease [(8, 2)], c cmdBerthSuspend [(8, 2)], c cmdBerthResume [(8, 1)], c cmdBerthInfo [(8, 2)],
    c cmdTideLoad [(8, 1000000), (8, 0), (8, 0)], c cmdTideRead [(8, 0)], (cmdMailSend, tstFrame (tstBlock [(2, 2), (2, 3), (4, 0)]) [1, 2, 3]), c cmdMailRecv [(8, 16)],
    c cmdHawserInfo [(8, 0)], c cmdHawserRetrain [(8, 5)], c cmdLogbookInfo [(8, 0)], c cmdLogbookSettings [(8, 0)], c cmdFwInfo [(8, 0)], c cmdFwCommit [(8, 0)],
    c cmdIdentity [(8, 0)] ]

def tstSlow : List (CmdSpec × Frame) :=
  let c (sp : CmdSpec) (l : List (Nat × Nat)) : CmdSpec × Frame := (sp, tstFrame (tstBlock l) [])
  [ (cmdNsRead, tstFrame (tstBlock [(8, 1), (8, 1023), (8, 1)] ++ tstNoRef) []), (cmdHoldWrite, tstFrame (tstBlock [(8, 2), (8, 0), (8, 0), (8, 1024)] ++ tstRef 0 1024) (zeros 1024)),
    (cmdPlanLoad, tstFrame (tstRef 0 256) (zeros 256)), c cmdPlanBind [(8, 1), (8, 0)], c cmdIndexCreate [(4, 1), (4, 1), (8, 1)],
    c cmdLogbookRead [(4, 0), (4, 8)], c cmdLogbookErase [(4, 3000), (4, 1)], c cmdFwActivate [(8, 1)], c cmdAttest [(8, 64), (64, 1)] ]

def tstResults : List (CmdSpec × Frame) :=
  let c (sp : CmdSpec) (l : List (Nat × Nat)) : CmdSpec × Frame := (sp, tstFrame (tstBlock l) [])
  [ c cmdHoldSeal [(8, 3)], c cmdHoldMap [(8, 1)], c cmdRelocList [], (cmdPlanRun, tstFrame (tstBlock [(4, 2), (4, 4), (8, 0)] ++ tstRef 0 16 ++ tstNoRef ++ tstNoRef) (zeros 16)),
    (cmdAdaptStep, tstFrame (tstBlock [(4, 2), (4, 4), (8, 1)] ++ tstRef 0 16 ++ tstNoRef ++ tstRef 16 16 ++ zeros 28) (zeros 32)), c cmdAdaptExport [(8, 2), (32, 0)],
    (cmdIndexInsert, tstFrame (tstBlock [(4, 1), (4, 1), (1, 0), (7, 0xD)] ++ tstRef 0 48) (zeros 48)), (cmdIndexRemove, tstFrame (tstBlock [(4, 1), (4, 1), (8, 0)] ++ tstRef 0 8) (zeros 8)),
    (cmdIndexSearch, tstFrame (tstBlock [(4, 1), (4, 1), (2, 1), (1, 1), (1, 0xD), (2, 1), (18, 0)] ++ tstRef 0 32 ++ tstNoRef) (zeros 32)), c cmdIndexRebalance [(4, 1), (4, 1), (8, 0), (8, 1)],
    (cmdSelectTopk, tstFrame (tstBlock [(4, 1), (4, 1), (1, 0), (1, 0xD), (6, 0), (8, 4), (8, 0)] ++ tstRef 0 16 ++ tstNoRef ++ tstNoRef) (zeros 16)),
    (cmdSelectMerge, tstFrame (tstBlock [(4, 1), (4, 1), (8, 0)] ++ tstRef 0 32 ++ tstNoRef) (zeros 32)) ] ++
  [ c cmdVaultCommit [(8, 2)], c cmdVaultManifest [(8, 3)], (cmdVaultRestore, tstFrame (tstBlock [(8, 3), (8, 0)] ++ tstBlock [(4, 2), (4, 0x101), (8, 0), (8, 4096), (8, 0)] ++ tstNoRef) []), c cmdVaultVerify [(8, 3)],
    c cmdVaultConsolidate [(8, 0)], c cmdMotionWaveform [(4, 1), (4, 0), (4, 2), (4, 0), (32, 0)], (cmdFwStage, tstFrame (tstBlock [(1, 0), (7, 1)] ++ tstRef 0 1024) (zeros 1024)) ]

def tstStored : List (CmdSpec × Frame) :=
  let c (sp : CmdSpec) (l : List (Nat × Nat)) : CmdSpec × Frame := (sp, tstFrame (tstBlock l) [])
  [ c cmdVaultList [(8, 0)], c cmdFleetMap [(8, 0)], c cmdMotionEvents [(4, 1), (4, 64)] ]

def tstVaultCreate : Frame := tstFrame (tstBlock [(8, 37446746112), (8, 2 ^ 30), (8, 268435456)]) []

/-- Module 0 with module 1 behind its port H0. -/
def tstFleet : State :=
  { tstReady with
    regs := { State.reset.regs with hawserConfig := State.reset.regs.hawserConfig ||| 0x1000 }
    hawser := { fleet := [{ module := 1, serial := [], neighbours := [(0, 0)], version := 1 }]
                ports := { state := .up, lanes := 8, peerModule := 1, signal := true, linked := true } :: List.replicate 5 {}
                credits := { reserved := [(0, 64)], shared := 64 } :: List.replicate 5 {} } }

/-- ALL_REDUCE (1, FP32) or ALL_GATHER (2) of 4 bytes over modules 0 and 1. -/
def tstCollective (kind : Nat) : Frame :=
  tstFrame (tstBlock [(1, kind), (1, if kind = 1 then 0xD else 0), (2, 2), (4, 0), (8, 4)] ++ tstRef 0 32)
    (tstBlock [(4, 0), (4, 0x101), (8, 0), (4, 1), (4, 0x101), (8, 0)])

/-- `Accepted` as a computation. -/
def tstAccepted (sp : CmdSpec) (t : Nat) (f : Frame) (s : State) : Bool :=
  decide (s.berths.length = 16) && s.cmds.active.all (fun a => decide (a.id < s.cmds.nextId)) && s.rdma.sram.all (fun x => memWf x.2)
    && portUp (setNow t s) f.port && (headerFault sp.opcode 1 f).isNone && !f.urgent && decide (f.params.length + f.payload.length ≤ fragUnit s)
    && (!sequenced t f s || (f.seq == (getQueue (counted t f s) f.berth f.queue).expected && (getQueue (counted t f s) f.berth f.queue).held.isEmpty))
    && (admissionChecks sp (atAdmission t f s) f).isNone

/-- What `Starts` adds, as a computation. -/
def tstUnheld (sp : CmdSpec) (t : Nat) (f : Frame) (s : State) : Bool :=
  s.cmds.active.all (fun b => !(b.sequenced && decide (b.frame.berth = f.berth ∧ b.frame.queue = f.queue)) || decide (3 ≤ b.phase))
    && (decide (f.queue = 0xFF) || decide ((getBerth s f.berth).state ≠ .suspended)) && decide (s.power.current ≤ sp.depth (atAdmission t f s) f)
    && decide (sp.wait (taken sp t f s) (newActive sp f (sequenced t f s) (atAdmission t f s)) = 3)

def tstStarts (sp : CmdSpec) (t : Nat) (f : Frame) (s : State) : Bool := tstAccepted sp t f s && tstUnheld sp t f s

def tstUnhurt (sp : CmdSpec) (t : Nat) (f : Frame) (s : State) : Bool :=
  (failedQp (running sp t f s) (startedCmd sp t f s)).isNone && (poisonedRef (sp.uses (running sp t f s) f) (running sp t f s) (startedCmd sp t f s)).isNone

theorem tst_accepted {sp : CmdSpec} {t : Nat} {f : Frame} {s : State} (h : tstAccepted sp t f s = true) : Accepted sp t f s := by
  simp only [tstAccepted, Bool.and_eq_true, decide_eq_true_eq, List.all_eq_true, Bool.or_eq_true, Bool.not_eq_true', beq_iff_eq, Option.isNone_iff_eq_none,
    List.isEmpty_iff] at h
  obtain ⟨⟨⟨⟨⟨⟨⟨⟨h1, h2⟩, h3⟩, h4⟩, h5⟩, h6⟩, h7⟩, h8⟩, h9⟩ := h
  refine ⟨⟨h1, h2, h3⟩, ⟨h4, h5, h6, h7⟩, fun hq => ?_, h9⟩
  rcases h8 with h8 | h8
  · rw [hq] at h8; cases h8
  · exact h8

theorem tst_starts {sp : CmdSpec} {t : Nat} {f : Frame} {s : State} (h : tstStarts sp t f s = true) : Starts sp t f s := by
  rw [tstStarts, Bool.and_eq_true] at h
  refine ⟨tst_accepted h.1, ?_⟩
  have h2 := h.2
  simp only [tstUnheld, Bool.and_eq_true, decide_eq_true_eq, List.all_eq_true, Bool.or_eq_true, Bool.not_eq_true'] at h2
  refine ⟨fun b hb hs h3 h4 => ?_, h2.1.1.2, h2.1.2, h2.2⟩
  rcases h2.1.1.1 b hb with h5 | h5
  · simp [hs, h3, h4] at h5
  · exact h5

theorem tst_unhurt {sp : CmdSpec} {t : Nat} {f : Frame} {s : State} (h : tstUnhurt sp t f s = true) : Unhurt sp t f s := by
  simpa [tstUnhurt, Unhurt, Bool.and_eq_true] using h

/-! ### Witnesses: every hypothesis of every statement is met somewhere -/

/-- SoundIsKept and StepConsumesOneCommand: an idle step from reset. -/
theorem test_step_from_reset : Sound State.reset ∧ step State.reset = .next State.reset := by
  refine ⟨⟨by decide +kernel, by decide +kernel, by decide +kernel⟩, rfl⟩

/-- RefusedCommandHasNoSideEffect: an NS_INFO of a namespace that does not exist is refused. -/
theorem test_refused_command : Arrives cmdNsInfo.opcode 0 (tstFrame (tstBlock [(8, 9)]) []) tstReady ∧
    (tstFrame (tstBlock [(8, 9)]) []).seq = (getQueue (counted 0 (tstFrame (tstBlock [(8, 9)]) []) tstReady) 0 0).expected ∧
    (getQueue (counted 0 (tstFrame (tstBlock [(8, 9)]) []) tstReady) 0 0).held = [] ∧
    admissionChecks cmdNsInfo (atAdmission 0 (tstFrame (tstBlock [(8, 9)]) []) tstReady) (tstFrame (tstBlock [(8, 9)]) []) = some (conflict kNs 9 0) := by
  refine ⟨⟨by decide +kernel, by decide +kernel, by decide +kernel, by decide +kernel⟩, by decide +kernel, by decide +kernel, by decide +kernel⟩

/-- A HOLD_MAP whose TAG is that of a READY slot, and the module with 4,096 slots of the berth taken. -/
def tstMapAgain : Frame := { tstFrame (tstBlock [(8, 1)]) [] with tag := 7 }

def tstFullSlots : State := { tstReady with cmds := { nextId := 3, slots := (List.range 4096).map (fun i => tstSlot (BitVec.ofNat 32 (i + 10)) i .ready) } }

/-- UsedTagsAreRefused: both clauses. -/
theorem test_used_tag : Arrives cmdHoldMap.opcode 0 tstMapAgain tstReady ∧ PassesToSlots cmdHoldMap (atAdmission 0 tstMapAgain tstReady) tstMapAgain ∧
    getSlot tstReady 0 7 = some (tstSlot 7 0 .ready) := by
  refine ⟨⟨by decide +kernel, by decide +kernel, by decide +kernel, by decide +kernel⟩,
    ⟨by decide +kernel, by decide +kernel, by decide +kernel, by decide +kernel, by decide +kernel, by decide +kernel, by decide +kernel, by decide +kernel, by decide +kernel⟩, by decide +kernel⟩

theorem test_full_slots : Arrives cmdHoldMap.opcode 0 tstMapAgain tstFullSlots ∧ PassesToSlots cmdHoldMap (atAdmission 0 tstMapAgain tstFullSlots) tstMapAgain ∧
    getSlot tstFullSlots 0 7 = none ∧
    4096 ≤ (tstFullSlots.cmds.slots.filter (fun x => x.berth == 0 && (x.state == .pending || x.state == .ready || x.state == .discard))).length := by
  refine ⟨⟨by decide +kernel, by decide +kernel, by decide +kernel, by decide +kernel⟩,
    ⟨by decide +kernel, by decide +kernel, by decide +kernel, by decide +kernel, by decide +kernel, by decide +kernel, by decide +kernel, by decide +kernel, by decide +kernel⟩, by decide +kernel,
    by decide +kernel⟩

/-- QuickCommandsComplete and the statements about single commands: every row of `quickRows` starts on a small module. -/
theorem test_quick_rows_start : ∀ x ∈ tstQuick, Starts x.1 0 x.2 tstReady ∧ Unhurt x.1 0 x.2 tstReady := by
  have h : tstQuick.all (fun x => tstStarts x.1 0 x.2 tstReady && tstUnhurt x.1 0 x.2 tstReady) = true := by decide +kernel
  intro x hx
  have hx := List.all_eq_true.1 h x hx
  rw [Bool.and_eq_true] at hx
  exact ⟨tst_starts hx.1, tst_unhurt hx.2⟩

theorem test_vault_create_starts : Starts cmdVaultCreate 0 tstVaultCreate tstNoVault ∧ Unhurt cmdVaultCreate 0 tstVaultCreate tstNoVault ∧
    Starts cmdVaultDelete 0 (tstFrame (zeros 8) []) tstOldVault ∧ Unhurt cmdVaultDelete 0 (tstFrame (zeros 8) []) tstOldVault :=
  ⟨tst_starts (by decide +kernel), tst_unhurt (by decide +kernel), tst_starts (by decide +kernel), tst_unhurt (by decide +kernel)⟩

theorem test_quick_rows_all_shown : quickRows.all (fun r => tstQuick.any (fun x => x.1.opcode == r.spec.opcode) || r.spec.opcode == 0x0600 || r.spec.opcode == 0x0601) = true := by
  decide +kernel

/-- ResultCommandsComplete: every row is accepted, and the stored ones start. -/
theorem test_result_rows_start : ∀ x ∈ tstResults ++ tstStored, Starts x.1 0 x.2 tstReady := by
  have h : (tstResults ++ tstStored).all (fun x => tstStarts x.1 0 x.2 tstReady) = true := by decide +kernel
  exact fun x hx => tst_starts (List.all_eq_true.1 h x hx)

/-- The collectives, on a fleet of two modules. -/
theorem test_collectives_start : Starts cmdCollective 0 (tstCollective 1) tstFleet ∧ Starts cmdCollective 0 (tstCollective 2) tstFleet :=
  ⟨tst_starts (by decide +kernel), tst_starts (by decide +kernel)⟩

theorem test_result_rows_all_shown : (resultRows ++ storedRows).all (fun r => (tstResults ++ tstStored).any (fun x => x.1.opcode == r.spec.opcode) || r.spec.opcode == 0x0810) = true := by
  decide +kernel

/-- SlowCommandsRun: every row but HOLD_READ, and HOLD_READ under the run's own token. -/
theorem test_slow_rows_start : ∀ x ∈ tstSlow, Starts x.1 0 x.2 tstReady := by
  have h : tstSlow.all (fun x => tstStarts x.1 0 x.2 tstReady) = true := by decide +kernel
  exact fun x hx => tst_starts (List.all_eq_true.1 h x hx)

def tstToken : Nat := (tokenOf (tstHold 1 4096 true) tstRun).toNat

/-- A HOLD_READ of the first 4,096 bytes of hold 1 under its run's own token. -/
def tstHoldRead : Frame := tstFrame (tstBlock [(8, 1)] ++ (toLE 8 tstToken ++ (tstBlock [(8, 0), (8, 4096)] ++ tstNoRef))) []

theorem tst_split (a c k n w : Nat) (ha : a < 2 ^ k) (hc : c < 2 ^ n) (hw : w = k + n) :
    (a + c * 2 ^ k) % 2 ^ w = a + c * 2 ^ k ∧ bits (a + c * 2 ^ k) k n = c ∧ bits (a + c * 2 ^ k) 0 k = a := by
  have hm : 0 < 2 ^ k := by omega
  refine ⟨Nat.mod_eq_of_lt ?_, ?_, ?_⟩
  · calc a + c * 2 ^ k < 2 ^ k + c * 2 ^ k := by omega
      _ = 2 ^ k * (c + 1) := by ring
      _ ≤ 2 ^ k * 2 ^ n := Nat.mul_le_mul_left _ hc
      _ = 2 ^ w := by rw [hw, Nat.pow_add]
  · rw [bits, Nat.add_mul_div_right a c hm, Nat.div_eq_of_lt ha, Nat.zero_add, Nat.mod_eq_of_lt hc]
  · rw [bits, Nat.pow_zero, Nat.div_one, Nat.add_mul_mod_self_right, Nat.mod_eq_of_lt ha]

/-- The token of the run: QUAY 0, SUPERBLOCK 3 and the CHECK of hold 1. -/
theorem tst_token : tstToken = 96 + (Config.tokenCheck 1 96).toNat * 2 ^ 48 := by
  have hc : (Config.tokenCheck 1 96).toNat < 65536 := (Config.tokenCheck 1 96).isLt
  have hl : tokenLow (tstHold 1 4096 true).quay tstRun = 96 := by decide +kernel
  have hi : (tstHold 1 4096 true).id = 1 := by decide +kernel
  rw [tstToken, tokenOf, hl, hi, BitVec.toNat_ofNat]
  generalize (Config.tokenCheck 1 96).toNat = c at hc ⊢
  refine Nat.mod_eq_of_lt (Nat.lt_of_le_of_lt (Nat.add_le_add_left (Nat.mul_le_mul_right _ (Nat.le_of_lt_succ hc)) 96) ?_)
  decide +kernel

theorem tst_token_read : par tstHoldRead 8 8 = tstToken := by
  have h := (tst_split 96 (Config.tokenCheck 1 96).toNat 48 16 64 (by decide) (Config.tokenCheck 1 96).isLt rfl).1
  have h8 : 256 ^ 8 = 2 ^ 64 := by decide +kernel
  have hl : 8 - (tstBlock [(8, 1)]).length = 0 := by decide +kernel
  rw [par, tstHoldRead, tstFrame, getLE_append _ _ _ _ (by decide +kernel), hl, getLE_toLE,
    tst_token, h8]
  exact h

theorem tst_token_verifies : tokenVerifies 1 tstToken = true := by
  have h := tst_split 96 (Config.tokenCheck 1 96).toNat 48 16 64 (by decide) (Config.tokenCheck 1 96).isLt rfl
  rw [tokenVerifies, tst_token, h.2.1, h.2.2, beq_self_eq_true]

theorem tst_check_dropped {sp : CmdSpec} {s : State} {f : Frame} (h : sp.check s f = none) :
    admissionChecks sp s f = admissionChecks { sp with check := fun _ _ => none } s f := by
  unfold admissionChecks
  rw [h]
  rfl

theorem tst_hold_read_range : holdReadRange (atAdmission 0 tstHoldRead tstReady) tstHoldRead = none := by
  have hn : (holdNamed (atAdmission 0 tstHoldRead tstReady) tstHoldRead).filter (fun h => h.isSealed) = some (tstHold 1 4096 true) := by decide +kernel
  have hr : runOfToken (tstHold 1 4096 true) tstToken = some tstRun := by simp [runOfToken, tstHold, tstToken]
  unfold holdReadRange
  rw [hn]
  simp only []
  rw [show (tstHold 1 4096 true).id = 1 from rfl, tst_token_read, tst_token_verifies, hr]
  decide +kernel

theorem tst_hold_read_check : cmdHoldRead.check (atAdmission 0 tstHoldRead tstReady) tstHoldRead = none := by
  simp only [cmdHoldRead]
  rw [tst_hold_read_range]
  decide +kernel

/-- SlowCommandsRun: a HOLD_READ under the token of its run. -/

theorem test_hold_read_starts : Starts cmdHoldRead 0 tstHoldRead tstReady := by
  refine ⟨⟨⟨by decide +kernel, by decide +kernel, by decide +kernel⟩, ⟨by decide +kernel, by decide +kernel, by decide +kernel, by decide +kernel⟩,
    fun _ => ⟨by decide +kernel, by decide +kernel⟩, ?_⟩, ⟨by decide +kernel, by decide +kernel, by decide +kernel, by decide +kernel⟩⟩
  rw [tst_check_dropped tst_hold_read_check]
  decide +kernel

/-- WritesEnterTheProtectedBuffer and NamespaceCommandsComplete: a write from the payload, a discard and a flush with nothing pending. -/
def tstWrite : Frame := tstFrame (tstBlock [(8, 1), (8, 1023), (8, 1)] ++ tstRef 0 4096) (zeros 4096)

/-- The same module with fragments of 8,192 bytes. -/
def tstWide : State := { tstReady with regs := { State.reset.regs with nimoxTransport := State.reset.regs.nimoxTransport ||| (1 <<< 30) } }

theorem test_buffered_commands : Starts cmdNsWrite 0 tstWrite tstWide ∧ Unhurt cmdNsWrite 0 tstWrite tstWide ∧ (parRef tstWrite 24).kind = 1 ∧
    bufRoom (running cmdNsWrite 0 tstWrite tstWide) 1 1023 1 = true ∧
    Starts cmdNsDiscard 0 (tstFrame (tstBlock [(8, 1), (8, 1023), (8, 1)] ++ tstNoRef) []) tstReady ∧
    bufRoom (running cmdNsDiscard 0 (tstFrame (tstBlock [(8, 1), (8, 1023), (8, 1)] ++ tstNoRef) []) tstReady) 1 1023 0 = true ∧
    Starts cmdNsFlush 0 (tstFrame (tstBlock [(8, 1)]) []) tstReady ∧ tstReady.eng.wbuf = [] ∧ tstReady.cmds.active = [] :=
  ⟨tst_starts (by decide +kernel), tst_unhurt (by decide +kernel), by decide +kernel, by decide +kernel, tst_starts (by decide +kernel), by decide +kernel,
    tst_starts (by decide +kernel), rfl, rfl⟩

/-- DeviceCommandsComplete: each kind of slot is read and released. -/
theorem test_slots_of_each_kind : ∀ tag ∈ [(7 : Nat), 8, 9, 77],
    Starts cmdReadResult 0 (tstFrame (tstBlock [(8, tag), (8, 0), (4, 16), (4, 0)]) []) tstReady ∧ Starts cmdRelease 0 (tstFrame (tstBlock [(8, tag)]) []) tstReady := by
  have h : [(7 : Nat), 8, 9, 77].all (fun tag => tstStarts cmdReadResult 0 (tstFrame (tstBlock [(8, tag), (8, 0), (4, 16), (4, 0)]) []) tstReady
      && tstStarts cmdRelease 0 (tstFrame (tstBlock [(8, tag)]) []) tstReady) = true := by decide +kernel
  intro tag ht
  have h := List.all_eq_true.1 h tag ht
  rw [Bool.and_eq_true] at h
  exact ⟨tst_starts h.1, tst_starts h.2⟩

theorem test_slot_kinds : (getSlot tstReady 0 7).map Slot.state = some .ready ∧ (getSlot tstReady 0 8).map Slot.state = some .pending ∧
    (getSlot tstReady 0 9).map Slot.state = some .discard ∧ getSlot tstReady 0 77 = none ∧ tstReady.mem.poisoned = [] := by decide +kernel

/-- ReplicationCommandsComplete: with QPN 0 and with a queue pair, off and set before. -/
def tstReplicating : State :=
  { tstReady with vaults := [{ tstVault with send := { state := .idle, qpn := 5, ackRkey := 0x300 }, recv := some { qpn := 5, rkey := 0x301, window := 67108864 } }] }

theorem test_replication_commands :
    Starts cmdReplAccept 0 (tstFrame (zeros 16) []) tstReady ∧ Starts cmdReplAccept 0 (tstFrame (zeros 16) []) tstReplicating ∧
    Starts cmdReplSet 0 (tstFrame (zeros 24) []) tstReady ∧ Starts cmdReplSet 0 (tstFrame (zeros 24) []) tstReplicating :=
  ⟨tst_starts (by decide +kernel), tst_starts (by decide +kernel), tst_starts (by decide +kernel), tst_starts (by decide +kernel)⟩

/-- HawserCommandsComplete: a port that has no signal, and one of the fleet that may train. TideCommandsComplete: a pending table. -/
theorem test_hawser_and_tide_reads :
    Starts cmdHawserRetrain 0 (tstFrame (zeros 8) []) tstFleet ∧ (mayTrain tstFleet 0 && (hawserPort tstFleet 0).signal) = true ∧
    (mayTrain tstReady 5 && (hawserPort tstReady 5).signal) = false ∧
    Starts cmdTideRead 0 (tstFrame (tstBlock [(8, 1)]) []) { tstReady with tide := { pending := some { entries := [] } } } :=
  ⟨tst_starts (by decide +kernel), by decide +kernel, by decide +kernel, tst_starts (by decide +kernel)⟩

/-- FirmwareCommitEndsTheTrial: a trial that runs. -/
theorem test_firmware_trial : Starts cmdFwCommit 0 (tstFrame (zeros 8) []) { tstReady with trust := { current := 1, trial := true }, boot := { running := 1 } } :=
  tst_starts (by decide +kernel)

/-- SettingAndBollardRowsComplete: every row of both lists. -/
def tstArgs : SettingArgs :=
  { port := 1, cls := 2, v64 := State.reset.regs.nimoxTransport, m64 := 0xFFFFFFFF00000000, v128 := 1, m128 := 0, group := 7, on := true, value := 0, key := 3,
    pid := 0x0A00, ones := 1 }

def tstSet : Frame := tstFrame [] (setEntry 0x0041 1 1)

/-- Images signed by key 0, of which every header field is known. -/
def tstImages : State := { tstReady with trust := { slots := List.replicate 6 { image := zeros 2720 } } }

theorem test_setting_rows : ∀ r ∈ (settingRows tstArgs 0 (setOne tstSet 0x0160 5 0xFFF) tstImages), Starts cmdSetParam 0 r.2 tstImages := by
  have h : (settingRows tstArgs 0 (setOne tstSet 0x0160 5 0xFFF) tstImages).all (fun r => tstStarts cmdSetParam 0 r.2 tstImages) = true := by decide +kernel
  exact fun r hr => tst_starts (List.all_eq_true.1 h r hr)

/-- Bollard 63 of B0 at 5. -/
def tstBollards : State := { tstReady with berths := { tstBerth .moored with bollards := List.replicate 63 0 ++ [5] } :: List.replicate 15 {} }

theorem test_bollard_rows : (∀ r ∈ bollardRows 0 (tstFrame [] []) 63 5, Starts cmdBollard 0 r.2 tstBollards) ∧ takesOn tstBollards 0 63 = [] ∧
    63 < (getBerth tstBollards 0).bollards.length := by
  have h : (bollardRows 0 (tstFrame [] []) 63 5).all (fun r => tstStarts cmdBollard 0 r.2 tstBollards) = true := by decide +kernel
  exact ⟨fun r hr => tst_starts (List.all_eq_true.1 h r hr), by decide +kernel, by decide +kernel⟩

/-- BollardsCount: a TAKE of more than the count is accepted and waits. -/
theorem test_bollard_wait : Accepted cmdBollard 0 (bollardFrame (tstFrame [] []) 63 2 6) tstBollards ∧ (getBerth tstBollards 0).bollards.getD 63 0 < 6 ∧
    tstBollards.cmds.active = [] ∧ (getBerth tstBollards 0).state ≠ .suspended :=
  ⟨tst_accepted (by decide +kernel), by decide +kernel, by decide +kernel, by decide +kernel⟩

/-- PortClassSpendsOneChange and ObservePortsCarryNoRdma: a change, a change with none left, the present class, and OBSERVE. -/
def tstNoChange : State := { tstReady with regs := { State.reset.regs with portRemain := List.replicate 8 0 } }

theorem test_port_class : (∀ c ∈ [(0 : Nat), 1, 2], Starts cmdSetParam 0 (setOne (tstFrame [] []) 0x0021 c 3) tstReady) ∧
    Starts cmdSetParam 0 (setOne (tstFrame [] []) 0x0021 2 3) tstNoChange ∧ tstReady.regs.portClass.getD 1 0 = 1 ∧ tstReady.regs.portRemain.getD 1 0 = 16 ∧
    tstNoChange.regs.portRemain.getD 1 0 = 0 := by
  have h : [(0 : Nat), 1, 2].all (fun c => tstStarts cmdSetParam 0 (setOne (tstFrame [] []) 0x0021 c 3) tstReady) = true := by decide +kernel
  exact ⟨fun c hc => tst_starts (List.all_eq_true.1 h c hc), tst_starts (by decide +kernel), by decide +kernel, by decide +kernel, by decide +kernel⟩

/-- AlertsBraceTheModule: an alert of 60 s, one of 0 s, and a seventeenth source. -/
def tstAlert (sec : Nat) : Frame := { tstFrame (tstBlock [(8, 77), (4, 1), (2, sec), (18, 0)]) [] with urgent := true, queue := 0xFF }

def tstSixteen : State := { tstReady with storm := { alerts := (List.range 16).map (fun i => { source := BitVec.ofNat 64 i, seqNo := 0, expiry := 10 ^ 12 }) } }

theorem test_alerts : ∀ x ∈ [(60, tstReady), (0, tstReady), (60, tstSixteen)], AlertArrives 0 (tstAlert x.1) x.2 ∧ x.2.dev.drain = none ∧
    (∀ a ∈ x.2.storm.alerts, a.source ≠ BitVec.ofNat 64 (par (tstAlert x.1) 0 8)) := by
  have h : ∀ x ∈ [(60, tstReady), (0, tstReady), (60, tstSixteen)],
      ((x.2.berths.length = 16 ∧ (∀ a ∈ x.2.cmds.active, a.id < x.2.cmds.nextId) ∧ ∀ y ∈ x.2.rdma.sram, memWf y.2 = true) ∧
        portUp (setNow 0 x.2) (tstAlert x.1).port = true ∧ headerFault 0x0900 1 (tstAlert x.1) = none ∧ (tstAlert x.1).urgent = true ∧
        (tstAlert x.1).params.length + (tstAlert x.1).payload.length ≤ fragUnit x.2 ∧ (tstAlert x.1).berth = 0 ∧ (tstAlert x.1).queue = 0xFF ∧
        (x.2.dev.state = .ready ∨ x.2.dev.state = .braced ∨ x.2.dev.state = .draining) ∧ 1 ≤ portClassOf x.2 (tstAlert x.1).port ∧ alertCheck (tstAlert x.1) = none) ∧
      x.2.dev.drain = none ∧ (∀ a ∈ x.2.storm.alerts, a.source ≠ BitVec.ofNat 64 (par (tstAlert x.1) 0 8)) := by decide +kernel
  exact h

/-- DrainAndResetBegin with a command still to complete; FirmwareCommit and the others start beside it too. -/
def tstRunning (id : Nat) : Active :=
  { id := id, opcode := 0x0210, frame := { tstFrame (tstBlock [(8, 4096), (8, 0)]) [] with queue := 3 }, phase := 3, accepted := 0, acceptedLocal := 0, result := false }

def tstBusy : State := { tstReady with cmds := { nextId := 3, active := [tstRunning 2] } }

theorem test_drain_of_a_busy_module : Starts cmdDrain 0 (tstFrame (tstBlock [(8, 3600)]) []) tstBusy ∧ Starts cmdReset 0 (tstFrame (tstBlock [(8, 3600)]) []) tstBusy ∧
    Starts cmdReset 0 (tstFrame (tstBlock [(8, 0)]) []) { tstReady with dev := { tstDev with state := .braced } } :=
  ⟨tst_starts (by decide +kernel), tst_starts (by decide +kernel), tst_starts (by decide +kernel)⟩

/-- LogbookOperationsRun: a program of the first user words on an idle bank, of words that hold data, and behind another operation. -/
def tstProgramOp (left : Nat) : BankOp := { cmd := 2, kind := 1, sector := 2944, word := 0, total := 2, left := left, began := 0, words := [5, 6] }

def tstEraseOp : BankOp := { cmd := 2, kind := 2, sector := 2944, word := 0, total := 1, left := 1, began := 0, words := [] }

def tstProgramFrame : Frame := tstFrame (tstBlock [(4, 2944 * 512), (4, 2)]) (tstBlock [(8, 5), (8, 6)])

theorem test_logbook_program : Starts cmdLogbookProgram 0 tstProgramFrame tstReady ∧
    Starts cmdLogbookProgram 0 tstProgramFrame { tstReady with logbook := { words := [(2944 * 512 + 1, 9)] } } ∧
    firstProgrammed { tstReady with logbook := { words := [(2944 * 512 + 1, 9)] } } (tstProgramOp 2) = some (2944 * 512 + 1) ∧ firstProgrammed tstReady (tstProgramOp 2) = none ∧
    Starts cmdLogbookProgram 0 tstProgramFrame { tstReady with logLive := { ops := [[], [], [tstEraseOp], []] } } ∧ bankOf 2944 = 2 :=
  ⟨tst_starts (by decide +kernel), tst_starts (by decide +kernel), by decide +kernel, by decide +kernel, tst_starts (by decide +kernel), by decide +kernel⟩

/-- LogbookOperationsRun: operations that end, with a spare sector and with none left, and a compaction of each half. -/
theorem test_logbook_operations :
    bankOps { tstReady with logLive := { ops := [[], [], [tstProgramOp 2, tstEraseOp], []] } } 2 = [tstProgramOp 2, tstEraseOp] ∧ wordProgrammed tstReady (2944 * 512) = false ∧
    (retireSector 2944 1 (setNow 0 tstReady)).isSome = true ∧
    retireSector 2944 2 { tstReady with logbook := { bad := (List.range 24).map (fun i => { phys := 2 * 1024 + i, cause := 1, timeS := 0 }) } } = none ∧
    (∀ l ∈ tstReady.logLive.ops, ∀ o ∈ l, o.kind ≠ 3) ∧ tstReady.logLive.ops.length = 4 := by decide +kernel

/-! ### Witnesses for what happens by itself -/

/-- PowerStatesFollowTheTimers: each timer at the last instant of its time, a timer that may not run, and an exit to P0. -/
def tstPower (p last : Nat) : State := { tstReady with power := { current := p, lastP0 := last, lastNand := last, lastSram := last } }

theorem test_power_timers :
    (idleRuns tstReady = true ∧ (tstPower 0 7).power.lastP0 + (tstPower 0 7).power.idleP1.toNat * 1000 = 1000007 ∧ usesUpTo (tstPower 0 7) 0 = false) ∧
    ((tstPower 1 7).power.lastNand + (tstPower 1 7).power.idleP2.toNat * 1000000 = 100000007 ∧ usesUpTo (tstPower 1 7) 1 = false) ∧
    ((tstPower 2 7).power.lastSram + (tstPower 2 7).power.idleP3.toNat * 1000000 = 10000000007 ∧ (tstPower 2 7).power.maxState = 3) ∧
    idleRuns { tstReady with dev := { tstDev with state := .braced } } = false ∧
    (alive { tstReady with power := { current := 2, exitTo := some 0 } } = true ∧ waitingIds tstReady = []) := by decide +kernel

/-- DatagramsAreTakenOrDropped: one to another port, one of 31 bytes, the first of two fragments, and a whole ECHO. -/
def tstHeader (params payload index count : Nat) : Bytes :=
  let h := tstBlock [(2, 0x4D4E), (1, 1), (1, if index + 1 = count then 1 else 0), (2, 0x0100), (1, 0), (1, 0), (4, 9), (4, 0), (4, params), (4, payload), (2, index), (2, count)]
  h ++ toLE 4 (crc32c h)

def tstTo (port : Nat) (bytes : Bytes) : Datagram :=
  { port := 0, dstIp := linkLocal (portMac tstReady 0), dstUdp := port, srcIp := 0, srcUdp := 40000, bytes := bytes }

theorem test_datagrams :
    (portUp tstReady 0 && portAnswers tstReady 0 (tstTo 20046 []).dstIp && (tstTo 20046 []).dstUdp == udpPort tstReady) = false ∧
    (portUp tstReady 0 && portAnswers tstReady 0 (tstTo 20045 []).dstIp && (tstTo 20045 []).dstUdp == udpPort tstReady) = true ∧
    dropsHeader (tstTo 20045 (zeros 31)) = true ∧
    (let d := tstTo 20045 (tstHeader 0 1409 0 2 ++ zeros 1408)
     dropsHeader d = false ∧ (headFrame d).berth = 0 ∧ frameFault d (fragUnit tstReady) = none ∧ hdrCount d = 2 ∧ reasmRefuse tstReady 1409 = none) ∧
    (let d := tstTo 20045 (tstHeader 0 3 0 1 ++ [1, 2, 3])
     dropsHeader d = false ∧ frameFault d (fragUnit tstReady) = none ∧ hdrCount d = 1 ∧ (headFrame d).urgent = false ∧
       headerFault (hdrOpcode d) 1 (wholeFrame (headFrame d) 0 [1, 2, 3]) = none) ∧
    tstReady.net.reasms = [] ∧ tstReady.net.refused = [] := by decide +kernel

/-- TransportTimersExpire: a reassembly and a refused key of key `tstKey`, and a gap before number 5. -/
def tstReasm : Reasm :=
  { key := tstKey, opcode := 0x0100, urgent := false, paramLen := 0, payloadLen := 1409, fragCount := 2, unit := 1408, timeoutNs := 500000000, frags := [(0, zeros 1408)], last := 10 }

def tstHeldCmd : HeldCmd := { opcode := 0x0100, frame := { tstFrame [] [] with seq := 5 } }

def tstWaiting : State :=
  { tstReady with net := { tstReady.net with
      reasms := [tstReasm], refused := [{ key := tstKey, timeoutNs := 500000000, last := 10 }]
      queues := [{ berth := 0, queue := 3, held := [tstHeldCmd], gapSince := some 10 }] } }

theorem test_transport_timers : tstWaiting.net.reasms.find? (fun x => x.key == tstKey && !x.held) = some tstReasm ∧ alive tstWaiting = true ∧ portUp tstWaiting 0 = true ∧
    tstReasm.last + tstReasm.timeoutNs < 500000011 ∧ 500000010 ≤ tstReasm.last + tstReasm.timeoutNs ∧ (getQueue tstWaiting 0 3).gapSince = some 10 ∧
    (getQueue tstWaiting 0 3).held = [tstHeldCmd] ∧ 10 + fragTimeoutNs tstWaiting = 500000010 ∧ (getQueue tstWaiting 0 4).gapSince = none := by decide +kernel

/-- WorkStartsAndEnds: a LOGBOOK_READ that waits, one behind it in its queue, and one that has started. -/
def tstRead (id phase : Nat) : Active :=
  { id := id, opcode := 0x0A01, frame := tstFrame (tstBlock [(4, 0), (4, 8)]) [], phase := phase, accepted := 0, acceptedLocal := 0, result := false,
    sequenced := true }

def tstWorks : State := { tstReady with cmds := { nextId := 4, active := [tstRead 1 1, tstRead 2 0] } }
def tstWorked : State := { tstReady with cmds := { nextId := 4, active := [tstRead 1 3, { tstRead 2 3 with awaiting := [0] }] } }

theorem test_work : (getActive tstWorks 1 = some (tstRead 1 1) ∧ specOf 0x0A01 = some cmdLogbookRead ∧ alive tstWorks = true ∧ phaseOf cmdLogbookRead (setNow 0 tstWorks) (tstRead 1 1) = 3) ∧
    (getActive tstWorks 2 = some (tstRead 2 0) ∧ phaseOf cmdLogbookRead (setNow 0 tstWorks) (tstRead 2 0) = 0) ∧
    (getActive tstWorked 1 = some (tstRead 1 3) ∧ cmdLogbookRead.step (setNow 0 tstWorked) (tstRead 1 3) = none ∧ cmdLogbookRead.done (setNow 0 tstWorked) (tstRead 1 3) = true) ∧
    (getActive tstWorked 2 = some { tstRead 2 3 with awaiting := [0] } ∧ failedQp tstWorked { tstRead 2 3 with awaiting := [0] } = none) := by
  refine ⟨⟨by decide +kernel, rfl, by decide +kernel, by decide +kernel⟩, ⟨by decide +kernel, by decide +kernel⟩, ⟨by decide +kernel, by decide +kernel, by decide +kernel⟩,
    ⟨by decide +kernel, by decide +kernel⟩⟩

/-- StormEventsComplete and HoldOffEndsTheBrace: a module that senses, and one in BRACED with an alert and a peer. -/
def tstBraced : State :=
  { tstReady with
    now := 10 ^ 11
    dev := { tstDev with state := .braced, prev := .ready }
    storm := { state := .settle, alerts := [{ source := 1, seqNo := 0, expiry := 10 ^ 11 }], peers := [{ module := 1, last := 75 * 10 ^ 9 }], repeatAt := 9 * 10 ^ 10, holdAt := 4 * 10 ^ 10 } }

theorem test_storm_events : (sensorOn tstReady = true ∧ tstReady.pf.flushAt = none ∧ tstReady.storm.sensor.sampledMs ≠ ptpNow (setNow 1000000 tstReady) / 1000000) ∧
    tstReady.storm.sensor.sampledMs = ptpNow (setNow 999999 tstReady) / 1000000 ∧ tstReady.storm.sensor.lastAt + 5000000 ≤ max tstReady.now 5000000 ∧
    tstBraced.storm.alerts.any (fun a => a.source == 1 && decide (a.expiry ≤ max tstBraced.now 0)) = true ∧
    tstBraced.storm.alerts.any (fun a => a.source == 2 && decide (a.expiry ≤ max tstBraced.now 0)) = false ∧
    tstBraced.storm.peers.any (fun p => p.module == 1 && decide (p.last + 25000000000 ≤ max tstBraced.now 0)) = true ∧
    (stormNow tstBraced = .settle ∧ tstBraced.storm.repeatAt + 10000000000 ≤ max tstBraced.now 0) ∧ (alive tstBraced = true ∧ tstBraced.storm.sealDone = false) ∧
    (tstBraced.dev.drain = none ∧ tstBraced.storm.holdAt + holdOffNs tstBraced = tstBraced.now ∧ tstBraced.side.pdPending = false) := by decide +kernel

/-- PowerFailureFlushesAndPowersOff and HoldupMeasurementIsTheFormula. -/
def tstFlushing : State := { tstReady with pf := { armed := false, flushAt := some 3 } }
def tstRestored : State := { tstReady with dev := { tstDev with state := .powered }, pf := { flushed := true } }

theorem test_power_failure : (alive tstReady = true ∧ tstReady.pf.armed = true ∧ flushes tstReady = true) ∧ (alive tstFlushing = false ∧ tstFlushing.pf.flushAt = some 3) ∧
    flushes tstFlushing = true ∧ (tstRestored.dev.state = .powered ∧ tstRestored.pf.flushed = true ∧ tstRestored.side.switchClosed = true) ∧
    (tstReady.pf.flushed = false ∧ tstReady.pf.measured = false ∧ tstReady.dev.state = .ready) := by decide +kernel

/-- InputAndRailsFollowTheirRules: rails that rise, that have failed, a module that has tripped, and one that is locked out. -/
def tstOff (x : Sideband) : State := { tstReady with dev := { tstDev with state := .powered }, side := x }

theorem test_input_and_rails : (tstReady.side.switchClosed = true ∧ tstReady.pf.flushAt = none) ∧
    ((tstOff { switchClosed := false }).pf.flushed = false ∧ (tstOff { switchClosed := false }).side.powerOnDue = false ∧ (tstOff {}).dev.railsOffAt = none) ∧
    (tstOff { tripped := 2 }).side.tripped ≠ 0 ∧ (tstOff { lockout := true }).side.tripped = 0 ∧ railsRising (tstOff { powerOnDue := true, railTries := 2 }) = true ∧
    railsRising tstReady = false ∧ ((tstOff { railFault := true, railFaultAt := 5 }).side.lockout = false ∧ (tstOff { railFault := true, railFaultAt := 5 }).side.powerOnDue = false) := by
  decide +kernel

/-- ComponentsStartOrFail and SeaTrialDecides: a boot in TRIAL, established or on trial, and one in which all have reported. -/
def tstBooting (b : Boot) : State := { State.reset with boot := { b with loaded := true, images := State.reset.boot.images } }

def tstReported : State := tstBooting { mgmtUp := true, quaysUp := List.range 24, seqsUp := List.range 8 }

theorem test_components : starting (tstBooting {}) = true ∧ (tstBooting {}).boot.mgmtUp = false ∧ startLimit 0 = 3000000000 ∧ startLimit 1 = 200000000 ∧ startLimit 2 = 50000000 ∧
    7 < cranesOf (tstBooting {}).fixed.variant ∧ (tstBooting { wasTrial := true }).boot.wasTrial = true ∧ (tstBooting { quaysUp := [23] }).boot.quaysUp ≠ [] := by decide +kernel

theorem test_sea_trial : (starting tstReported = true ∧ allReported tstReported = true) ∧ dockOf (trialFaults tstReported tstFaults) = none ∧
    dockOf (trialFaults tstReported { tstFaults with srams := [7] }) = some (3, 2, 7) ∧ allReported (tstBooting {}) = false ∧
    (tstReported.dev.bankFull = false ∧ tstReported.dev.bankLate = false) ∧ { tstReported with dev := { tstReported.dev with bankLate := true } }.dev.bankLate = true ∧
    (alive tstReported = true ∧ tstReported.dev.trialPassed = false ∧ tstReported.dev.trialAt + 2000000000 ≤ max tstReported.now 2000000000) ∧
    (let s := { tstReported with dev := { tstReported.dev with trialPassed := true } }
     alive s = true ∧ s.dev.state = .trial ∧ s.dev.trialPassed = true ∧ s.dev.bankFull = false) := by decide +kernel

/-- MountingEndsInReady: with motion and without; namespace 1 is not mounted. -/
def tstMounting (m : Bool) : State := { tstReady with dev := { tstDev with state := .mounting, prev := .trial }, storm := { motion := m } }

theorem test_mounting : (∀ m, alive (tstMounting m) = true ∧ (tstMounting m).dev.state = .mounting) ∧ (tstMounting false).storm.power = false ∧ (tstMounting true).storm.motion = true ∧
    (1 : Nat) ∈ (tstMounting false).media.nss.map Namespace.nsid ∧ tstReady.dev.state ≠ .mounting := by decide +kernel

/-- DrainsAndResetsComplete: a drain in each stage, and rails that went off. -/
def tstDraining (r : Bool) (x : DrainStage) : State :=
  { tstReady with dev := { tstDev with state := .draining, prev := .ready, drain := some { thenReset := r, holdNs := 10, stage := x, since := 5, fromSideband := false } } }

theorem test_drains : (tstDraining true .holding).pf.flushAt = none ∧ 5 + 10 ≤ max (tstDraining true .holding).now 15 ∧ max (tstDraining true .holding).now 14 < 5 + 10 ∧
    (tstDraining true .holding).cmds.slots ≠ [] ∧ (∀ r x, ((tstDraining r x).dev.drain.map Drain.stage) = some x) ∧ tstReady.dev.drain = none ∧
    { tstReady with dev := { tstDev with resetSeal := some 3 } }.pf.flushAt = none ∧ { tstReady with dev := { tstDev with railsOffAt := some 5 } }.now = 0 := by
  refine ⟨by decide +kernel, by decide +kernel, by decide +kernel, by decide +kernel, ?_, rfl, rfl, rfl⟩
  intro r x
  rfl

/-- SidebandAnswersTransactions and SidebandRequestsAct: the words of a read of register 7 and of requests 1 to 4, and the states. -/
def tstSbWord (start rw reg value : Nat) : BitVec 24 :=
  let a := start * 16 + rw * 8 + reg
  BitVec.ofNat 24 (a * 65536 + value * 256 + crc8 [BitVec.ofNat 8 a, BitVec.ofNat 8 value])

def tstSbGood (w : BitVec 24) : Bool :=
  bits w.toNat 20 4 == 0xA && crc8 [BitVec.ofNat 8 (bits w.toNat 16 8), BitVec.ofNat 8 (bits w.toNat 8 8)] == bits w.toNat 0 8

theorem test_sideband_words : tstSbGood (tstSbWord 0xA 0 7 0) = true ∧ bits (tstSbWord 0xA 0 7 0).toNat 19 1 = 0 ∧ tstSbGood (tstSbWord 0xA 1 4 9) = true ∧
    bits (tstSbWord 0xA 1 4 9).toNat 16 3 = 4 ∧ tstSbGood (tstSbWord 0xB 0 7 0) = false ∧ tstSbGood (tstSbWord 0xA 0 7 0 ^^^ 1) = false ∧
    (∀ v ∈ [(1 : Nat), 2, 3, 4], tstSbGood (tstSbWord 0xA 1 3 v) = true ∧ bits (tstSbWord 0xA 1 3 v).toNat 19 1 = 1 ∧ bits (tstSbWord 0xA 1 3 v).toNat 16 3 = 3 ∧
      bits (tstSbWord 0xA 1 3 v).toNat 8 8 = v) := by decide +kernel

theorem test_sideband_states : sbIsBusy { tstReady with side := { busy := true } } = true ∧ sbIsBusy tstReady = false ∧ sbIsBusy (tstMounting false) = false ∧
    sbIsBusy (tstOff { drained := true }) = false ∧ (tstOff { drained := true }).side.lockout = false ∧ sbIsBusy { tstBraced with side := { pdPending := true } } = false ∧
    { tstBraced with side := { pdPending := true } }.dev.state = .braced := by decide +kernel

/-- TemperaturesAndTrips and InputPowerSteps: quay 23 hot enough to trip, and the input power above its limit. -/
def tstHot : State :=
  { tstReady with thermal := { sensors := [{ sensor := .quay 23, samples := [1760, 1760, 1760, 1760, 1760], step := 1, cool := [some 7] }], lowFrom := some 7, powerStep := 1 } }

theorem test_temperatures : (sensorExists (.quay 23) = true ∧ sensorExists (.quay 24) = false ∧ tstHot.dev.state ≠ .powered) ∧
    (sensorState tstHot (.quay 22)).fault = false ∧ max (sensorState tstHot (.quay 22)).lastAt tstHot.dev.trialAt + 10000000 ≤ max tstHot.now 10000000 ∧
    ((sensorState tstHot (.quay 23)).step = 1 ∧ (sensorState tstHot (.quay 23)).cool.getD 0 none = some 7) ∧ (sensorState tstHot .outlet).step = 0 ∧
    (tripOf (.quay 23) = some (1760, 1) ∧ filtered tstHot (.quay 23) = some 1760 ∧ tstHot.side.tripped = 0 ∧ tstHot.side.switchClosed = true ∧ tstHot.pf.flushAt = none) ∧
    (tripOf (.regulator 3) = some (2000, 4) ∧ filtered { tstReady with thermal := { sensors := [{ sensor := .regulator 3, samples := [1999] }] } } (.regulator 3) = some 1999) ∧
    tripOf .inlet = none := by decide +kernel

theorem test_input_power : tstReady.thermal.powerFault = false ∧ powerLimit tstReady = 1800 ∧ (powerLimit tstReady - 40) * 1 < 1761 ∧ tstReady.thermal.powerStep < 3 ∧
    max tstReady.thermal.lastPower tstReady.dev.trialAt + 1000000 ≤ max tstReady.now 1000000 ∧
    (tstHot.thermal.lowFrom = some 7 ∧ 0 < tstHot.thermal.powerStep ∧ tstHot.thermal.powerFault = false) ∧ tstReady.thermal.lowFrom = none := by decide +kernel

/-- HostPortsFollowTheirRules: port 7 down, port 0 up with address 10.0.0.1 in its IPv4 word. -/
def tstPorts : State :=
  { tstReady with
    net := { ports := List.replicate 7 tstPort ++ [{}] }
    regs := { State.reset.regs with portAddr := State.reset.regs.portAddr.set 0 (0x0A000001 ||| (1 <<< 32)) } }

theorem test_host_ports : (alive tstPorts = true ∧ tstPorts.dev.state ≠ .powered ∧ portInService tstPorts 7 = true ∧ (hostPort tstPorts 7).linkUp = false ∧
      (hostPort tstPorts 7).trySince + 500000000 ≤ max tstPorts.now 500000000 ∧ (hostPort tstPorts 7).trying = 400) ∧
    ((hostPort tstPorts 0).linkUp = true ∧ portUp tstPorts 0 = true ∧ portUp tstPorts 7 = false) ∧
    (portAnswers tstPorts 0 (linkLocal (portMac tstPorts 0)) = true ∧ isMapped (linkLocal (portMac tstPorts 0)) = false ∧ portAnswers tstPorts 0 5 = false) ∧
    (hostPort tstPorts 0).lldpAt + 30000000000 ≤ max tstPorts.now 30000000000 ∧
    ((bits tstPorts.regs.nimoxTransport.toNat 38 8).testBit 3 = true ∧ (bits tstPorts.regs.nimoxTransport.toNat 38 8).testBit 7 = false) := by decide +kernel

theorem test_ipv4_port : ipv4On tstPorts 0 = true ∧ portAddrBits tstPorts 0 0 32 = 0x0A000001 ∧ ipv4On tstPorts 1 = false := by decide +kernel

/-- WorkStartsAndEnds: LOGBOOK_READ takes nothing from the host, and starting it changes nothing else. -/
theorem test_work_of_its_own : (∀ s f, (cmdLogbookRead.uses s f).fetch = []) ∧ (∀ x y, cmdLogbookRead.start x y = x) ∧ ∀ x y, cmdLogbookRead.slow x y = true :=
  ⟨fun _ _ => rfl, fun _ _ => rfl, fun _ _ => rfl⟩

/-- ObservePortsCarryNoRdma: port 0 of class OBSERVE; QP_CREATE and the change of class are among the rows above. -/
def tstObserve : State := { tstReady with regs := { State.reset.regs with portClass := State.reset.regs.portClass.set 0 0 } }

theorem test_observe_port : portUp tstObserve 0 = true ∧ portClassOf tstObserve 0 = 0 ∧ getQp tstObserve 5 = some tstQp ∧ portUp tstReady 0 = true ∧ portClassOf tstReady 0 ≠ 0 := by
  decide +kernel

/-- RdmaRequestsAreServed: `tstPkt` writes into the region, up to its last byte; the other requests, and a port that is down. -/
def tstLastWrite : RdmaPkt := { tstPkt with offset := 65534 }

theorem test_rdma_requests :
    (getQp tstReady tstPkt.qpn = some tstQp ∧ tstQp.state = .rts ∧ tstQp.port = tstPkt.port ∧ tstReady.power.current ≠ 3 ∧
      -(hostBurst tstReady 0) ≤ hostLevel (setNow 0 tstReady) 0 0) ∧
    (tstLastWrite.op = .write ∧ tstLastWrite.psn = tstQp.recvPsn ∧ getRegion tstReady tstLastWrite.rkey = some tstRegion ∧ tstRegion.owner = .plain ∧ tstRegion.canWrite = true ∧
      tstLastWrite.offset + tstLastWrite.data.length = tstRegion.length ∧ tstReady.mem.poisoned = []) ∧
    (tstRegion.canRead = true ∧ { tstLastWrite with op := .read }.offset + { tstLastWrite with op := .read }.length ≤ tstRegion.length) ∧
    (getRegion tstReady 0x999 = none ∧ ∀ v ∈ tstReady.vaults, v.send.state = .off) ∧ getQp tstReady 6 = none ∧
    (8 ≠ tstQp.recvPsn ∧ ((8 : BitVec 24) - tstQp.recvPsn).toNat < 2 ^ 23) ∧ portUp tstPorts 7 = false := by decide +kernel

/-- RdmaRequesterFollowsItsPeer: a WRITE and a READ that are outstanding, the READ for a command that awaits two references. -/
def tstWriteReq : QpRequest := { psn := 3, isRead := false, cmd := 1, ref := 0, rkey := 9, va := 0, len := 2, data := [1, 2], imm := none }
def tstReadReq : QpRequest := { psn := 4, isRead := true, cmd := 1, ref := 0, rkey := 9, va := 0, len := 2, data := [], imm := none }

def tstRequester (l : List QpRequest) (retries : Nat) : State :=
  { tstReady with
    cmds := { nextId := 3, active := [{ tstRead 1 3 with awaiting := [0, 1] }] }
    rdma := { qps := [{ tstQp with requests := l, retries := retries, rateMbps := 1000 }] } }

theorem test_rdma_requester :
    ((liveQp (tstRequester [tstWriteReq] 0) 5).isSome = true ∧ psnUpTo (lastPsn tstQp tstWriteReq) 3 = true ∧ psnUpTo (lastPsn tstQp tstWriteReq) 2 = false) ∧
    (readHead [tstReadReq] = some (tstReadReq, []) ∧ tstReadReq.len = ([7, 8] : Bytes).length ∧ getActive (tstRequester [tstReadReq] 0) 1 = some { tstRead 1 3 with awaiting := [0, 1] } ∧
      ([0, 1] : List Nat).filter (fun x => x != tstReadReq.ref) ≠ []) ∧
    (NakCode.remoteAccess ≠ .sequenceError ∧ packetsOf tstQp.mtu tstWriteReq.len ≤ 2 ^ 23 ∧ 2 < tstQp.retryCnt ∧ tstQp.retryCnt = 3) ∧
    (ecnReact tstReady = true ∧ ecnReact { tstReady with regs := { State.reset.regs with nimoxTransport := 0 } } = false) ∧
    (tstQp.timerAt + 4096 * 2 ^ tstQp.ackTimeout ≤ max tstReady.now 4096 ∧ tstQp.lastCnpIn + 55000 ≤ max tstReady.now 55000 ∧ 1000 < (hostPort tstReady 0).gbps * 1000) ∧
    getQp tstReady 6 = none ∧ (getQp (tstRequester [tstWriteReq] 3) 5).map Qp.retries = some 3 := by decide +kernel

/-- NetworkTimeFollowsItsMaster: no master yet, and one that is followed, with a Sync and a Delay_Req outstanding. -/
def tstMaster : Master := { port := 0, master := 1, priority := 0, interval := 1000000000, last := 0 }

def tstClocked (c : Clock) : State := { tstReady with clock := c, boot := { State.reset.boot with mgmtUp := true } }

def tstFollowing (st : TimeState) (good : Nat) (delay : Nat) : State :=
  tstClocked { state := st, selected := some tstMaster, masters := [tstMaster], good := good, lastSync := some (0, delay), syncs := [(1, 0)], delayReqs := [(1, 0)] }

theorem test_network_time :
    clockRuns tstReady = false ∧ (clockRuns (tstClocked {}) = true ∧ ptpAccepts (tstClocked {}) tstPtp = true ∧ fromMaster (tstClocked {}) tstPtp = false) ∧
    ptpAccepts (tstClocked {}) { tstPtp with version := 1 } = false ∧ (fromMaster (tstFollowing .acquiring 0 0) tstPtp = true ∧ ptpAccepts (tstFollowing .acquiring 0 0) tstPtp = true) ∧
    (max (tstFollowing .acquiring 0 0).now 100000000 ≤ 0 + 100000000 ∧ ∀ x ∈ (tstFollowing .acquiring 0 0).clock.syncs, x.1 = tstPtp.seqId → x.2 + 100000000 < max 0 100000001) ∧
    ((tstFollowing .acquiring 15 100000).clock.lastSync = some (0, 100000) ∧ (((100000 : Int) + 0 - 0) + ((100000 : Int) - 0)) / 2 = 100000 ∧
      (((100000 : Int) + 0 - 0) - ((100000 : Int) - 0)) / 2 = 0 ∧ ((0 : Int) - (tstFollowing .acquiring 15 100000).clock.servo).natAbs ≤ 200 ∧
      (tstFollowing .acquiring 15 100000).clock.lockedOnce = false) ∧
    (∀ y ∈ (tstFollowing .locked 15 0).clock.masters, y.last + 3 * y.interval < max 0 3000000001) ∧
    (tstFollowing .locked 15 0).clock.lastGood + ptpBits (tstFollowing .locked 15 0) 32 16 * 1000000 ≤ max 0 1000000000 ∧
    ((tstClocked {}).clock.lastPps < ptpNow (setNow 1000000000 (tstClocked {})) / 1000000000 ∧ ptpNow (setNow 999999999 (tstClocked {})) / 1000000000 ≤ (tstClocked {}).clock.lastPps) := by
  decide +kernel

/-- TideWindowsAndGrants: a window of crane 0 for B0 in the first 1,000 ns of each second, and B0's PLAN_RUN. -/
def tstEntry (back : Bool) : TideEntry :=
  { start := 0, length := 1000, owner := 0, backfill := back, vaultSlot := false, quiet := false, cranes := 1, quays := 0, guardNs := 0 }

def tstTide (now : Nat) (opened : List Nat) (work : Bool) (grants : List (Engine × Nat × Nat)) : State :=
  { tstReady with
    now := now
    tide := { active := { entries := [tstEntry false] }, openWin := opened }
    eng := { grants := grants }
    cmds := { nextId := 9, active := if work then [{ tstRead 1 3 with opcode := 0x0305 }] else [] } }

theorem test_tide :
    ((0 : Nat) ∈ openWindows (tstTide 0 [] true []).tide.active (ptpNow (setNow 0 (tstTide 0 [] true []))) ∧
      (0 : Nat) ∈ openWindows (tstTide 0 [] true []).tide.active (ptpNow (setNow 999 (tstTide 0 [] true []))) ∧
      (0 : Nat) ∉ openWindows (tstTide 0 [0] true []).tide.active (ptpNow (setNow 1000 (tstTide 0 [0] true [])))) ∧
    engineStopped (tstTide 0 [0] true []) (.crane 0) = false ∧
    (slotOf (tstTide 0 [0] true []) (.crane 0) = some (0, tstEntry false) ∧ readyFor (tstTide 0 [0] true []) (.crane 0) 0 = true ∧
      readyFor (tstTide 0 [0] false []) (.crane 0) 0 = false) ∧
    (slotOf (tstTide 0 [] true []) (.crane 0) = none ∧ grantOf (tstTide 0 [] true []) (.crane 0) = none ∧ nextBerth (tstTide 0 [] true []) (.crane 0) 15 = some 0) ∧
    (grantOf (tstTide 0 [] true [(.crane 0, 0, 0)]) (.crane 0) = some (0, 0) ∧ turnWeight tstReady 0 = 1 ∧ readyFor (tstTide 0 [] true []) (.crane 0) 0 = true) ∧
    engineStopped { tstReady with thermal := { powerStep := 3 } } (.crane 7) = true ∧ alive (tstTide 0 [] true []) = true := by decide +kernel

/-- PagesAndBlocksFollowTheirOperations: a clean page, `tstPage` with a lost codeword of namespace 1, a buffered block, a superblock to erase. -/
def tstSb (no erases : Nat) (u : SbUse) : Superblock := { no := no, pslc := false, use := u, erases := erases, hadDeleted := true }

def tstMedia (st : DevState) : State :=
  { tstReady with
    dev := { tstDev with state := st }
    eng := { wbuf := [{ nsid := 1, lba := 0, data := some (zeros 4096), cmd := 1 }] }
    media := { tstReady.media with quays := { sbs := [tstSb 3 0 .full, tstSb 4 0 .inCheckpoint, tstSb 5 401 .erased], dieTimeouts := [(31, 2)] } :: List.replicate 23 {} } }

theorem test_pages_and_blocks : alive (tstMedia .ready) = true ∧ nsQuay 1 0 = 1 ∧ (0 : Nat) < (tstMedia .ready).media.quays.length ∧ tstPage.failed ≠ [] ∧
    (sbOf (getQuayMedia (tstMedia .ready) 0) 4).use = .inCheckpoint ∧ (sbOf (getQuayMedia (tstMedia .ready) 0) 3).use ≠ .inCheckpoint ∧ (tstMedia .braced).dev.state = .braced ∧
    (getQuayMedia (tstMedia .ready) 0).dieTimeouts.find? (fun x => x.1 == 31) = some (31, 2) ∧ (getQuayMedia (tstMedia .ready) 0).dieTimeouts.find? (fun x => x.1 == 30) = none ∧
    (tstMedia .ready).eng.wbuf.length = 1 ∧ tstProg.ok = true ∧ tstReady.cmds.active = [] := by decide +kernel

/-- MediaLooksAfterItself: the clauses' conditions on `tstMedia` and its variants. -/
def tstManyFwds : State := { tstMedia .ready with media := { (tstMedia .ready).media with fwds := List.replicate 262144 tstFwd } }

def tstTraining (k : Nat) : State := { tstReady with eng := { quays := { link := .training k 5 } :: List.replicate 23 {} } }

/-- A vault that leaves few superblocks erased, and superblock 1364 worn by 201 erases more than number 3. -/
def tstWorn : State :=
  { tstMedia .ready with
    vaults := [{ tstVault with pslc := 1346 * tstVault.pslc }]
    media := { (tstMedia .ready).media with holds := [], quays := { sbs := [tstSb 3 0 .full, tstSb 1364 201 .erased] } :: List.replicate 23 {} } }

theorem test_media_care : ((0 : Nat) < (tstMedia .ready).eng.quays.length ∧ quayLost (tstWorn) 0 = false ∧ quietOn tstWorn 0 = false ∧ tstWorn.power.current ≤ 1 ∧
      dredgeMode tstWorn 0 = 2 ∧ dredgeable tstWorn 0 ≠ []) ∧
    (mediaCtl tstWorn 32 12 = 200 ∧ eraseMax (getQuayMedia tstWorn 0) - eraseMin (getQuayMedia tstWorn 0) = 201 ∧ leastErased (getQuayMedia tstWorn 0) = some (tstSb 3 0 .full) ∧
      mostErased (getQuayMedia tstWorn 0) = some (tstSb 1364 201 .erased) ∧ runsOn tstWorn 0 3 = []) ∧
    ((getQuayMedia tstReady 0).targetAt + 60000000000 ≤ max 0 60000000000 ∧ tstReady.media.ckpt.atLocal + mediaCtl tstReady 80 8 * 1000000000 = 60000000000 ∧
      tstReady.media.volume < mediaCtl tstReady 88 8 * 2 ^ 30) ∧
    (getHold (tstMedia .ready) 1 = some (tstHold 1 4096 true) ∧ (tstHold 1 4096 true).runs[0]? = some tstRun ∧ causeHolds (tstMedia .ready) (tstHold 1 4096 true) tstRun .deletedHolds = true ∧
      (getHold (tstMedia .ready) 3).map Hold.isSealed = some false ∧ (tstMedia .ready).media.fwds.length < 262144) ∧
    (forwardFor tstReady 1 77 = some tstFwd ∧ forwardFor tstReady 1 78 = none ∧ tstFwd.born + dayNs ≤ serviceNs (setNow dayNs tstReady) ∧
      tstFwd.lastSent + mediaCtl tstReady 48 16 * 1000000000 ≤ max 0 10000000000) ∧
    (∀ k ∈ [(1 : Nat), 3], (getQuay (tstTraining k) 0).link = .training k 5) ∧ (getQuay tstReady 0).link = .up ∧
    (getIndex tstReady 1 = some tstIndex ∧ tstIndex.state ≠ .offline) := by decide +kernel

theorem test_full_forwarding_table : 262144 ≤ tstManyFwds.media.fwds.length := by
  unfold tstManyFwds
  exact Nat.le_of_eq List.length_replicate.symm

/-- The refresh of the run's superblock is due. -/
theorem test_refresh_due : causeHolds { tstReady with media := { quays := [{ sbs := [{ tstSb 3 0 .full with refreshDue := true }] }] } } (tstHold 1 4096 true) tstRun .refresh = true := by
  decide +kernel

/-- VaultEventsComplete: a vault that consolidates, one with records that have come, and one that sends. -/
def tstBareTensor : Tensor := { name := 1, bytes := 0, offset := 0, rowBytes := 0, mode := 1, form := 1, fmt := 0 }

def tstTensor : Tensor := { tstBareTensor with digest := tensorDigest tstBareTensor }

/-- Checkpoint 3 stores nothing yet, or one MiB of which quay 3 holds its part. -/
def tstConsVault (stored : Nat) (running : Bool) : Vault :=
  { tstVault with ckpts := [{ tstCkpt 3 .captured with tensors := [tstTensor], stored := stored }], consRunning := if running then some (3, 0) else none }

/-- The checkpoint's media is there, or every quay is lost. -/
def tstCons (stored : Nat) (running lost : Bool) : State :=
  { tstReady with vaults := [tstConsVault stored running], eng := if lost then { quays := List.replicate 24 { link := .lost } } else {} }

theorem test_vault_consolidation : (getVault tstReady 1 = none ∧ getVault tstReady 0 = some tstVault ∧ tstVault.send.state = .off ∧ ∀ q < 24, quietOn tstReady q = false) ∧
    (tstVault.consRunning = none ∧ consDue (setNow 0 tstReady) tstVault = false ∧ vaultCtl tstReady 0 64 16 * 1000000000 = 3600000000000 ∧
      consDue (setNow 3600000000000 tstReady) tstVault = true ∧ (newestCaptured tstVault none).map Ckpt.id = some 3) ∧
    ((tensorFault (tstCons 1 true true) (tstConsVault 1 true) { tstCkpt 3 .captured with tensors := [tstTensor], stored := 1 } tstTensor).isSome = true ∧
      newestCaptured (tstConsVault 1 true) (some 3) = none) := by
  decide +kernel

/-- A tensor with its own digest has no fault. -/
theorem test_vault_sound_tensor : tensorFault (tstCons 0 true false) (tstConsVault 0 true) { tstCkpt 3 .captured with tensors := [tstTensor] } tstTensor = none := by
  have h : tensorLost (tstCons 0 true false) (tstConsVault 0 true) { tstCkpt 3 .captured with tensors := [tstTensor] } tstTensor = none := by decide +kernel
  have hd : tensorDigest tstTensor = tstTensor.digest := rfl
  simp [tensorFault, h, hd, need]

def tstReplVault (todo : List (Nat × Bytes)) (send : ReplSend) : State :=
  { tstReady with
    vaults := [{ tstVault with lastBegin := some (7, 0), recv := some { qpn := 5, lastQpn := 5, ackRkey := 9, todo := todo }, send := send }]
    rdma := { qps := [tstQp], regions := [{ tstRegion with rkey := 0x300, owner := .ackArea, index := 2 }], side := [(0, 2, [(0, 1), (8, 4)])] } }

def tstSend (retry : Option Nat) (st : ReplState) : ReplSend :=
  { state := st, qpn := 5, ackRkey := 0x300, current := some 4, retryAt := retry }

/-- B0 with ALIGN set, steps of 1 ms and a bound of 5 of them. -/
def tstAligned : State :=
  { tstReady with berths := { tstBerth .moored with regs := { (tstBerth .moored).regs with vaultControl := (1 <<< 48) ||| (1000 <<< 16) ||| 5 } } :: List.replicate 15 {} }

theorem test_vault_replication :
    ((headRecord (tstReplVault [(1, zeros 4)] {}) 0 1).isSome = true ∧ (headRecord (tstReplVault [(2, zeros 32)] {}) 0 2).isSome = true ∧
      (headRecord (tstReplVault [(3, zeros 4)] {}) 0 3).isSome = true ∧ headRecord tstReady 0 1 = none) ∧
    (getVault (tstReplVault [(3, zeros 4)] {}) 0).bind (fun v => v.recv.map (fun r => (buildReplica (tstReplVault [(3, zeros 4)] {}) 0 v r).isLeft)) = some true ∧
    (getVault (tstReplVault [] (tstSend none .sending)) 0).bind (ackRegion (tstReplVault [] (tstSend none .sending))) =
      some { tstRegion with rkey := 0x300, owner := .ackArea, index := 2 } ∧
    getLE (memRead (sideMem (tstReplVault [] (tstSend none .sending)) 0 2) 0 8) 0 8 = 1 ∧ getLE (memRead (sideMem (tstReplVault [] (tstSend none .sending)) 0 2) 8 16) 0 4 = 4 ∧
    qpRts tstReady 5 = true ∧ qpRts tstReady 6 = false ∧
    ((tstSend none .sending).progressAt + vaultCtl tstReady 0 50 8 * 1000000000 ≤ max 0 30000000000 ∧ (tstSend (some 3) .down).altQpn = 0) ∧
    (vaultCtl tstAligned 0 48 1 ≠ 0 ∧ vaultCtl tstAligned 0 16 32 = 1000 ∧ vaultCtl tstAligned 0 0 16 = 5 ∧ (vaultSlotAt tstAligned 0 (captureDueAt tstAligned 0 tstVault 0)).isNone = true ∧
      captureDueAt tstAligned 0 tstVault 0 = 5000000) := by decide +kernel

/-! ### Witnesses for hawser frames and links, and the scrub -/

/-- Module 0 with a flow from module 1 at it, one of its own that waits, work of command 1 that awaits module 1, and an unacknowledged frame. -/
def tstFlow (frames : List Nat) : Flow := { src := 1, flow := 5, berth := 0, offset := 64, bytes := 4, frames := frames }

def tstCollected : Active := { tstRead 1 3 with opcode := 0x0810, hawser := true }

def tstLinked (h : HawserPort) (frames : List Nat) : State :=
  { tstFleet with
    hawser := { tstFleet.hawser with
      ports := h :: List.replicate 5 {}, flows := [tstFlow frames], txFlows := [{ flow := 6, dest := 1, berth := 0, data := [1], cmd := 1 }]
      works := [{ cmd := 1, waiting := [1] }] }
    cmds := { tstFleet.cmds with active := [tstCollected] }
    storm := { peers := [{ module := 2, last := 0 }] } }

def tstUp : HawserPort := { state := .up, lanes := 8, peerModule := 1, signal := true, linked := true }

def tstRxOf (f : HFrame) : HawserRx := { port := 0, fecOk := true, bytes := f.bytes }

def tstMsg (l : List (Nat × Nat)) : HFrame := { typ := 2, vl := 0, src := 1, last := true, payload := tstBlock l }

/-- A built frame's CRC verifies. -/
theorem tst_crc_bit (c : Nat) (h : c < 2 ^ 32) : crcBit 0x82F63B78 c < 2 ^ 32 := by
  have h2 : c / 2 < 2 ^ 32 := Nat.lt_of_le_of_lt (Nat.div_le_self c 2) h
  unfold crcBit
  split
  · exact Nat.xor_lt_two_pow h2 (by decide)
  · exact h2

theorem tst_crc_fold : ∀ (l : Bytes) (c : Nat), c < 2 ^ 32 → l.foldl (crcByte 0x82F63B78) c < 2 ^ 32
  | [], _, h => h
  | b :: l, c, h => by
    refine tst_crc_fold l _ ?_
    have hb : c ^^^ b.toNat < 2 ^ 32 := Nat.xor_lt_two_pow h (Nat.lt_trans b.isLt (by decide))
    unfold crcByte
    exact tst_crc_bit _ (tst_crc_bit _ (tst_crc_bit _ (tst_crc_bit _ (tst_crc_bit _ (tst_crc_bit _ (tst_crc_bit _ (tst_crc_bit _ hb)))))))

theorem tst_crc (f : HFrame) (h : f.payload.length ≤ 992) : frameCrcOk f.bytes = true := by
  unfold HFrame.bytes
  generalize hb : toLE 1 f.typ ++ toLE 1 f.vl ++ toLE 2 f.payload.length ++ toLE 2 f.seqNo ++ toLE 2 f.ack ++ toLE 1 f.crVl ++ toLE 1 f.crCount ++ toLE 2 f.dest ++
    toLE 2 f.src ++ toLE 2 f.hops ++ toLE 4 f.flow ++ toLE 4 f.frameNo ++ toLE 1 (f.last.toNat + 2 * f.nak.toNat + 4 * f.shared.toNat) ++ zeros 3 ++ padTo 992 f.payload = b
  have hl : b.length = 1020 := by
    rw [← hb]
    simp only [List.length_append, toLE_length, zeros, padTo, List.length_replicate]
    omega
  have hc : crc32c b < 2 ^ 32 := Nat.xor_lt_two_pow (tst_crc_fold b _ (by decide)) (by decide)
  have ht : (b ++ toLE 4 (crc32c b)).take 1020 = b := by
    rw [← hl]
    exact List.take_left
  have hg : getLE (b ++ toLE 4 (crc32c b)) 1020 4 = crc32c b := by
    rw [getLE_append b _ 1020 4 (Nat.le_of_eq hl), hl]
    have := getLE_toLE 4 (crc32c b) []
    rw [List.append_nil] at this
    rw [show 1020 - 1020 = 0 from rfl, this]
    exact Nat.mod_eq_of_lt hc
  simp only [frameCrcOk]
  rw [ht, hg, List.length_append, toLE_length, hl]
  simp

theorem tst_takes {f : HFrame} {s : State} (hp : f.payload.length ≤ 992)
    (h : let g := readFrame f.bytes
      let h := hawserPort s 0
      alive s = true ∧ 0 < s.hawser.ports.length ∧ carries h.state = true ∧ frameBad f.bytes = false ∧ isIdent g = false ∧ g.typ ≠ 0 ∧ h.rxNext.toNat = g.seqNo ∧ h.txq = [] ∧
        h.replay = [] ∧ g.crCount = 0 ∧ g.nak = false) : HawserTakes (tstRxOf f) s :=
  ⟨h.1, Nat.zero_lt_succ 5, h.2.1, h.2.2.1, rfl, tst_crc f hp, h.2.2.2⟩

theorem test_hawser_idle :
    (let r : HFrame := { typ := 0, vl := 31, ack := 7, crVl := 31 }
     let f := readFrame r.bytes
     frameCrcOk r.bytes = true ∧ frameBad r.bytes = false ∧ f.typ = 0 ∧ f.nak = false ∧
      (hawserPort (tstLinked { tstUp with replay := [(6, []), (7, [])] } []) 0).replay.findIdx? (fun x => x.1 == BitVec.ofNat 16 f.ack) = some 1) ∧
    (alive tstFleet = true ∧ carries tstUp.state = true ∧ tstUp.nakDone = false ∧ listens (hawserPort tstFleet 5) = false) ∧ frameBad (HFrame.bytes { typ := 4, vl := 0 }) = true := by
  refine ⟨⟨tst_crc _ (by decide), ?_⟩, ?_⟩ <;> decide +kernel

/-- HawserFramesAreTaken: DATA for the flow, for a complete one, and for none. -/
def tstData (flow : Nat) : HFrame := { typ := 1, vl := 0, src := 1, flow := flow, payload := zeros 4 }

theorem test_hawser_data : HawserTakes (tstRxOf (tstData 5)) (tstLinked tstUp []) ∧ HawserTakes (tstRxOf (tstData 4)) (tstLinked tstUp []) ∧
    HawserTakes (tstRxOf (tstData 5)) (tstLinked tstUp [0]) ∧ moduleNo tstFleet = 0 ∧ (readFrame (tstData 5).bytes).dest = 0 ∧
    (findFlow (tstLinked tstUp []) 1 5 = some (tstFlow []) ∧ flowComplete (tstFlow []) = false ∧ flowComplete (tstFlow [0]) = true) ∧
    findFlow (tstLinked tstUp []) 1 4 = none := by
  refine ⟨tst_takes (by decide) ?_, tst_takes (by decide) ?_, tst_takes (by decide) ?_, ?_⟩ <;> decide +kernel

/-- FLOW_OPEN of flow 7, FLOW_ACK of flow 6 and of none, TOPO of module 2 and of a version that is held. -/
theorem test_hawser_messages :
    HawserTakes (tstRxOf (tstMsg [(2, 3), (4, 7), (1, 0), (3, 0), (8, 64), (8, 4)])) (tstLinked tstUp []) ∧ HawserTakes (tstRxOf (tstMsg [(2, 4), (4, 6)])) (tstLinked tstUp []) ∧
    HawserTakes (tstRxOf (tstMsg [(2, 2), (2, 2), (18, 0), (2, 1)])) (tstLinked tstUp []) ∧
    openFlows (tstLinked tstUp []) < 4096 ∧ (tstLinked tstUp []).hawser.partialMsg = [] ∧
    (tstLinked tstUp []).hawser.txFlows.any (fun x => x.flow == 6 && x.dest == 1) = true ∧
    (tstLinked tstUp []).hawser.txFlows.find? (fun x => x.flow == 5 && x.dest == 1) = none ∧
    newerTopo (tstLinked tstUp []) 2 1 = true ∧ newerTopo (tstLinked tstUp []) 1 1 = false := by
  refine ⟨tst_takes (by decide) ?_, tst_takes (by decide) ?_, tst_takes (by decide) ?_, ?_⟩ <;> decide +kernel

/-- WORK of an ALL_REDUCE for module 0, and the RESULT of module 1 for command 1's tag. -/
def tstMemberPart : Bytes := tstBlock [(2, 0), (2, 4), (4, 0), (2, 0), (2, 1), (2, 0), (2, 0), (4, 0), (4, 0x101), (8, 0)]

def tstWork : HFrame :=
  { typ := 2, vl := 0, src := 1, last := true, payload := tstBlock [(2, 5), (2, 0x0810), (4, 9)] ++ (tstCollective 1).params ++ tstMemberPart }

theorem test_hawser_work : HawserTakes (tstRxOf tstWork) (tstLinked tstUp []) ∧ HawserTakes (tstRxOf (tstMsg [(2, 6), (4, 1), (40, 0)])) (tstLinked tstUp []) ∧
    memberRefuse cmdCollective (hawserTaken 0 (tstRxOf tstWork) (tstLinked tstUp [])) (memberFrame 0 cmdCollective (readFrame tstWork.bytes).payload) = none ∧
    getWork (tstLinked tstUp []) 1 = some { cmd := 1, waiting := [1] } ∧ tstCollected.frame.tag.toNat = 1 ∧
    isSuccess (readBlock ((tstMsg [(2, 6), (4, 1), (40, 0)]).payload.drop 6)).status = true := by
  refine ⟨tst_takes (by decide) ?_, tst_takes (by decide) ?_, ?_⟩ <;> decide +kernel

/-- ANNOUNCE number 3 of module 1, in a module that already has a peer in BRACE. -/
def tstAnnounce : HFrame := { typ := 3, vl := 31, src := 1, payload := tstBlock [(4, 3), (2, 0), (1, 1), (1, 1)] }

theorem test_hawser_announce : HawserTakes (tstRxOf tstAnnounce) (tstLinked tstUp []) ∧ (1, 3) ∉ (tstLinked tstUp []).hawser.seenAnn ∧
    getLE (readFrame tstAnnounce.bytes).payload 6 1 = 1 ∧ getLE (readFrame tstAnnounce.bytes).payload 7 1 % 4 ≠ 0 ∧ peerEn tstFleet = true ∧ (tstLinked tstUp []).storm.peers ≠ [] := by
  refine ⟨tst_takes (by decide) ?_, ?_⟩ <;> decide +kernel

/-- IDENT of a module of fleet 9, seen for the first and for the second time. -/
def tstIdent : Bytes := tstBlock [(2, 1), (2, 1), (4, 9), (1, 0), (2, 0), (1, 1), (20, 0)]

theorem test_hawser_ident :
    (let r : HFrame := { typ := 2, vl := 31, last := true, payload := tstIdent }
     frameCrcOk r.bytes = true ∧ frameBad r.bytes = false ∧ isIdent (readFrame r.bytes) = true ∧ padTo 32 (readFrame r.bytes).payload = tstIdent) ∧
    identValid tstIdent = true ∧ getLE tstIdent 4 4 ≠ fleetId tstFleet ∧
    (∀ l ∈ [none, some tstIdent], (hawserPort (tstLinked { state := .training, step := 4, lastIdent := l } []) 0).lastIdent = l) := by
  refine ⟨⟨tst_crc _ (by decide), ?_⟩, ?_⟩ <;> decide +kernel

/-- HawserLinksTrainAndFail: each clause's port. -/
def tstTrain (step failures : Nat) : HawserPort := { state := .training, step := step, stepAt := 5, failures := failures, signal := true }

theorem test_hawser_links :
    ({ tstUp with replay := [(6, [])] }.replay ≠ [] ∧ { tstUp with replay := [(6, [])] }.ackAt + 10000 ≤ max 0 10000) ∧
    (mayTrain (tstLinked {} []) 0 = true ∧ (hawserPort (tstLinked {} []) 0).state = .absent ∧ (hawserPort (tstLinked {} []) 0).signal = false) ∧
    (mayTrain tstReady 0 = false) ∧ ((tstTrain 2 0).stepAt + stepTimeout 2 = 20000005 ∧ (tstTrain 3 1).stepAt + stepTimeout 3 = 2000005 ∧ (tstTrain 4 2).stepAt + stepTimeout 4 = 1000005) ∧
    ((hawserPort (tstLinked { state := .down, signal := true } []) 0).stepAt + 10000000000 ≤ max 0 10000000000 ∧ mayTrain (tstLinked { state := .down, signal := true } []) 0 = true) ∧
    (mayTrain (tstLinked { state := .foreign, lastIdent := some tstIdent } []) 0 = true ∧ getLE tstIdent 4 4 ≠ fleetId (tstLinked { state := .foreign } [])) ∧
    (tstUp.signal = true ∧ tstUp.state ≠ .absent ∧ tstUp.state ≠ .down) ∧ alive (tstLinked {} []) = true := by decide +kernel

/-- ScrubFindsAndRewritesErrors: a word of the I/O die's SRAM, sound and poisoned. Whether a word holds state of management firmware is free, so
one of the two clauses on it is met. -/
def tstWord : SramWord := { unit := 3, index := 0, address := 64 }

theorem test_scrub : (alive tstReady = true ∧ tstReady.dev.state = .ready ∧ tstReady.power.current ≠ 3 ∧ isUnit tstReady 3 0 = true ∧ isUnit tstReady 3 1 = false) ∧
    wordPlace tstWord ∉ tstReady.mem.poisoned ∧ wordPlace tstWord ∈ ({ poisoned := [wordPlace tstWord] } : MemHealth).poisoned ∧ tstReady.dev.resetSeal = none := by decide +kernel

theorem test_scrub_word : Config.mgmtState (wordPlace tstWord) = true ∨ Config.mgmtState (wordPlace tstWord) = false := by
  cases Config.mgmtState (wordPlace tstWord)
  · exact Or.inr rfl
  · exact Or.inl rfl

end
end

namespace Sys2Proof.Machine

/-! PROOFS. Nimox commands: the refusals of a result-producing command's slot (R47, R48), commands that complete in the step in
which they start (R42), and ports of class OBSERVE (R46). -/

/-! ### Lists of checks -/

@[simp] theorem firstSome_none_cons {α : Type} (l : List (Option α)) : firstSome (none :: l) = firstSome l := rfl

theorem firstSome_eq_none {α : Type} {l : List (Option α)} : firstSome l = none ↔ ∀ x ∈ l, x = none := by
  simp [firstSome, List.findSome?_eq_none_iff]

@[simp] theorem need_true (r : Refuse) : need true r = none := rfl

theorem need_eq_none {ok : Bool} {r : Refuse} : need ok r = none ↔ ok = true := by
  simp [need]

/-! ### Up to admission, whatever admission answers -/

theorem counted_of_eq (t : Nat) (f : Frame) (s : State) :
    hostCharge f.berth f.port (32 + (f.params.length + f.payload.length))
      (modPortStats f.port (fun p => { p with framesIn := satAdd 64 p.framesIn 1 }) (setNow t s)) = counted t f s := rfl

/-- A command whose bytes fit one fragment arrives as one datagram (R27). -/
theorem fragments_eq_one {n : Nat} {s : State} (h : n ≤ fragUnit s) : max 1 (ceilDiv n (fragUnit s)) = 1 := by
  have hpos : 0 < fragUnit s := by unfold fragUnit; split <;> decide
  have hone : ceilDiv n (fragUnit s) ≤ 1 := by
    rw [ceilDiv, ← Nat.lt_succ_iff, Nat.div_lt_iff_lt_mul hpos]
    omega
  omega

/-- A sequenced command in order goes to admission and nothing follows it, one that is not sequenced goes there at once (R35). -/
theorem submit_inOrder {op t : Nat} {f : Frame} {s : State} (hu : f.urgent = false) (ho : InOrder t f s) :
    submit op f (counted t f s) = settled t f s (admitCommand op f (sequenced t f s) (atAdmission t f s)) := by
  unfold submit settled atAdmission
  rw [if_neg (by simp [hu])]
  cases hs : sequenced t f s with
  | true =>
    obtain ⟨hseq, hheld⟩ := ho hs
    have hd : (f.seq - (getQueue (counted t f s) f.berth f.queue).expected).toNat = 0 := by simp [hseq]
    rw [if_pos (show sequencedNow (counted t f s) f = true from hs)]
    simp only [sequence, hd, inOrder, hheld, List.length_nil, followers, if_true]
  | false =>
    rw [if_neg (by rw [show sequencedNow (counted t f s) f = false from hs]; simp)]
    rfl

/-- A command that arrives in order meets steps 5 to 13 in the state `atAdmission`. -/
theorem runCommand_admit {op t : Nat} {f : Frame} {s : State} (ha : Arrives op t f s) (ho : InOrder t f s) :
    runCommand op t f s = settled t f s (admitCommand op f (sequenced t f s) (atAdmission t f s)) := by
  obtain ⟨hup, hhead, hurgent, hlen⟩ := ha
  have hone : max 1 (ceilDiv (f.params.length + f.payload.length) (fragUnit (setNow t s))) = 1 := fragments_eq_one hlen
  simp only [runCommand, hup, hone, hhead, Nat.mul_one, if_true, counted_of_eq]
  exact submit_inOrder hurgent ho

/-! ### A refusal at admission -/

/-- A command that a check of steps 5 to 13 refuses is answered with that refusal. -/
theorem runCommand_refused {sp : CmdSpec} {t : Nat} {f : Frame} {s : State} {x : Refuse} (hop : specOf sp.opcode = some sp)
    (ha : Arrives sp.opcode t f s) (ho : InOrder t f s) (hx : admissionChecks sp (atAdmission t f s) f = some x) :
    runCommand sp.opcode t f s = settled t f s (answer sp.opcode f (sequenced t f s) x.1 x.2 [] [] (atAdmission t f s)) := by
  rw [runCommand_admit ha ho]
  simp only [admitCommand, hop, hx]

@[simp] theorem atAdmission_pf (t : Nat) (f : Frame) (s : State) : (atAdmission t f s).pf = s.pf :=
  atAdmission_split t f s (fun x => x.pf = s.pf) rfl (fun _ => rfl)

@[simp] theorem atAdmission_regs (t : Nat) (f : Frame) (s : State) : (atAdmission t f s).regs = s.regs :=
  atAdmission_split t f s (fun x => x.regs = s.regs) rfl (fun _ => rfl)

@[simp] theorem atAdmission_logbook (t : Nat) (f : Frame) (s : State) : (atAdmission t f s).logbook = s.logbook :=
  atAdmission_split t f s (fun x => x.logbook = s.logbook) rfl (fun _ => rfl)

theorem atAdmission_portUp (t n : Nat) (f : Frame) (s : State) : portUp (atAdmission t f s) n = portUp s n := by
  have hport := (atAdmission_places t f s).2.1 n
  unfold portUp
  rw [hport, atAdmission_dev, atAdmission_pf]

/-- An answer at admission goes out through the command's port, which is up, and accepts nothing. -/
theorem answered_at_admission {op t : Nat} {f : Frame} {s : State} {st : Nat} {d : Detail} (hup : portUp s f.port = true) (c : Bool) :
    let u := settled t f s (answer op f c st d [] [] (atAdmission t f s))
    Replied s u op f st d [] [] ∧ u.cmds = s.cmds := by
  intro u
  have hout : u.out = .reply f.port f.srcIp f.srcUdp (fragUnit s) (replyOf (atAdmission t f s) op f st d [] []) :: s.out := by
    have hunit : fragUnit (atAdmission t f s) = fragUnit s := by unfold fragUnit; rw [atAdmission_regs]
    rw [show u.out = _ from congrArg State.out (settled_frame t f s _)]
    simp only [answer_out, atAdmission_portUp, hup, if_true, hunit, atAdmission_out]
  have hcmds : u.cmds = s.cmds := by
    rw [show u.cmds = _ from congrArg State.cmds (settled_frame t f s _)]
    rw [answer_frame]
    exact atAdmission_cmds t f s
  exact ⟨⟨[], [], _, hout, rfl, rfl, rfl, rfl, rfl, rfl, rfl, rfl, rfl⟩, hcmds⟩

/-! ### The checks of the result slot (R47, R48) -/

/-- STATE of a result slot in OBJECT_STATE. -/
def SlotState.code : SlotState → Nat
  | .pending => 1
  | .ready => 2
  | .discard => 3

/-- The TAG of a result-producing command names a slot of its berth (R48). -/
def tagUsed (s : State) (f : Frame) : Option Refuse :=
  (getSlot s f.berth f.tag).map (fun x => conflict kSlot f.tag.toNat x.state.code)

/-- The command's sequenced queue has its 256 accepted commands. -/
def queueFull (s : State) (f : Frame) : Option Refuse :=
  if f.queue = 0xFF then none
  else need (decide ((s.cmds.active.filter (fun a => a.frame.berth == f.berth && a.frame.queue == f.queue)).length < 256)) (noResource 2 0 1)

/-- Every result slot is taken (R47, R430). -/
def slotsFull (s : State) (f : Frame) : Option Refuse :=
  need (decide ((slotsOf s f.berth).length < slotLimit s)) (noResource 3 0 1)

/-- What decides over a result-producing command that passes every check before that of its slot. -/
theorem admissionChecks_from_slot {sp : CmdSpec} {s : State} {f : Frame} (hr : sp.result = true) (h : PassesToSlots sp s f) :
    ∃ rest, admissionChecks sp s f = firstSome (tagUsed s f :: queueFull s f :: slotsFull s f :: rest) := by
  obtain ⟨hctrl, hframe, hdev, hclass, hberth, hunits, hbrace, hcheck, hobjects⟩ := h
  have hneeds : need (f.queue != 0xFF || sp.ctrl) (badFrameHeader 7 1 0 63) = none ∧
      need (!(s.dev.state == .braced && sp.brace s f)) (stBraced, .none) = none := by
    constructor
    · rw [need_eq_none]
      by_cases hq : f.queue = 0xFF
      · simp [hctrl hq]
      · simp [hq]
    · rw [need_eq_none]
      by_cases hb : s.dev.state = .braced
      · simp [hbrace hb]
      · simp [hb]
  have htag : tagUsed s f = (getSlot s f.berth f.tag).bind (fun x => some (conflict kSlot f.tag.toNat x.state.code)) := by
    unfold tagUsed; cases getSlot s f.berth f.tag <;> rfl
  rw [htag, admissionChecks, hneeds.1, hneeds.2, hframe, hdev, decide_eq_true hclass, hberth, hunits, hcheck, hobjects, hr]
  simp only [need_true, beq_self_eq_true, firstSome_none_cons, if_true, Bool.true_and]
  exact ⟨_, rfl⟩

theorem getSlot_congr {s u : State} (h : u.cmds = s.cmds) (b : Nat) (tag : BitVec 32) : getSlot u b tag = getSlot s b tag := by
  simp only [getSlot, h]

/-- Every slot that is not FREE is PENDING, READY or DISCARD. -/
theorem slots_counted (b : Nat) (l : List Slot) :
    l.filter (fun x => x.berth == b && (x.state == .pending || x.state == .ready || x.state == .discard)) = l.filter (fun x => x.berth == b) := by
  refine List.filter_congr (fun x _ => ?_)
  cases x.state <;> simp

theorem admissionChecks_tag_used {sp : CmdSpec} {s : State} {f : Frame} {sl : Slot} (hr : sp.result = true) (h : PassesToSlots sp s f)
    (hsl : getSlot s f.berth f.tag = some sl) : admissionChecks sp s f = some (conflict kSlot f.tag.toNat sl.state.code) := by
  obtain ⟨rest, hrest⟩ := admissionChecks_from_slot hr h
  rw [hrest, tagUsed, hsl]
  rfl

theorem admissionChecks_slots_full {sp : CmdSpec} {s : State} {f : Frame} (hr : sp.result = true) (h : PassesToSlots sp s f)
    (hsl : getSlot s f.berth f.tag = none) (hdock : s.dev.state ≠ .dryDock) (hq : queueFull s f = none)
    (hfull : 4096 ≤ (s.cmds.slots.filter (fun x => x.berth == f.berth)).length) : admissionChecks sp s f = some (noResource 3 0 1) := by
  obtain ⟨rest, hrest⟩ := admissionChecks_from_slot hr h
  have hlimit : slotsFull s f = some (noResource 3 0 1) := by
    simp only [slotsFull, slotsOf, slotLimit, if_neg hdock, need, decide_eq_false (not_lt.mpr hfull)]
    rfl
  rw [hrest, tagUsed, hsl, hq, hlimit]
  rfl

/-! ### Result-producing rows -/

theorem resultRows_result : ∀ r ∈ resultRows ++ storedRows, r.spec.result = true := by
  simp only [resultRows, storedRows, List.forall_mem_append, List.forall_mem_cons, List.not_mem_nil, false_implies, implies_true, and_true]
  repeat' apply And.intro
  all_goals rfl

/-- A row's command is its frame, with at most the parameter block changed. -/
theorem resultRows_frame : ∀ r ∈ resultRows ++ storedRows, ∀ f, ∃ p, r.frame f = { f with params := p } := by
  simp only [resultRows, storedRows, List.forall_mem_append, List.forall_mem_cons, List.not_mem_nil, false_implies, implies_true, and_true]
  repeat' apply And.intro
  all_goals exact fun _ => ⟨_, rfl⟩

/-- A result-producing row whose command admission refuses is answered with the refusal, and nothing is accepted. -/
theorem resultRow_refused {r : CmdRow} (hr : r ∈ resultRows ++ storedRows) {t : Nat} {f : Frame} {s : State} {x : Refuse}
    (ha : Arrives r.spec.opcode t (r.frame f) s) (ho : InOrder t (r.frame f) s)
    (hx : admissionChecks r.spec (atAdmission t (r.frame f) s) (r.frame f) = some x) :
    ∃ u, exec (r.row t f) s = .next u ∧ Replied s u r.spec.opcode (r.frame f) x.1 x.2 [] [] ∧ u.cmds = s.cmds := by
  have hmem : r ∈ resultRows ++ storedRows ++ slowRows := List.mem_append_left _ hr
  refine ⟨_, (resultRows_exec r hmem t f s).trans (congrArg _ (runCommand_refused (resultRows_spec r hmem) ha ho hx)), ?_⟩
  exact answered_at_admission (show portUp s (r.frame f).port = true from ha.1) _

/-- Settles O6: every check before the slot's passes, so the slot's own decides, then the slots' number (the queue has room). -/
theorem usedTagsAreRefused : Obligations.UsedTagsAreRefused := by
  unfold Obligations.UsedTagsAreRefused
  intro r hr t f s ha ho hpass
  have hresult := resultRows_result r hr
  have hcmds := atAdmission_cmds t (r.frame f) s
  have hdev := atAdmission_dev t (r.frame f) s
  obtain ⟨p, hp⟩ := resultRows_frame r hr f
  have hberth : (r.frame f).berth = f.berth := by rw [hp]
  have htag : (r.frame f).tag = f.tag := by rw [hp]
  have hqueue : (r.frame f).queue = f.queue := by rw [hp]
  have hslot : getSlot (atAdmission t (r.frame f) s) (r.frame f).berth (r.frame f).tag = getSlot s f.berth f.tag := by
    rw [getSlot_congr hcmds, hberth, htag]
  constructor
  · intro sl hsl
    obtain ⟨u, hexec, hrep, hu⟩ := resultRow_refused hr ha ho (admissionChecks_tag_used hresult hpass (hslot.trans hsl))
    rw [htag] at hrep
    exact ⟨u, _, hexec, hrep, hu⟩
  · intro hsl hdock hroom hfull
    have hq : queueFull (atAdmission t (r.frame f) s) (r.frame f) = none := by
      rw [queueFull, hcmds, hberth, hqueue]
      rcases hroom with hctrl | hroom
      · rw [if_pos hctrl]
      · rw [decide_eq_true hroom]; split <;> rfl
    rw [slots_counted] at hfull
    exact resultRow_refused hr ha ho
      (admissionChecks_slots_full hresult hpass (hslot.trans hsl) (by rwa [hdev]) hq (by rwa [hcmds, hberth]))

/-- Settles O7: acceptance, start and end of a plain command are one step, and nothing follows the reply of a quick row. -/
theorem quickCommandsComplete : Obligations.QuickCommandsComplete := by
  unfold Obligations.QuickCommandsComplete
  intro r hr t f s hstart hunhurt
  rw [quickRows_exec r hr, quickRows_frame r hr, runCommand_accept (quickRows_spec r hr) hstart.1,
    accept_plain (quickRows_plain r hr) hstart hunhurt, quickRows_after r hr, finish]

/-! ### What queue pairs keep (R70) -/

/-- Every queue pair of `u` was one of `s`, with its number and port, and one in ERROR stays there. -/
structure QpsKept (s u : State) : Prop where
  kept : ∀ x ∈ u.rdma.qps, ∃ q ∈ s.rdma.qps, q.qpn = x.qpn ∧ q.port = x.port ∧ (q.state = .error → x.state = .error)

theorem QpsKept.of_eq {s u : State} (h : u.rdma.qps = s.rdma.qps) : QpsKept s u :=
  ⟨fun x hx => ⟨x, h ▸ hx, rfl, rfl, id⟩⟩

theorem QpsKept.refl (s : State) : QpsKept s s := QpsKept.of_eq rfl

theorem QpsKept.trans {s u v : State} (h : QpsKept s u) (h' : QpsKept u v) : QpsKept s v := by
  refine ⟨fun x hx => ?_⟩
  obtain ⟨y, hy, hyn, hyp, hye⟩ := h'.kept x hx
  obtain ⟨q, hq, hqn, hqp, hqe⟩ := h.kept y hy
  exact ⟨q, hq, hqn.trans hyn, hqp.trans hyp, hye ∘ hqe⟩

theorem QpsKept.modQp (n : BitVec 24) {g : Qp → Qp} (s : State)
    (hg : ∀ q, (g q).qpn = q.qpn ∧ (g q).port = q.port ∧ (q.state = .error → (g q).state = .error)) : QpsKept s (modQp n g s) := by
  refine ⟨fun x hx => ?_⟩
  rw [modQp_rdma] at hx
  obtain ⟨q, hq, rfl⟩ := List.mem_map.mp hx
  refine ⟨q, hq, ?_⟩
  split
  · obtain ⟨hn, hp, he⟩ := hg q
    exact ⟨hn.symm, hp.symm, he⟩
  · exact ⟨rfl, rfl, id⟩

theorem QpsKept.foldl {α : Type} {g : State → α → State} (hg : ∀ s a, QpsKept s (g s a)) (l : List α) (s : State) :
    QpsKept s (l.foldl g s) := by
  induction l generalizing s with
  | nil => exact QpsKept.refl s
  | cons a l ih => exact (hg s a).trans (ih (g s a))

theorem emit_qps (o : Output) (s : State) : QpsKept s (emit o s) := QpsKept.of_eq rfl

theorem sendRdmaWrite_qps (n : BitVec 24) (rkey : BitVec 32) (va : Nat) (data : Bytes) (imm : Option (BitVec 32)) (s : State) :
    QpsKept s (sendRdmaWrite n rkey va data imm s) := by
  unfold sendRdmaWrite
  split
  · exact QpsKept.refl s
  · refine QpsKept.trans ?_ (emit_qps _ _)
    exact QpsKept.modQp n s (fun _ => ⟨rfl, rfl, id⟩)

theorem qpError_qps (n : BitVec 24) (s : State) : QpsKept s (qpError n s) := by
  refine QpsKept.modQp n s (fun q => ?_)
  split
  · exact ⟨rfl, rfl, id⟩
  · exact ⟨rfl, rfl, fun _ => rfl⟩

/-! ### Replication and its queue pairs (R286 to R288) -/

theorem modVault_qps (b : Nat) (g : Vault → Vault) (s : State) : QpsKept s (modVault b g s) := QpsKept.of_eq rfl

theorem modSend_qps (b : Nat) (g : ReplSend → ReplSend) (s : State) : QpsKept s (modSend b g s) := modVault_qps ..

theorem sendNotice_rdma (p : Nat) (ip : Addr) (udp op b : Nat) (w : Bool) (k : StatusBlock) (fl pl : Bytes) (s : State) :
    (sendNotice p ip udp op b w k fl pl s).rdma = s.rdma := by
  unfold sendNotice; split <;> rfl

theorem berthNotice_rdma (b op : Nat) (fl pl : Bytes) (s : State) : (berthNotice b op fl pl s).rdma = s.rdma := by
  unfold berthNotice; split
  · exact sendNotice_rdma ..
  · rfl

theorem vaultEvent_qps (b ev id st : Nat) (s : State) : QpsKept s (vaultEvent b ev id st s) := by
  unfold vaultEvent; split
  · exact QpsKept.of_eq (congrArg Rdma.qps (berthNotice_rdma ..))
  · exact QpsKept.refl s

theorem trimBacklogs_qps (b : Nat) (l : List Ckpt) (s : State) : QpsKept s (l.foldl (fun st _ => modVault b (trimBacklog st b) st) s) :=
  QpsKept.foldl (fun st _ => modVault_qps b (trimBacklog st b) st) l s

theorem writeStream_qps (v : Vault) (pos : Nat) (data : Bytes) (s : State) : QpsKept s (writeStream v pos data s) := by
  unfold writeStream
  split
  · exact QpsKept.refl s
  · dsimp only
    split
    · exact sendRdmaWrite_qps ..
    · exact (sendRdmaWrite_qps ..).trans (sendRdmaWrite_qps ..)

theorem sendRecord_qps (v : Vault) (off : Nat) (rec8 : Bytes) (ty : Nat) (s : State) : QpsKept s (sendRecord v off rec8 ty s) :=
  sendRdmaWrite_qps ..

theorem pumpStream_qps (b : Nat) (s : State) : QpsKept s (pumpStream b s) := by
  unfold pumpStream
  split
  · exact QpsKept.refl s
  · split
    · exact QpsKept.refl s
    · split
      · exact QpsKept.refl s
      · dsimp only
        split
        · exact ((writeStream_qps ..).trans (modSend_qps ..)).trans (sendRecord_qps ..)
        · exact (writeStream_qps ..).trans (modSend_qps ..)

theorem beginStream_qps (b id : Nat) (s : State) : QpsKept s (beginStream b id s) := by
  unfold beginStream
  dsimp only
  split
  · exact modSend_qps ..
  · split
    · exact modSend_qps ..
    · exact ((modSend_qps ..).trans (sendRecord_qps ..)).trans (pumpStream_qps ..)

theorem replDown_qps (b : Nat) (s : State) : QpsKept s (replDown b s) := by
  unfold replDown
  split
  · exact QpsKept.refl s
  · exact ((modSend_qps ..).trans (trimBacklogs_qps ..)).trans (vaultEvent_qps ..)

theorem replFail_qps (b : Nat) (s : State) : QpsKept s (replFail b s) := by
  unfold replFail
  split
  · exact QpsKept.refl s
  · split
    · exact QpsKept.refl s
    · split
      · dsimp only
        split
        · exact (modSend_qps ..).trans (beginStream_qps ..)
        · exact modSend_qps ..
      · exact replDown_qps b s

theorem replQpError_qps (n : BitVec 24) (s : State) : QpsKept s (replQpError n s) :=
  QpsKept.foldl (g := fun st (v : Vault) => replFail v.berth st) (fun st v => replFail_qps v.berth st) _ s

/-! ### Queue pairs that fail together -/

theorem qpError_error (n : BitVec 24) (s : State) : ∀ x ∈ (qpError n s).rdma.qps, x.qpn = n → x.state = .error := by
  intro x hx hn
  simp only [qpError, modQp_rdma, List.mem_map] at hx
  obtain ⟨q, -, rfl⟩ := hx
  by_cases hq : q.qpn = n
  · simp only [hq, beq_self_eq_true, if_true]
    split
    · assumption
    · rfl
  · simp only [beq_eq_false_iff_ne.mpr hq, Bool.false_eq_true, if_false] at hn
    exact absurd hn hq

theorem failQp_qps (n : BitVec 24) (s : State) : QpsKept s (failQp n s) := (qpError_qps n s).trans (replQpError_qps n _)

/-- A queue pair that fails is in ERROR, whatever replication does about it. -/
theorem failQp_error (n : BitVec 24) (s : State) : ∀ x ∈ (failQp n s).rdma.qps, x.qpn = n → x.state = .error := by
  intro x hx hn
  obtain ⟨q, hq, hqn, -, herr⟩ := (replQpError_qps n (qpError n s)).kept x hx
  exact herr (qpError_error n s q hq (hqn.trans hn))

/-- When the queue pairs of a list fail one after the other, each is in ERROR at the end. -/
theorem failQps_error (l : List Qp) (s : State) (n : Nat)
    (h : ∀ q ∈ s.rdma.qps, q.port = n → q.state = .error ∨ ∃ y ∈ l, y.qpn = q.qpn) :
    ∀ x ∈ (l.foldl (fun st q => failQp q.qpn st) s).rdma.qps, x.port = n → x.state = .error := by
  induction l generalizing s with
  | nil =>
    intro x hx hp
    exact (h x hx hp).resolve_right (by simp)
  | cons y l ih =>
    refine ih (failQp y.qpn s) (fun x hx hp => ?_)
    obtain ⟨q, hq, hqn, hqp, hqe⟩ := (failQp_qps y.qpn s).kept x hx
    rcases h q hq (hqp.trans hp) with herr | ⟨z, hz, hzn⟩
    · exact Or.inl (hqe herr)
    · rcases List.mem_cons.mp hz with rfl | hz
      · exact Or.inl (failQp_error _ s x hx (hqn.symm.trans hzn.symm))
      · exact Or.inr ⟨z, hz, hzn.trans hqn⟩

/-- Every queue pair on a port whose class has become OBSERVE is in ERROR (R46). -/
theorem observeQps_error {s0 s : State} {n : Nat} (h0 : portClassOf s0 n ≠ 0) (h : portClassOf s n = 0) :
    ∀ x ∈ (observeQps s0 s).rdma.qps, x.port = n → x.state = .error := by
  refine failQps_error _ s n (fun q hq hp => Or.inr ⟨q, List.mem_filter.mpr ⟨hq, ?_⟩, rfl⟩)
  simp [hp, h0, h]

/-! ### What hawser ports leave alone -/

theorem foldl_rdma {α : Type} {g : State → α → State} (hg : ∀ s a, (g s a).rdma = s.rdma) (l : List α) (s : State) :
    (l.foldl g s).rdma = s.rdma := by
  induction l generalizing s with
  | nil => rfl
  | cons a l ih => exact (ih (g s a)).trans (hg s a)

theorem pumpGo_rdma (p n : Nat) (s : State) : (pumpGo p n s).rdma = s.rdma := by
  induction n generalizing s with
  | zero => rfl
  | succ n ih =>
    unfold pumpGo
    dsimp only
    split
    · rfl
    · split
      · rfl
      · split
        · rfl
        · rw [ih]
          split
          · split <;> rfl
          · rfl

theorem sendFrom_rdma (src : Option (Nat × Nat)) (p : Nat) (f : HFrame) (s : State) : (sendFrom src p f s).rdma = s.rdma := pumpGo_rdma ..

theorem sendRouted_rdma (inPort i : Nat) (f : HFrame) (s : State) : (sendRouted inPort i f s).rdma = s.rdma := by
  unfold sendRouted sendRoutedFrom
  dsimp only
  split
  · exact sendFrom_rdma ..
  · rfl

theorem sendMessage_rdma (dest flow : Nat) (msg : Bytes) (s : State) : (sendMessage dest flow msg s).rdma = s.rdma :=
  foldl_rdma (fun st f => sendRouted_rdma 0 0 f st) _ s

theorem floodTopo_rdma (s : State) : (floodTopo s).rdma = s.rdma :=
  foldl_rdma (fun st p => sendFrom_rdma none p _ st) _ _

theorem endMembers_rdma (w : FleetWork) (k : StatusBlock) (skip : Nat) (s : State) : (endMembers w k skip s).rdma = s.rdma := by
  unfold endMembers
  split
  · rfl
  · split
    · rfl
    · exact foldl_rdma (fun st m => sendMessage_rdma m _ _ st) _ s

theorem failCut_rdma (before s : State) : (failCut before s).rdma = s.rdma := by
  unfold failCut
  refine foldl_rdma (fun st w => ?_) _ s
  split
  · rfl
  · dsimp only
    split
    · rfl
    · exact endMembers_rdma ..

theorem hawserEvent_rdma (p : Nat) (s : State) : (hawserEvent p s).rdma = s.rdma := berthNotice_rdma ..

theorem forgetLost_rdma (l : List Nat) (s : State) : (forgetLost l s).rdma = s.rdma := rfl

theorem modCredits_rdma (p : Nat) (g : Credits → Credits) (s : State) : (modCredits p g s).rdma = s.rdma := rfl

theorem enterPort_rdma (p : Nat) (st : HawserState) (s : State) : (enterPort p st s).rdma = s.rdma := by
  simp only [enterPort, apply_ite State.rdma, forgetLost_rdma, failCut_rdma, floodTopo_rdma, hawserEvent_rdma, modHawserPort_rdma, ite_self]

theorem startAttempt_rdma (p : Nat) (s : State) : (startAttempt p s).rdma = s.rdma := enterPort_rdma p .training s

theorem moveFrames_rdma (p : Nat) (l : List Bytes) (peer : Nat) (s : State) : (moveFrames p l peer s).rdma = s.rdma := by
  unfold moveFrames
  split
  · rfl
  · refine foldl_rdma (fun st x => ?_) _ s
    exact sendFrom_rdma ..

theorem leaveLink_rdma (p : Nat) (st : HawserState) (s : State) : (leaveLink p st s).rdma = s.rdma := by
  simp only [leaveLink, moveFrames_rdma, enterPort_rdma, modCredits_rdma, modHawserPort_rdma]

theorem refreshPort_rdma (p : Nat) (s : State) : (refreshPort p s).rdma = s.rdma := by
  simp only [refreshPort, portDown, apply_ite State.rdma, leaveLink_rdma, startAttempt_rdma, enterPort_rdma, ite_self]

theorem refreshPorts_rdma (s : State) : (refreshPorts s).rdma = s.rdma := foldl_rdma (fun st p => refreshPort_rdma p st) _ s

theorem retrainAll_rdma (s : State) : (retrainAll s).rdma = s.rdma := by
  refine foldl_rdma (fun st p => ?_) _ s
  simp only [apply_ite State.rdma, startAttempt_rdma, refreshPort_rdma, modHawserPort_rdma, ite_self]

/-- What follows the reply of a SET_PARAM (R341) is the hawser ports' own. -/
theorem setParam_after_rdma (s : State) (a : Active) : (cmdSetParam.after s a).rdma = s.rdma := by
  show (if s.hawser.retrainAsked then _ else _ : State).rdma = _
  split
  · exact retrainAll_rdma _
  · exact refreshPorts_rdma s

/-! ### What a completion leaves of the queue pairs -/

theorem drainIdle_qps (s : State) : (drainIdle s).rdma.qps = s.rdma.qps := by
  unfold drainIdle
  split
  · split <;> rfl
  · rfl

/-- Completing a host's command that is not result-producing leaves every queue pair as its work left it. -/
theorem complete_qps {a : Active} (ho : a.origin = none) (hr : a.result = false) (o : WorkOut) (s : State) :
    (complete a o s).rdma.qps = s.rdma.qps := by
  have hue : ∀ x : State, (countUe o.status x).rdma = x.rdma := by
    intro x
    unfold countUe
    split <;> rfl
  unfold complete
  dsimp only
  rw [drainIdle_qps, ho, hr]
  simp only [Bool.false_eq_true, if_false]
  rw [answer_frame]
  simp only [hue]
  rw [unitsReleased_frame]
  rfl

/-! ### The SET_PARAM that makes a port OBSERVE (R44, R46, R63) -/

/-- The command of a PORT_CLASS row that sets OBSERVE on port `n`. -/
def observeFrame (f : Frame) (n : Nat) : Frame := setOne f (0x0020 + n) 0 3

/-- Its one entry. -/
def observeEntry (n : Nat) : SetEntry := { off := 0, pid := 0x0020 + n, size := 4, value := 0, mask := 3 }

/-- The entry with its parameter and the value that it gives it. -/
def observeSet (s : State) (b n : Nat) : SetEntry × Param × Nat := (observeEntry n, pClass n, entryValue s b (pClass n) (observeEntry n))

theorem paramOf_class {n : Nat} (h : n < 8) : paramOf (0x0020 + n) = some (pClass n) := by
  interval_cases n <;> rfl

theorem pClass_fields (n : Nat) : (pClass n).fields = [fRwl 0 2 0 2, fRsv 2 6, fRo 8 8, fRsv 16 16] := rfl

/-- The entry's mask covers CLASS and nothing else. -/
theorem observeEntry_bits (n : Nat) : bits (observeEntry n).mask 0 2 = 3 ∧ bits (observeEntry n).mask 2 6 = 0 ∧
    bits (observeEntry n).mask 8 8 = 0 ∧ bits (observeEntry n).mask 16 16 = 0 ∧ bits (observeEntry n).value 0 2 = 0 := by
  dsimp only [observeEntry]
  decide

theorem readEntries_observe {n : Nat} (h : n < 8) (f : Frame) :
    readEntries (observeFrame f n) (paramCount (observeFrame f n)) 0 = .inr [observeEntry n] := by
  interval_cases n <;> rfl

theorem entryRefuse_observe {n : Nat} (h : n < 8) (f : Frame) (s : State) : entryRefuse s (observeFrame f n) [] (observeEntry n) = none := by
  obtain ⟨hclass, h2, h8, h16, hvalue⟩ := observeEntry_bits n
  have hreserved : payIn (observeFrame f n) 4 4 0 0 = none := by
    interval_cases n <;> rfl
  have hfields : (pClass n).fields.findSome? (fieldCheck s (observeFrame f n) (pClass n) (observeEntry n)) = none := by
    simp [pClass_fields, fieldCheck, fRwl, fRsv, fRo, hclass, h2, h8, h16, hvalue]
  unfold entryRefuse
  rw [show paramOf (observeEntry n).pid = some (pClass n) from paramOf_class h]
  dsimp only
  rw [hfields, show (observeEntry n).off + 4 = 4 from rfl, hreserved]
  rfl

theorem newValues_observe {n : Nat} (h : n < 8) (s : State) (b : Nat) : newValues s b [observeEntry n] = [observeSet s b n] := by
  have htouches : touches (pClass n) (observeEntry n) = true := by
    simp [touches, pClass_fields, covers, fRwl, (observeEntry_bits n).1]
  have hparam : paramOf (observeEntry n).pid = some (pClass n) := paramOf_class h
  simp [newValues, hparam, htouches, observeSet]

/-- All that the entry can be refused for is that no port of class ADMIN would be left (R44). -/
theorem setCheck_observe {n : Nat} (h : n < 8) (f : Frame) (s : State) :
    setCheck s (observeFrame f n) = (adminCheck s (observeFrame f n) [observeSet s f.berth n]).elim (.inr [observeSet s f.berth n]) .inl := by
  have hone : (List.range [observeEntry n].length).findSome?
      (fun i => ([observeEntry n][i]?).bind (entryRefuse s (observeFrame f n) ([observeEntry n].take i))) = none := by
    simpa using entryRefuse_observe h f s
  have hcross : [observeSet s f.berth n].findSome?
      (fun x => (x.2.1.cross s f.berth x.2.2).map (fun c => badIn (observeFrame f n) x.1 c.1 c.2.1 c.2.2.1 c.2.2.2)) = none := rfl
  unfold setCheck
  rw [readEntries_observe h]
  dsimp only
  rw [hone]
  dsimp only
  rw [show (observeFrame f n).berth = f.berth from rfl, newValues_observe h, hcross]
  cases adminCheck s (observeFrame f n) [observeSet s f.berth n] <;> rfl

/-- The check depends on the registers alone. -/
theorem setCheck_observe_congr {n : Nat} (h : n < 8) (f : Frame) {s u : State} (hregs : u.regs = s.regs) :
    setCheck u (observeFrame f n) = setCheck s (observeFrame f n) := by
  have hvalue : observeSet u f.berth n = observeSet s f.berth n := by
    simp only [observeSet, entryValue, pClass, hregs]
  have hnew : newClass u = newClass s := by
    funext l m
    rw [newClass, newClass, hregs]
  have hadmin : ∀ l, adminCheck u (observeFrame f n) l = adminCheck s (observeFrame f n) l := by
    intro l
    simp only [adminCheck, hnew, hregs]
  rw [setCheck_observe h, setCheck_observe h, hvalue, hadmin]

/-- A set that is not refused has its one entry. -/
theorem setCheck_observe_passed {n : Nat} (h : n < 8) (f : Frame) {s : State} (hp : setRefuse s (observeFrame f n) = none) :
    setCheck s (observeFrame f n) = .inr [observeSet s f.berth n] := by
  rw [setRefuse, setCheck_observe h] at hp
  rw [setCheck_observe h]
  cases hadmin : adminCheck s (observeFrame f n) [observeSet s f.berth n] with
  | none => rfl
  | some r => rw [hadmin] at hp; cases hp

/-- The class that the entry gives is OBSERVE. -/
theorem observeSet_class (s : State) (b n : Nat) : bits (observeSet s b n).2.2 0 2 = 0 := by
  obtain ⟨hclass, h2, h8, h16, hvalue⟩ := observeEntry_bits n
  have hset : (observeSet s b n).2.2 = setBits ((pClass n).read s b) 0 2 0 := by
    simp [observeSet, entryValue, pClass_fields, covers, fRwl, fRsv, fRo, hclass, h2, h8, h16, hvalue]
  rw [hset]
  simp only [bits, setBits]
  omega

theorem portClassOf_ne_zero {s : State} {n : Nat} : portClassOf s n ≠ 0 ↔ s.regs.portClass.getD n 0 ≠ 0 := by
  rw [portClassOf, ne_eq, ne_eq, ← BitVec.toNat_inj]
  rfl

/-- A port whose class is set to OBSERVE has class OBSERVE. -/
theorem setClass_observe (n : Nat) (s : State) : portClassOf (setClass n 0 s) n = 0 := by
  unfold setClass
  split
  · assumption
  · simp only [portClassOf, List.getD_eq_getElem?_getD, List.getElem?_set_self']
    cases s.regs.portClass[n]? <;> rfl

/-- The work of the set, where a change is left: the port is OBSERVE and its queue pairs are in ERROR. -/
theorem setWork_observe {n : Nat} (h : n < 8) {f : Frame} {s : State} {a : Active} (ha : a.frame = observeFrame f n)
    (hcheck : setRefuse s (observeFrame f n) = none) (hlog : (if writesLb (observeFrame f n) then logOk s else none) = none)
    (hclass : s.regs.portClass.getD n 0 ≠ 0) (hleft : s.regs.portRemain.getD n 0 ≠ 0) :
    ∀ q ∈ (setWork s a).1.rdma.qps, q.port = n → q.state = .error := by
  have hfleet : fleetBusy s [observeSet s f.berth n] = none := by
    have hpid : (0x0020 + n == 0x0800) = false := beq_eq_false_iff_ne.mpr (by omega)
    simp [fleetBusy, observeSet, observeEntry, hpid]
  have hspend : spendCheck s [observeSet s f.berth n] = none := by
    have hne : ¬(s.regs.portClass.getD n 0).toNat = bits (observeSet s f.berth n).2.2 0 2 := by
      rw [observeSet_class]
      exact portClassOf_ne_zero.mpr hclass
    have hlist : (observeSet s f.berth n).2.1.spend s (observeSet s f.berth n).2.2 = [(n + 1, 0, 1, s.regs.portRemain.getD n 0)] := if_neg hne
    simpa [spendCheck, hlist] using hleft
  have hwork : setWork s a = (applyEntries f.berth [observeSet s f.berth n] s, okOut [] []) := by
    unfold setWork
    rw [ha, setCheck_observe_passed h f hcheck]
    dsimp only
    rw [hfleet, hlog, hspend]
    rfl
  have happly : applyEntries f.berth [observeSet s f.berth n] s = observeQps s (setClass n 0 s) := by
    rw [← observeSet_class s f.berth n]
    rfl
  rw [hwork, happly]
  exact observeQps_error (portClassOf_ne_zero.mpr hclass) (setClass_observe n s)

/-! ### A port of class OBSERVE carries no RDMA -/

theorem admissionChecks_passed {sp : CmdSpec} {s : State} {f : Frame} (h : admissionChecks sp s f = none) :
    sp.check s f = none ∧ sp.needs s f = none :=
  ⟨firstSome_eq_none.mp h _ (by simp), firstSome_eq_none.mp h _ (by simp)⟩

theorem plain_setParam : Plain cmdSetParam :=
  ⟨rfl, fun _ _ => rfl, fun _ _ => rfl, fun _ _ => rfl, fun _ _ => rfl⟩

theorem running_regs {sp : CmdSpec} (hp : Plain sp) (t : Nat) (f : Frame) (s : State) : (running sp t f s).regs = s.regs := by
  rw [(running_admitted hp).eq]

theorem running_logbook {sp : CmdSpec} (hp : Plain sp) (t : Nat) (f : Frame) (s : State) : (running sp t f s).logbook = s.logbook := by
  rw [(running_admitted hp).eq]

/-- A SET_PARAM that starts at once leaves the queue pairs as its work does. -/
theorem setParam_qps {t : Nat} {f : Frame} {s : State} (h : Starts cmdSetParam t f s) :
    (runCommand 0x0102 t f s).rdma.qps = (setWork (running cmdSetParam t f s) (startedCmd cmdSetParam t f s)).1.rdma.qps := by
  have hunhurt : Unhurt cmdSetParam t f s := unhurt_of_norefs (fun _ _ => rfl) (fun _ _ => rfl)
  rw [show runCommand 0x0102 t f s = _ from runCommand_accept (sp := cmdSetParam) rfl h.1, accept_plain plain_setParam h hunhurt,
    settled_frame]
  exact (congrArg Rdma.qps (setParam_after_rdma _ _)).trans (complete_qps rfl rfl _ _)

/-- A PORT_CLASS that makes a port OBSERVE leaves every queue pair on it in ERROR. -/
theorem portClass_observe {t n : Nat} {f : Frame} {s : State} (hn : n < 8) (h : Starts cmdSetParam t (observeFrame f n) s)
    (hclass : s.regs.portClass.getD n 0 ≠ 0) (hleft : s.regs.portRemain.getD n 0 ≠ 0) :
    ∀ q ∈ (runCommand 0x0102 t (observeFrame f n) s).rdma.qps, q.port = n → q.state = .error := by
  have hregs := running_regs plain_setParam t (observeFrame f n) s
  have hlog : logOk (running cmdSetParam t (observeFrame f n) s) = logOk (atAdmission t (observeFrame f n) s) := by
    rw [logOk, logOk, running_logbook plain_setParam, atAdmission_logbook]
  have ⟨⟨_, _, _, hpassed⟩, _⟩ := h
  obtain ⟨hcheck, hneeds⟩ := admissionChecks_passed hpassed
  have hrefuse : setRefuse (atAdmission t (observeFrame f n) s) (observeFrame f n) = none := firstSome_eq_none.mp hcheck _ (by simp)
  rw [setParam_qps h]
  refine setWork_observe hn rfl ?_ ?_ (by rwa [hregs]) (by rwa [hregs])
  · rw [← hrefuse, setRefuse, setRefuse, setCheck_observe_congr hn f (hregs.trans (atAdmission_regs ..).symm)]
  · rw [hlog]
    exact hneeds

/-- A QP_CREATE that passes admission names a port of class OPERATE or ADMIN (Table 2.21). -/
theorem qpCreate_port {t : Nat} {f : Frame} {s : State} (h : Accepted cmdQpCreate t f s) : 1 ≤ portClassOf s (par f 0 1) := by
  obtain ⟨-, -, -, hpassed⟩ := h
  have hcheck : qpCreateCheck (atAdmission t f s) f = none := (admissionChecks_passed hpassed).1
  have hport : (operatePorts (atAdmission t f s)).contains (par f 0 1) = true :=
    need_eq_none.mp (firstSome_eq_none.mp hcheck _ List.mem_cons_self)
  have hmem := (List.mem_filter.mp (List.contains_iff_mem.mp hport)).2
  simpa [portClassOf] using hmem

/-- A request that arrives on a port of class OBSERVE is discarded and counted. -/
theorem takeRequest_observed {p : RdmaPkt} {s : State} (imm : Option (BitVec 32)) (hup : portUp s p.port = true) (hc : portClassOf s p.port = 0) :
    takeRequest p imm s = modPortStats p.port (fun x => { x with denied := satAdd 32 x.denied 1 }) s := by
  rw [takeRequest, hup, if_neg (by simp), if_pos hc]

/-- A queue pair on a port of class OBSERVE hears nothing. -/
theorem liveQp_observed {n : BitVec 24} {q : Qp} {s : State} (hq : getQp s n = some q) (hc : portClassOf s q.port = 0) : liveQp s n = none := by
  simp [liveQp, hq, hc]

/-- What arrives for it is discarded and counted. -/
theorem discardObserved_observed {n : BitVec 24} {q : Qp} {s : State} (hq : getQp s n = some q) (hup : portUp s q.port = true)
    (hc : portClassOf s q.port = 0) : discardObserved n s = modPortStats q.port (fun x => { x with denied := satAdd 32 x.denied 1 }) s := by
  unfold discardObserved
  rw [hq]
  exact if_pos ⟨hup, hc⟩

/-- Settles O50: the requests of a responder, the packets for a requester, the port that QP_CREATE checks, and the change of class. -/
theorem observePortsCarryNoRdma : Obligations.ObservePortsCarryNoRdma := by
  unfold Obligations.ObservePortsCarryNoRdma
  intro t s denied
  refine ⟨fun p imm hup hc => ?_, fun q n psn code data hq hup hc => ?_, fun f => qpCreate_port, fun f n hn h hclass hleft => ?_⟩
  · have hreq : ∀ i, takeRequest p i (setNow t s) = denied p.port := fun i => takeRequest_observed i hup hc
    exact ⟨congrArg _ (hreq none), congrArg _ (hreq (some imm)), congrArg _ (hreq none)⟩
  · have hlive : liveQp (setNow t s) n = none := liveQp_observed hq hc
    have hdiscard : discardObserved n (setNow t s) = denied q.port := discardObserved_observed hq hup hc
    refine ⟨?_, ?_, ?_, ?_⟩
    · show execAckReceived t n psn s = _
      simp only [execAckReceived, hlive, hdiscard]
    · show execNakReceived t n psn code s = _
      simp only [execNakReceived, hlive, hdiscard, Option.filter_none]
    · show execRdmaReadResponse t n psn data s = _
      simp only [execRdmaReadResponse, hlive, hdiscard]
    · show execCongestionNotificationPacket t n s = _
      simp only [execCongestionNotificationPacket, hlive, hdiscard]
  · exact ⟨_, rfl, portClass_observe hn h hclass hleft⟩

end Sys2Proof.Machine

/-! ## What every step keeps

`Kept s u` says of two states what every row keeps between them. It is a statement about the later state's parts alone, so each
state function has one lemma, which its callers cite: the operations on the state first, then the rules of each chapter, the
parameters, the work of the opcodes (`SpecKept`), and the rows (`KeptOut`). -/

namespace Sys2Proof.Machine

/-- What every step keeps of a state `s`, said of the parts of a later state that it speaks of: the queue of rows, the factory's
values, local time, the number of berths, the accepted commands under the next identifier, and the form of the SRAM shares. -/
structure KeptBy (s : State) (pending : List Instr) (now : Nat) (fixed : Fixed) (berths nextId : Nat) (active : List Active) (sram : List (Nat × Mem)) : Prop where
  pending : pending = s.pending
  now : s.now ≤ now
  fixed : fixed = s.fixed
  berths : berths = s.berths.length
  ids : (∀ a ∈ s.cmds.active, a.id < s.cmds.nextId) → ∀ a ∈ active, a.id < nextId
  sram : (∀ x ∈ s.rdma.sram, memWf x.2 = true) → ∀ x ∈ sram, memWf x.2 = true

/-- State `u` keeps of `s` what every step keeps. -/
def Kept (s u : State) : Prop := KeptBy s u.pending u.now u.fixed u.berths.length u.cmds.nextId u.cmds.active u.rdma.sram

theorem Kept.refl (s : State) : Kept s s := ⟨rfl, le_rfl, rfl, rfl, id, id⟩

theorem Kept.sound {s u : State} (h : Kept s u) (hs : Sound s) : Sound u :=
  ⟨h.berths.trans hs.1, h.ids hs.2.1, h.sram hs.2.2⟩

theorem Kept.by {s u : State} (h : Kept s u) : KeptBy s u.pending u.now u.fixed u.berths.length u.cmds.nextId u.cmds.active u.rdma.sram := h

section
set_option Elab.async false

variable {s0 s : State}

@[simp] theorem kept_ite (c : Prop) [Decidable c] (a b : State) : Kept s0 (if c then a else b) ↔ (c → Kept s0 a) ∧ (¬c → Kept s0 b) := by
  split <;> simp [*]

theorem kept_foldl {α : Type} {g : State → α → State} (hg : ∀ u x, Kept s0 u → Kept s0 (g u x)) : ∀ (l : List α) {u : State}, Kept s0 u → Kept s0 (l.foldl g u)
  | [], _, h => h
  | x :: l, _, h => kept_foldl hg l (hg _ x h)

@[simp] theorem kept_mk {z0 z1 z2 z3 z4 z5 z6 z7 z8 z9 z10 z11 z12 z13 z14 z15 z16 z17 z18 z19 z20 z21 z22 z23 z24 z25 z26 z27 z28 z29 z30 z31 z32 z33 z34 z35} : Kept s0 (State.mk z0 z1 z2 z3 z4 z5 z6 z7 z8 z9 z10 z11 z12 z13 z14 z15 z16 z17 z18 z19 z20 z21 z22 z23 z24 z25 z26 z27 z28 z29 z30 z31 z32 z33 z34 z35) ↔
    KeptBy s0 z0 z1 z4 z20.length z8.nextId z8.active z9.sram := Iff.rfl

/-- A state whose parts of that kind are those of a state that keeps them. -/
theorem KeptBy.kept {z0 z1 z2 z3 z4 z5 z6 z7 z8 z9 z10 z11 z12 z13 z14 z15 z16 z17 z18 z19 z20 z21 z22 z23 z24 z25 z26 z27 z28 z29 z30 z31 z32 z33 z34 z35} (h : KeptBy s0 z0 z1 z4 z20.length z8.nextId z8.active z9.sram) : Kept s0 (State.mk z0 z1 z2 z3 z4 z5 z6 z7 z8 z9 z10 z11 z12 z13 z14 z15 z16 z17 z18 z19 z20 z21 z22 z23 z24 z25 z26 z27 z28 z29 z30 z31 z32 z33 z34 z35) := h

@[simp] theorem keptBy_of (h : Kept s0 s) : KeptBy s0 s.pending s.now s.fixed s.berths.length s.cmds.nextId s.cmds.active s.rdma.sram := h

@[simp] theorem keptBy_max (h : Kept s0 s) (t : Nat) :
    KeptBy s0 s.pending (max s.now t) s.fixed s.berths.length s.cmds.nextId s.cmds.active s.rdma.sram :=
  ⟨h.pending, h.now.trans (le_max_left ..), h.fixed, h.berths, h.ids, h.sram⟩

theorem kept_net (h : Kept s0 s) (x : Net) : Kept s0 { s with net := x } := h

theorem kept_media (h : Kept s0 s) (x : Media) : Kept s0 { s with media := x } := h

theorem kept_storm (h : Kept s0 s) (x : Storm) : Kept s0 { s with storm := x } := h

theorem kept_hawser (h : Kept s0 s) (x : Hawser) : Kept s0 { s with hawser := x } := h

@[simp] theorem kept_modPort (h : Kept s0 s) (n : Nat) (g : HostPort → HostPort) : Kept s0 (modPort n g s) := h

@[simp] theorem kept_modBerth (h : Kept s0 s) (n : Nat) (g : Berth → Berth) : Kept s0 (modBerth n g s) := by
  have : (modBerth n g s).berths.length = s.berths.length := by simp
  unfold Kept; rw [this]; exact h

/-- What a row answers keeps what every step keeps. -/
def KeptOut (s : State) : Host.Outcome State Fault Refusal → Prop
  | .next u => Kept s u
  | _ => True

@[simp] theorem keptOut_next (u : State) : KeptOut s0 (.next u) ↔ Kept s0 u := Iff.rfl

@[simp] theorem keptOut_ite (c : Prop) [Decidable c] (a b : Host.Outcome State Fault Refusal) :
    KeptOut s0 (if c then a else b) ↔ (c → KeptOut s0 a) ∧ (¬c → KeptOut s0 b) := by
  split <;> simp [*]

@[simp] theorem kept_setNow (h : Kept s0 s) (t : Nat) : Kept s0 (setNow t s) :=
  ⟨h.pending, h.now.trans (le_max_left ..), h.fixed, h.berths, h.ids, h.sram⟩

@[simp] theorem kept_useFresh (h : Kept s0 s)  : Kept s0 (useFresh s) := by
  exact h

@[simp] theorem kept_modPortStats (h : Kept s0 s) (n : Nat) (g : PortStats → PortStats) : Kept s0 (modPortStats n g s) := by
  exact h

@[simp] theorem kept_modBerthStats (h : Kept s0 s) (b : Nat) (g : BerthStats → BerthStats) : Kept s0 (modBerthStats b g s) := by
  simp [modBerthStats, h]

@[simp] theorem kept_setQueue (h : Kept s0 s) (q : Queue) : Kept s0 (setQueue q s) := by
  exact h

@[simp] theorem kept_resetQueues (h : Kept s0 s) (b : Nat) : Kept s0 (resetQueues b s) := by
  exact h

@[simp] theorem kept_modActive (h : Kept s0 s) (n : Nat) {g : Active → Active} (hg : ∀ a, (g a).id = a.id) : Kept s0 (modActive n g s) := by
  refine ⟨h.pending, h.now, h.fixed, h.berths, fun hs a ha => ?_, h.sram⟩
  obtain ⟨b, hb, rfl⟩ := List.mem_map.mp ha
  have hlt := h.ids hs b hb
  split
  · rwa [hg]
  · exact hlt

@[simp] theorem kept_dropActive (h : Kept s0 s) (n : Nat) : Kept s0 (dropActive n s) :=
  ⟨h.pending, h.now, h.fixed, h.berths, fun hs a ha => h.ids hs a (List.mem_of_mem_filter ha), h.sram⟩

@[simp] theorem kept_modQp (h : Kept s0 s) (qpn : BitVec 24) (g : Qp → Qp) : Kept s0 (modQp qpn g s) := by
  exact h

@[simp] theorem kept_modNs (h : Kept s0 s) (nsid : Nat) (g : Namespace → Namespace) : Kept s0 (modNs nsid g s) := by
  exact h

@[simp] theorem kept_modHold (h : Kept s0 s) (id : Nat) (g : Hold → Hold) : Kept s0 (modHold id g s) := by
  exact h

@[simp] theorem kept_modPlan (h : Kept s0 s) (id : Nat) (g : Plan → Plan) : Kept s0 (modPlan id g s) := by
  exact h

@[simp] theorem kept_modIndex (h : Kept s0 s) (id : Nat) (g : VIndex → VIndex) : Kept s0 (modIndex id g s) := by
  exact h

@[simp] theorem kept_modVault (h : Kept s0 s) (b : Nat) (g : Vault → Vault) : Kept s0 (modVault b g s) := by
  exact h

@[simp] theorem kept_modQuay (h : Kept s0 s) (q : Nat) (g : Quay → Quay) : Kept s0 (modQuay q g s) := by
  exact h

@[simp] theorem kept_modQuayMedia (h : Kept s0 s) (q : Nat) (g : QuayMedia → QuayMedia) : Kept s0 (modQuayMedia q g s) := by
  exact h

@[simp] theorem kept_modHawserPort (h : Kept s0 s) (n : Nat) (g : HawserPort → HawserPort) : Kept s0 (modHawserPort n g s) := by
  exact h

@[simp] theorem kept_enterState (h : Kept s0 s) (d : DevState) : Kept s0 (enterState d s) := by
  exact h

@[simp] theorem kept_emit (h : Kept s0 s) (o : Output) : Kept s0 (emit o s) := by
  exact h

/-- The SRAM shares of a state are in canonical form. -/
def SharesWf (s : State) : Prop := ∀ x ∈ s.rdma.sram, memWf x.2 = true

theorem shareMem_wf {u : State} (hu : SharesWf u) (b : Nat) : memWf (shareMem u b) = true := by
  unfold shareMem
  cases hf : u.rdma.sram.find? (fun x => x.1 == b) with
  | none => rfl
  | some x => exact hu x (List.mem_of_find?_eq_some hf)

theorem kept_setShareMem (h : Kept s0 s) (b : Nat) {m : Mem} (hm : SharesWf s → memWf m = true) : Kept s0 (setShareMem b m s) := by
  refine ⟨h.pending, h.now, h.fixed, h.berths, h.ids, fun hs x hx => ?_⟩
  have hold := h.sram hs
  have hcase : x = (b, m) ∨ x ∈ s.rdma.sram := by
    by_cases he : m.isEmpty <;> simp [setShareMem, he] at hx <;> tauto
  rcases hcase with rfl | hx
  · exact hm hold
  · exact hold x hx

/-- A write of bytes into a berth's share keeps the form of the shares. -/
@[simp] theorem kept_writeShare (h : Kept s0 s) (b at0 : Nat) (bs : Bytes) : Kept s0 (setShareMem b (memWrite (shareMem s b) at0 bs) s) :=
  kept_setShareMem h b (fun hs => memWrite_wf (shareMem_wf hs b))

@[simp] theorem kept_clearShare (h : Kept s0 s) (b at0 n : Nat) : Kept s0 (setShareMem b (memClear (shareMem s b) at0 n) s) :=
  kept_setShareMem h b (fun hs => memClear_wf (shareMem_wf hs b))

@[simp] theorem kept_sendRdmaRead (h : Kept s0 s) (qpn : BitVec 24) (id : Nat) (i : Nat) (r : DRef) : Kept s0 (sendRdmaRead qpn id i r s) := by
  unfold sendRdmaRead; split <;> simp [h]

@[simp] theorem kept_sendRdmaWrite (h : Kept s0 s) (qpn : BitVec 24) (rkey : BitVec 32) (va : Nat) (data : Bytes) (imm : Option (BitVec 32)) : Kept s0 (sendRdmaWrite qpn rkey va data imm s) := by
  unfold sendRdmaWrite; split <;> simp [h]

@[simp] theorem kept_clearPoison (h : Kept s0 s) (b : Nat) (off : Nat) (n : Nat) : Kept s0 (clearPoison b off n s) := by
  exact h

@[simp] theorem kept_putRef (h : Kept s0 s) (b : Nat) (r : DRef) (data : Bytes) : Kept s0 (putRef b r data s) := by
  grind [putRef, kept_clearPoison, kept_writeShare, kept_sendRdmaWrite]

@[simp] theorem kept_modCredits (h : Kept s0 s) (p : Nat) (g : Credits → Credits) : Kept s0 (modCredits p g s) := by
  exact h

@[simp] theorem kept_sendIdle (h : Kept s0 s) (p : Nat) (nak : Bool) (crVl : Nat) (crCount : Nat) : Kept s0 (sendIdle p nak crVl crCount s) := by
  exact h

@[simp] theorem kept_pumpGo (h : Kept s0 s) (p n : Nat) : Kept s0 (pumpGo p n s) := by
  induction n generalizing s with
  | zero => exact h
  | succ n ih =>
    unfold pumpGo
    dsimp only
    split
    · exact h
    · refine (kept_ite ..).mpr ⟨fun _ => h, fun _ => ?_⟩
      split
      · exact h
      · rename_i x _ _ sh c _
        have h2 := fun g o => kept_emit (kept_modCredits (kept_modHawserPort h p g) p (fun _ => c)) o
        refine ih ?_
        split
        · exact (kept_ite ..).mpr ⟨fun _ => kept_sendIdle (h2 ..) .., fun _ => h2 ..⟩
        · exact h2 ..

@[simp] theorem kept_pump (h : Kept s0 s) (p : Nat) : Kept s0 (pump p s) := by
  simp [pump, h]

@[simp] theorem kept_sendFrom (h : Kept s0 s) (src : Option (Nat × Nat)) (p : Nat) (f : HFrame) : Kept s0 (sendFrom src p f s) := by
  simp [sendFrom, h]

@[simp] theorem kept_sendOn (h : Kept s0 s) (p : Nat) (f : HFrame) : Kept s0 (sendOn p f s) := by
  simp [sendOn, h]

@[simp] theorem kept_sendRoutedFrom (h : Kept s0 s) (src : Option (Nat × Nat)) (inPort : Nat) (i : Nat) (f : HFrame) : Kept s0 (sendRoutedFrom src inPort i f s) := by
  unfold sendRoutedFrom; dsimp only; (repeat' split) <;> simp [h]

@[simp] theorem kept_sendRouted (h : Kept s0 s) (inPort : Nat) (i : Nat) (f : HFrame) : Kept s0 (sendRouted inPort i f s) := by
  simp [sendRouted, h]

@[simp] theorem kept_sendMessage (h : Kept s0 s) (dest : Nat) (flow : Nat) (msg : Bytes) : Kept s0 (sendMessage dest flow msg s) := by
  simp +contextual [sendMessage, h, kept_foldl]

@[simp] theorem kept_sendNeighbour (h : Kept s0 s) (p : Nat) (typ : Nat) (msg : Bytes) : Kept s0 (sendNeighbour p typ msg s) := by
  simp [sendNeighbour, h]

@[simp] theorem kept_floodOn (h : Kept s0 s) (skip : Nat) (typ : Nat) (msg : Bytes) : Kept s0 (floodOn skip typ msg s) := by
  simp +contextual [floodOn, h, kept_foldl]

@[simp] theorem kept_floodTopo (h : Kept s0 s)  : Kept s0 (floodTopo s) := by
  simp [floodTopo, h]

@[simp] theorem kept_openFlow (h : Kept s0 s) (cmd : Nat) (dest : Nat) (berth : Nat) (offset : Nat) (data : Bytes) : Kept s0 (openFlow cmd dest berth offset data s) := by
  simp [openFlow, h]

@[simp] theorem kept_sendFlowData (h : Kept s0 s) (t : TxFlow) : Kept s0 (sendFlowData t s) := by
  simp +contextual [sendFlowData, h, kept_foldl]

@[simp] theorem kept_modWork (h : Kept s0 s) (cmd : Nat) (g : FleetWork → FleetWork) : Kept s0 (modWork cmd g s) := by
  exact h

@[simp] theorem kept_dropWork (h : Kept s0 s) (cmd : Nat) : Kept s0 (dropWork cmd s) := by
  exact h

@[simp] theorem kept_sendWork (h : Kept s0 s) (dest : Nat) (op : Nat) (berth : Nat) (tag : Nat) (params : Bytes) (part : Bytes) : Kept s0 (sendWork dest op berth tag params part s) := by
  simp [sendWork, h]

@[simp] theorem kept_sendResult (h : Kept s0 s) (dest : Nat) (berth : Nat) (tag : Nat) (block : StatusBlock) (counters : Bytes) : Kept s0 (sendResult dest berth tag block counters s) := by
  simp [sendResult, h]

@[simp] theorem kept_workSend (h : Kept s0 s) (cmd : Nat) (berth : Nat) : Kept s0 (workSend cmd berth s) := by
  grind [workSend, kept_modWork, kept_openFlow, kept_mk, keptBy_of, kept_foldl]

@[simp] theorem kept_flowTake (h : Kept s0 s) (cmd : Nat) (add : Bool) (f : Flow) (r : Nat × Nat × Nat) : Kept s0 (flowTake cmd add f r s) := by
  exact h

@[simp] theorem kept_workAdvance (h : Kept s0 s) (cmd b n : Nat) : Kept s0 (workAdvance cmd b n s) := by
  induction n generalizing s with
  | zero => exact h
  | succ n ih =>
    unfold workAdvance
    split
    · exact h
    · split
      · exact h
      · refine (kept_ite ..).mpr ⟨fun _ => ih (kept_workSend (kept_modWork h ..) ..), fun _ => ?_⟩
        split
        · exact ih (kept_flowTake h ..)
        · exact h

@[simp] theorem kept_workBegin (h : Kept s0 s) (cmd : Nat) (berth : Nat) : Kept s0 (workBegin cmd berth s) := by
  simp [workBegin, h]

@[simp] theorem kept_countReply (h : Kept s0 s) (port : Nat) (status : Nat) : Kept s0 (countReply port status s) := by
  exact h

@[simp] theorem kept_sendReply (h : Kept s0 s) (port : Nat) (ip : Addr) (udp : Nat) (r : Reply) : Kept s0 (sendReply port ip udp r s) := by
  simp [sendReply, h]

@[simp] theorem kept_cachePut (h : Kept s0 s) (b : Nat) (q : Nat) (x : BitVec 32) (c : Cached) : Kept s0 (cachePut b q x c s) := by
  exact h

@[simp] theorem kept_answer (h : Kept s0 s) (op : Nat) (f : Frame) (consumed : Bool) (status : Nat) (d : Detail) (fields : Bytes) (payload : Bytes) : Kept s0 (answer op f consumed status d fields payload s) := by
  simp [answer, h]

@[simp] theorem kept_sendNotice (h : Kept s0 s) (port : Nat) (ip : Addr) (udp : Nat) (op : Nat) (berth : Nat) (urgent : Bool) (block : StatusBlock) (fields : Bytes) (payload : Bytes) : Kept s0 (sendNotice port ip udp op berth urgent block fields payload s) := by
  simp [sendNotice, h]

@[simp] theorem kept_dropSlot (h : Kept s0 s) (b : Nat) (tag : BitVec 32) : Kept s0 (dropSlot b tag s) := by
  exact h

@[simp] theorem kept_modSlot (h : Kept s0 s) (b : Nat) (tag : BitVec 32) (g : Slot → Slot) : Kept s0 (modSlot b tag g s) := by
  exact h

@[simp] theorem kept_resultReady (h : Kept s0 s) (b : Nat) (q : Nat) (tag : BitVec 32) (block : StatusBlock) (total : Nat) : Kept s0 (resultReady b q tag block total s) := by
  unfold resultReady; dsimp only; (repeat' split) <;> simp [h]

@[simp] theorem kept_storeResult (h : Kept s0 s) (a : Active) (o : WorkOut) : Kept s0 (storeResult a o s) := by
  unfold storeResult; (repeat' split) <;> simp [h]

@[simp] theorem kept_countWaits (h : Kept s0 s) (a : Active) : Kept s0 (countWaits a s) := by
  simp [countWaits, h]

@[simp] theorem kept_unitsReleased (h : Kept s0 s) (a : Active) : Kept s0 (unitsReleased a s) := by
  simp [unitsReleased, h]

@[simp] theorem kept_countUe (h : Kept s0 s) (status : Nat) : Kept s0 (countUe status s) := by
  simp [countUe, h]

@[simp] theorem kept_drainIdle (h : Kept s0 s)  : Kept s0 (drainIdle s) := by
  unfold drainIdle; split <;> simp [h]

@[simp] theorem kept_complete (h : Kept s0 s) (a : Active) (o : WorkOut) : Kept s0 (complete a o s) := by
  have h1 : Kept s0 (countUe o.status (unitsReleased a (dropWork a.id (dropActive a.id s)))) :=
    kept_countUe (kept_unitsReleased (kept_dropWork (kept_dropActive h _) _) _) _
  refine kept_drainIdle ?_
  split
  · exact kept_sendResult h1 ..
  · exact (kept_ite ..).mpr ⟨fun _ => kept_storeResult h1 .., fun _ => kept_answer h1 ..⟩

@[simp] theorem kept_hostCharge (h : Kept s0 s) (b : Nat) (port : Nat) (n : Nat) : Kept s0 (hostCharge b port n s) := by
  simp [hostCharge, h]

@[simp] theorem kept_qpError (h : Kept s0 s) (qpn : BitVec 24) : Kept s0 (qpError qpn s) := by
  exact h

@[simp] theorem kept_addRegion (h : Kept s0 s) (b : Nat) (off : Nat) (len : Nat) (w : Bool) (r : Bool) (owner : RegionOwner) : Kept s0 (addRegion b off len w r owner s).1 := by
  exact h

@[simp] theorem kept_dropRegion (h : Kept s0 s) (rkey : BitVec 32) : Kept s0 (dropRegion rkey s) := by
  exact h

@[simp] theorem kept_setSb (h : Kept s0 s) (q : Nat) (sb : Superblock) : Kept s0 (setSb q sb s) := by
  exact h

@[simp] theorem kept_wornUpdate (h : Kept s0 s)  : Kept s0 (wornUpdate s) := by
  simp [wornUpdate, h]

@[simp] theorem kept_bufPush (h : Kept s0 s) (es : List BufEntry) : Kept s0 (bufPush es s) := by
  exact h

@[simp] theorem kept_programEntry (h : Kept s0 s) (e : BufEntry) : Kept s0 (programEntry e s) := by
  exact h

@[simp] theorem kept_programAll (h : Kept s0 s) (l : List BufEntry) : Kept s0 (programAll l s) := by
  induction l generalizing s with
  | nil => exact h
  | cons e l ih => exact ih (kept_programEntry h e)

@[simp] theorem kept_flushBuffer (h : Kept s0 s)  : Kept s0 (flushBuffer s) := by
  simp [flushBuffer, h]

@[simp] theorem kept_berthNotice (h : Kept s0 s) (b : Nat) (op : Nat) (fields : Bytes) (payload : Bytes) : Kept s0 (berthNotice b op fields payload s) := by
  simp [berthNotice, h]

@[simp] theorem kept_deliver (h : Kept s0 s) (a : Active) (r : DRef) : Kept s0 (deliver s a r).1 := by
  unfold deliver; (repeat' split) <;> simp [h]

@[simp] theorem kept_applyWrite (h : Kept s0 s) (a : Active) : Kept s0 (applyWrite s a) := by
  simp [applyWrite, h]

@[simp] theorem kept_tryApply (h : Kept s0 s) (a : Active) : Kept s0 (tryApply s a) := by
  simp [tryApply, h]

@[simp] theorem kept_applyWaiting (h : Kept s0 s)  : Kept s0 (applyWaiting s) := by
  simp +contextual [applyWaiting, h, kept_foldl]

@[simp] theorem kept_writeOut (h : Kept s0 s) (a : Active) : Kept s0 (writeOut s a).1 := by
  exact h

@[simp] theorem kept_placeRun (h : Kept s0 s) (q : Nat) (off : Nat) (n : Nat) (len : Nat) (whole : Bool) : Kept s0 (placeRun q off n len whole s).2 := by
  exact h

@[simp] theorem kept_placeRuns (h : Kept s0 s) (q size k off left : Nat) : Kept s0 (placeRuns q size k off left s).2 := by
  induction k generalizing s off left with
  | zero => exact h
  | succ k ih =>
    unfold placeRuns
    split
    · exact h
    · exact ih (kept_placeRun h ..) ..

@[simp] theorem kept_markDeleted (h : Kept s0 s) (q : Nat) (l : List Run) : Kept s0 (markDeleted q l s) := by
  induction l generalizing s with
  | nil => exact h
  | cons r l ih => exact ih (kept_setSb h ..)

@[simp] theorem kept_relocNotice (h : Kept s0 s) (berth : Nat) (x : Forward) : Kept s0 (relocNotice berth x s) := by
  simp [relocNotice, h]

@[simp] theorem kept_dropFwd (h : Kept s0 s) (hold : Nat) (token : BitVec 64) : Kept s0 (dropFwd hold token s) := by
  exact h

@[simp] theorem kept_retireDie (h : Kept s0 s) (q : Nat) (d : Nat) : Kept s0 (retireDie q d s) := by
  simp [retireDie, h]

@[simp] theorem kept_retireBlock (h : Kept s0 s) (q : Nat) (d : Nat) (p : Nat) (b : Nat) : Kept s0 (retireBlock q d p b s) := by
  grind [retireBlock, kept_modQuayMedia, kept_wornUpdate, kept_retireDie, kept_mk, keptBy_of, kept_foldl]

@[simp] theorem kept_dieAnswered (h : Kept s0 s) (q : Nat) (d : Nat) : Kept s0 (dieAnswered q d s) := by
  exact h

@[simp] theorem keptOut_execDieCommandTimeout (h : Kept s0 s) (t : Nat) (quay : Nat) (die : Nat) : KeptOut s0 (execDieCommandTimeout t quay die s) := by
  grind [keptOut_next, execDieCommandTimeout, kept_setNow, kept_modQuayMedia, kept_retireDie, kept_dieAnswered]

@[simp] theorem kept_logRead (h : Kept s0 s) (q : Nat) (retried : Bool) : Kept s0 (logRead q retried s) := by
  exact h

@[simp] theorem kept_loseCodewords (h : Kept s0 s) (r : NandRead) : Kept s0 (loseCodewords r s) := by
  unfold loseCodewords; split <;> simp [h]

@[simp] theorem keptOut_execNandReadComplete (h : Kept s0 s) (t : Nat) (r : NandRead) : KeptOut s0 (execNandReadComplete t r s) := by
  have h1 := kept_logRead (kept_dieAnswered (kept_setNow h t) r.quay r.die) r.quay (decide (0 < r.retries))
  have h2 : ∀ (c : Prop) [Decidable c] (g : Quay → Quay) {u}, Kept s0 u → Kept s0 (if c then modQuay r.quay g u else u) :=
    fun c _ g _ hu => (kept_ite ..).mpr ⟨fun _ => kept_modQuay hu _ g, fun _ => hu⟩
  have h3 : ∀ (c : Prop) [Decidable c] x {u}, Kept s0 u → Kept s0 (if c then u else setSb r.quay x u) :=
    fun c _ x _ hu => (kept_ite ..).mpr ⟨fun _ => hu, fun _ => kept_setSb hu ..⟩
  have h4 : ∀ (c : Prop) [Decidable c] x {u}, Kept s0 u → Kept s0 (if c then { u with lb := x } else u) :=
    fun c _ x _ hu => (kept_ite ..).mpr ⟨fun _ => hu.by.kept, fun _ => hu⟩
  unfold execNandReadComplete
  refine (keptOut_ite ..).mpr ⟨fun _ => kept_setNow h t, fun _ => (keptOut_next _).mpr ?_⟩
  refine (kept_ite ..).mpr ⟨fun _ => ?_, fun _ => kept_retireBlock ?_ ..⟩
  · exact kept_loseCodewords (h4 _ _ (h3 _ _ (h2 _ _ h1.by.kept))) r
  · exact kept_loseCodewords (h4 _ _ (h3 _ _ (h2 _ _ h1.by.kept))) r

@[simp] theorem kept_programOldest (h : Kept s0 s) (q k : Nat) (l : List BufEntry) : Kept s0 (programOldest q k l s).2 := by
  induction l generalizing s k with
  | nil => cases k <;> exact h
  | cons e l ih => cases k <;> grind [programOldest, kept_programEntry]

@[simp] theorem kept_countProgram (h : Kept s0 s) (p : NandProgram) : Kept s0 (countProgram p s) := by
  exact h

@[simp] theorem keptOut_execNandProgramComplete (h : Kept s0 s) (t : Nat) (p : NandProgram) : KeptOut s0 (execNandProgramComplete t p s) := by
  have h1 := kept_dieAnswered (kept_setNow h t) p.quay p.die
  unfold execNandProgramComplete
  refine (keptOut_ite ..).mpr ⟨fun _ => kept_setNow h t, fun _ => (keptOut_ite ..).mpr ⟨fun _ => ?_, fun _ => kept_retireBlock h1 ..⟩⟩
  exact kept_applyWaiting (kept_programOldest (kept_countProgram h1 p) ..).by.kept

@[simp] theorem keptOut_execNandEraseComplete (h : Kept s0 s) (t : Nat) (quay : Nat) (sb : Nat) (failed : List (Nat × Nat)) : KeptOut s0 (execNandEraseComplete t quay sb failed s) := by
  grind [keptOut_next, execNandEraseComplete, kept_setNow, kept_setSb, kept_modQuayMedia, kept_retireBlock, kept_mk, keptBy_of, kept_foldl]

@[simp] theorem keptOut_execDredging (h : Kept s0 s) (t quay : Nat) : KeptOut s0 (execDredging t quay s) := by
  have h1 := fun g => kept_modQuay (kept_setNow h t) quay g
  have h2 : ∀ (c : Prop) [Decidable c] x g, Kept s0 (if c then { modQuay quay g (setNow t s) with power := x } else modQuay quay g (setNow t s)) :=
    fun c _ x g => (kept_ite ..).mpr ⟨fun _ => (h1 g).by.kept, fun _ => h1 g⟩
  unfold execDredging
  refine (keptOut_ite ..).mpr ⟨fun _ => kept_setNow h t, fun _ => (keptOut_ite ..).mpr ⟨fun _ => h2 .., fun _ => ?_⟩⟩
  dsimp only
  split
  · exact h2 ..
  · exact (kept_setSb (kept_useFresh (h2 ..)) ..).by.kept

@[simp] theorem kept_leaveSb (h : Kept s0 s) (q : Nat) (sb : Nat) : Kept s0 (leaveSb q sb s) := by
  simp [leaveSb, h]

@[simp] theorem kept_relocateRun (h : Kept s0 s) (x : Hold) (i : Nat) (r : Run) : Kept s0 (relocateRun x i r s) := by
  unfold relocateRun
  exact kept_relocNotice (kept_leaveSb (kept_media (kept_modHold (kept_placeRun h ..) ..) _) ..) ..

@[simp] theorem keptOut_execRelocation (h : Kept s0 s) (t : Nat) (hold : Nat) (run : Nat) (cause : RelocCause) : KeptOut s0 (execRelocation t hold run cause s) := by
  unfold execRelocation; dsimp only; (repeat' split) <;> simp [h]

@[simp] theorem keptOut_execNoticeRepeat (h : Kept s0 s) (t : Nat) (hold : Nat) (token : BitVec 64) : KeptOut s0 (execNoticeRepeat t hold token s) := by
  grind [keptOut_next, execNoticeRepeat, kept_setNow, kept_relocNotice, kept_mk, keptBy_of, kept_foldl]

@[simp] theorem keptOut_execForwardingExpiry (h : Kept s0 s) (t : Nat) (hold : Nat) (token : BitVec 64) : KeptOut s0 (execForwardingExpiry t hold token s) := by
  grind [keptOut_next, execForwardingExpiry, kept_setNow, kept_dropFwd, kept_mk, keptBy_of, kept_foldl]

@[simp] theorem kept_relocateAll (h : Kept s0 s) (l : List (Nat × Run)) : Kept s0 (relocateAll l s) := by
  induction l generalizing s with
  | nil => exact h
  | cons x l ih => grind [relocateAll, kept_relocateRun]

@[simp] theorem keptOut_execWearLevelling (h : Kept s0 s) (t : Nat) (quay : Nat) : KeptOut s0 (execWearLevelling t quay s) := by
  grind [keptOut_next, execWearLevelling, kept_setNow, kept_setSb, kept_relocateAll]

@[simp] theorem keptOut_execPslcPoolTarget (h : Kept s0 s) (t : Nat) (quay : Nat) : KeptOut s0 (execPslcPoolTarget t quay s) := by
  simp [execPslcPoolTarget, h]

@[simp] theorem kept_mapCheckpoint (h : Kept s0 s)  : Kept s0 (mapCheckpoint s) := by
  exact h

@[simp] theorem keptOut_execMapCheckpoint (h : Kept s0 s) (t : Nat) : KeptOut s0 (execMapCheckpoint t s) := by
  simp [execMapCheckpoint, h]

@[simp] theorem keptOut_execQuayLinkLoss (h : Kept s0 s) (t : Nat) (quay : Nat) (resent : Nat) : KeptOut s0 (execQuayLinkLoss t quay resent s) := by
  simp [execQuayLinkLoss, h]

@[simp] theorem kept_loseQuay (h : Kept s0 s) (q : Nat) : Kept s0 (loseQuay q s) := by
  exact h

@[simp] theorem keptOut_execQuayLinkTrainTimeout (h : Kept s0 s) (t : Nat) (quay : Nat) : KeptOut s0 (execQuayLinkTrainTimeout t quay s) := by
  grind [keptOut_next, execQuayLinkTrainTimeout, kept_setNow, kept_modQuay, kept_loseQuay]

@[simp] theorem keptOut_execQuayLinkLock (h : Kept s0 s) (t : Nat) (quay : Nat) : KeptOut s0 (execQuayLinkLock t quay s) := by
  grind [keptOut_next, execQuayLinkLock, kept_setNow, kept_modQuay]

@[simp] theorem kept_modThermal (h : Kept s0 s) (g : Thermal → Thermal) : Kept s0 (modThermal g s) := by
  exact h

@[simp] theorem kept_modSensor (h : Kept s0 s) (x : Sensor) (g : SensorState → SensorState) : Kept s0 (modSensor x g s) := by
  exact h

@[simp] theorem kept_trackSteps (h : Kept s0 s)  : Kept s0 (trackSteps s) := by
  unfold trackSteps; split <;> simp [h]

@[simp] theorem kept_thermalEvent (h : Kept s0 s) (b : BitVec 4) : Kept s0 (thermalEvent b s) := by
  exact h

@[simp] theorem kept_quayHeat (h : Kept s0 s) (q : Nat) (v : Int) : Kept s0 (quayHeat q v s) := by
  exact h

@[simp] theorem kept_applyTemp (h : Kept s0 s) (x : Sensor) (v : Int) : Kept s0 (applyTemp x v s) := by
  have h1 := fun g => kept_modSensor h x g
  have h2 : ∀ (c : Prop) [Decidable c] g, Kept s0 (if c then thermalEvent 1 (modSensor x g s) else modSensor x g s) :=
    fun c _ g => (kept_ite ..).mpr ⟨fun _ => kept_thermalEvent (h1 g) 1, fun _ => h1 g⟩
  unfold applyTemp
  dsimp only
  split
  · exact kept_quayHeat ((kept_ite ..).mpr ⟨fun _ => kept_thermalEvent (h2 ..) 8, fun _ => h2 ..⟩) ..
  · exact (kept_ite ..).mpr ⟨fun _ => kept_thermalEvent (h2 ..) 8, fun _ => h2 ..⟩

@[simp] theorem kept_validTemp (h : Kept s0 s) (x : Sensor) (v : Int) : Kept s0 (validTemp x v s) := by
  unfold validTemp; dsimp only; (repeat' split) <;> simp [h]

@[simp] theorem keptOut_execTemperatureSample (h : Kept s0 s) (t : Nat) (x : Sensor) (v : Int) : KeptOut s0 (execTemperatureSample t x v s) := by
  simp [execTemperatureSample, h]

@[simp] theorem keptOut_execTempSensorTimeout (h : Kept s0 s) (t : Nat) (x : Sensor) : KeptOut s0 (execTempSensorTimeout t x s) := by
  grind [keptOut_next, execTempSensorTimeout, kept_setNow, kept_modSensor, kept_trackSteps, kept_thermalEvent, kept_modThermal]

@[simp] theorem keptOut_execThermalStepExit (h : Kept s0 s) (t : Nat) (x : Sensor) : KeptOut s0 (execThermalStepExit t x s) := by
  have h1 := (keptOut_next _).mpr (kept_setNow h t)
  unfold execThermalStepExit
  dsimp only
  split
  · exact (keptOut_ite ..).mpr ⟨fun _ => kept_trackSteps (kept_modSensor (kept_setNow h t) ..), fun _ => h1⟩
  · exact h1

@[simp] theorem kept_openSwitch (h : Kept s0 s) (cause : Nat) : Kept s0 (openSwitch cause s) := by
  simp [openSwitch, h]

@[simp] theorem keptOut_execThermalTrip (h : Kept s0 s) (t : Nat) (x : Sensor) : KeptOut s0 (execThermalTrip t x s) := by
  unfold execThermalTrip
  dsimp only
  split
  · exact (keptOut_ite ..).mpr ⟨fun _ => (kept_openSwitch (kept_setNow h t) _).by.kept, fun _ => kept_setNow h t⟩
  · exact kept_setNow h t

@[simp] theorem keptOut_execPowerSample (h : Kept s0 s) (t : Nat) (w : Int) : KeptOut s0 (execPowerSample t w s) := by
  have h1 := kept_setNow h t
  have h2 : ∀ (c : Prop) [Decidable c] g {u}, Kept s0 u → Kept s0 (if c then modThermal g u else u) :=
    fun c _ g _ hu => (kept_ite ..).mpr ⟨fun _ => kept_modThermal hu g, fun _ => hu⟩
  have h3 : ∀ (c : Prop) [Decidable c] g {u}, Kept s0 u → Kept s0 (if c then thermalEvent 1 (modThermal g u) else u) :=
    fun c _ g _ hu => (kept_ite ..).mpr ⟨fun _ => kept_thermalEvent (kept_modThermal hu g) 1, fun _ => hu⟩
  unfold execPowerSample
  refine (keptOut_ite ..).mpr ⟨fun _ => h1, fun _ => (keptOut_ite ..).mpr ⟨fun _ => kept_modThermal h1 _, fun _ => ?_⟩⟩
  exact kept_trackSteps (kept_modThermal (h3 _ _ (h2 _ _ (kept_modThermal h1 _))) _)

@[simp] theorem keptOut_execPowerSampleTimeout (h : Kept s0 s) (t : Nat) : KeptOut s0 (execPowerSampleTimeout t s) := by
  grind [keptOut_next, execPowerSampleTimeout, kept_setNow, kept_thermalEvent, kept_trackSteps, kept_modThermal]

@[simp] theorem keptOut_execPowerStepExit (h : Kept s0 s) (t : Nat) : KeptOut s0 (execPowerStepExit t s) := by
  have h1 := (keptOut_next _).mpr (kept_setNow h t)
  have h2 := fun g => (keptOut_next _).mpr (kept_trackSteps (kept_modThermal (kept_setNow h t) g))
  unfold execPowerStepExit
  dsimp only
  split
  · exact (keptOut_ite ..).mpr ⟨fun _ => h2 _, fun _ => h1⟩
  · exact h1

@[simp] theorem keptOut_execTideWindowStart (h : Kept s0 s) (t : Nat) (entry : Nat) : KeptOut s0 (execTideWindowStart t entry s) := by
  simp [execTideWindowStart, h]

@[simp] theorem keptOut_execTideWindowEnd (h : Kept s0 s) (t : Nat) (entry : Nat) : KeptOut s0 (execTideWindowEnd t entry s) := by
  simp [execTideWindowEnd, h]

@[simp] theorem keptOut_execTideTableSwitch (h : Kept s0 s) (t : Nat) : KeptOut s0 (execTideTableSwitch t s) := by
  have h1 := kept_setNow h t
  unfold execTideTableSwitch
  refine (keptOut_ite ..).mpr ⟨fun _ => h1, fun _ => ?_⟩
  dsimp only
  split
  · exact h1
  · exact (keptOut_ite ..).mpr ⟨fun _ => h1.by.kept, fun _ => h1⟩

@[simp] theorem kept_countLate (h : Kept s0 s) (e : Engine) : Kept s0 (countLate e s) := by
  unfold countLate; split <;> simp [h]

@[simp] theorem kept_countSwitch (h : Kept s0 s) (e : Engine) (b : Nat) (old : Option (Nat × Nat)) : Kept s0 (countSwitch e b s old) := by
  unfold countSwitch; split <;> simp [h]

@[simp] theorem keptOut_execEnginePartBoundary (h : Kept s0 s) (t : Nat) (e : Engine) : KeptOut s0 (execEnginePartBoundary t e s) := by
  have h1 := (kept_countLate (kept_setNow h t) e).by
  unfold execEnginePartBoundary
  refine (keptOut_ite ..).mpr ⟨fun _ => kept_setNow h t, fun _ => ?_⟩
  dsimp only
  split
  · exact kept_countSwitch h1.kept ..
  · exact h1.kept

@[simp] theorem kept_modClock (h : Kept s0 s) (g : Clock → Clock) : Kept s0 (modClock g s) := by
  exact h

@[simp] theorem kept_reject (h : Kept s0 s)  : Kept s0 (reject s) := by
  exact h

@[simp] theorem kept_enterHoldover (h : Kept s0 s)  : Kept s0 (enterHoldover s) := by
  exact h

@[simp] theorem kept_selectMaster (h : Kept s0 s)  : Kept s0 (selectMaster s) := by
  unfold selectMaster; dsimp only; (repeat' split) <;> simp [h]

@[simp] theorem keptOut_execPtpAnnounce (h : Kept s0 s) (t : Nat) (m : PtpMsg) : KeptOut s0 (execPtpAnnounce t m s) := by
  simp [execPtpAnnounce, h]

@[simp] theorem keptOut_execMasterLoss (h : Kept s0 s) (t : Nat) : KeptOut s0 (execMasterLoss t s) := by
  grind [keptOut_next, execMasterLoss, kept_setNow, kept_selectMaster, kept_modClock]

@[simp] theorem keptOut_execSync (h : Kept s0 s) (t : Nat) (m : PtpMsg) : KeptOut s0 (execSync t m s) := by
  simp [execSync, h]

@[simp] theorem keptOut_execFollowUp (h : Kept s0 s) (t : Nat) (m : PtpMsg) : KeptOut s0 (execFollowUp t m s) := by
  grind [keptOut_next, execFollowUp, kept_setNow, kept_reject, kept_modClock]

@[simp] theorem keptOut_execDelayReqSend (h : Kept s0 s) (t : Nat) : KeptOut s0 (execDelayReqSend t s) := by
  grind [keptOut_next, execDelayReqSend, kept_setNow, kept_emit, kept_modClock]

@[simp] theorem kept_timeStep (h : Kept s0 s) (d : Int) : Kept s0 (timeStep d s) := by
  exact h

@[simp] theorem kept_slew (h : Kept s0 s) (d : Int) : Kept s0 (slew d s) := by
  exact h

@[simp] theorem kept_lockClock (h : Kept s0 s) (est : Int) : Kept s0 (lockClock est s) := by
  simp [lockClock, h]

@[simp] theorem kept_servoStep (h : Kept s0 s) (m : Int) : Kept s0 (servoStep m s) := by
  simp [servoStep, h]

@[simp] theorem keptOut_execDelayResp (h : Kept s0 s) (t : Nat) (m : PtpMsg) : KeptOut s0 (execDelayResp t m s) := by
  grind [keptOut_next, execDelayResp, kept_setNow, kept_reject, kept_modClock, kept_servoStep]

@[simp] theorem keptOut_execSyncTimeout (h : Kept s0 s) (t : Nat) : KeptOut s0 (execSyncTimeout t s) := by
  simp [execSyncTimeout, h]

@[simp] theorem keptOut_execPpsPulse (h : Kept s0 s) (t : Nat) : KeptOut s0 (execPpsPulse t s) := by
  grind [keptOut_next, execPpsPulse, kept_setNow, kept_emit, kept_modClock]

@[simp] theorem kept_addTotals (h : Kept s0 s) (b : Nat) (r : Report) : Kept s0 (addTotals b r s) := by
  simp [addTotals, h]

@[simp] theorem kept_learnPeer (h : Kept s0 s) (m : Nat) (serial : Bytes) : Kept s0 (learnPeer m serial s) := by
  exact h

@[simp] theorem kept_forgetLost (h : Kept s0 s) (before : List Nat) : Kept s0 (forgetLost before s) := by
  exact h

@[simp] theorem kept_endMembers (h : Kept s0 s) (w : FleetWork) (block : StatusBlock) (skip : Nat) : Kept s0 (endMembers w block skip s) := by
  grind [endMembers, kept_sendResult, kept_mk, keptBy_of, kept_foldl]

@[simp] theorem kept_failCut (h : Kept s0 s) (before : State) : Kept s0 (failCut before s) := by
  grind [failCut, kept_modWork, kept_endMembers, kept_mk, keptBy_of, kept_foldl]

@[simp] theorem kept_hawserEvent (h : Kept s0 s) (p : Nat) : Kept s0 (hawserEvent p s) := by
  simp [hawserEvent, h]

@[simp] theorem kept_enterPort (h : Kept s0 s) (p : Nat) (st : HawserState) : Kept s0 (enterPort p st s) := by
  grind [enterPort, kept_modHawserPort, kept_hawserEvent, kept_floodTopo, kept_forgetLost, kept_failCut, kept_mk, keptBy_of, kept_foldl]

@[simp] theorem kept_grantLane (h : Kept s0 s) (p lane k n : Nat) : Kept s0 (grantLane p lane k n s) := by
  induction k generalizing s n with
  | zero => exact h
  | succ k ih => grind [grantLane, kept_sendIdle]

@[simp] theorem kept_grantAll (h : Kept s0 s) (p : Nat) : Kept s0 (grantAll p s) := by
  grind [grantAll, kept_grantLane, kept_mk, keptBy_of, kept_foldl]

@[simp] theorem kept_resendOne (h : Kept s0 s) (p : Nat) (x : BitVec 16 × Bytes) : Kept s0 (resendOne p x s) := by
  grind [resendOne, kept_emit, kept_modHawserPort, kept_modCredits, kept_mk, keptBy_of, kept_foldl]

@[simp] theorem kept_resendAll (h : Kept s0 s) (p : Nat) : Kept s0 (resendAll p s) := by
  simp +contextual [resendAll, h, kept_foldl]

@[simp] theorem kept_portTrained (h : Kept s0 s) (p : Nat) : Kept s0 (portTrained p s) := by
  grind [portTrained, kept_modHawserPort, kept_pump, kept_resendAll, kept_enterPort, kept_mk, keptBy_of, kept_foldl]

@[simp] theorem kept_startAttempt (h : Kept s0 s) (p : Nat) : Kept s0 (startAttempt p s) := by
  grind [startAttempt, kept_enterPort, kept_modCredits, kept_modHawserPort, kept_mk, keptBy_of, kept_foldl]

@[simp] theorem kept_moveFrames (h : Kept s0 s) (p : Nat) (frames : List Bytes) (peer : Nat) : Kept s0 (moveFrames p frames peer s) := by
  grind [moveFrames, kept_sendOn, kept_mk, keptBy_of, kept_foldl]

@[simp] theorem kept_leaveLink (h : Kept s0 s) (p : Nat) (st : HawserState) : Kept s0 (leaveLink p st s) := by
  grind [leaveLink, kept_modHawserPort, kept_moveFrames, kept_enterPort, kept_modCredits, kept_mk, keptBy_of, kept_foldl]

@[simp] theorem kept_portDown (h : Kept s0 s) (p : Nat) : Kept s0 (portDown p s) := by
  simp [portDown, h]

@[simp] theorem kept_failAttempt (h : Kept s0 s) (p : Nat) : Kept s0 (failAttempt p s) := by
  simp [failAttempt, h]

@[simp] theorem kept_refreshPort (h : Kept s0 s) (p : Nat) : Kept s0 (refreshPort p s) := by
  simp [refreshPort, h]

@[simp] theorem kept_refreshPorts (h : Kept s0 s)  : Kept s0 (refreshPorts s) := by
  simp +contextual [refreshPorts, h, kept_foldl]

@[simp] theorem kept_retrainAll (h : Kept s0 s)  : Kept s0 (retrainAll s) := by
  grind [retrainAll, kept_startAttempt, kept_modHawserPort, kept_refreshPort, kept_mk, keptBy_of, kept_foldl]

@[simp] theorem kept_sendIdent (h : Kept s0 s) (p : Nat) : Kept s0 (sendIdent p s) := by
  exact h

@[simp] theorem kept_judgeIdent (h : Kept s0 s) (p : Nat) (m : Bytes) : Kept s0 (judgeIdent p m s) := by
  grind [judgeIdent, kept_modHawserPort, kept_leaveLink, kept_learnPeer, kept_enterPort, kept_grantAll, kept_portTrained, kept_mk, keptBy_of, kept_foldl]

@[simp] theorem kept_startCollective (h : Kept s0 s) (a : Active) : Kept s0 (startCollective s a) := by
  grind [startCollective, kept_sendWork, kept_workBegin, kept_mk, keptBy_of, kept_foldl]

@[simp] theorem kept_collFinish (h : Kept s0 s) (a : Active) : Kept s0 (collFinish s a).1 := by
  unfold collFinish; dsimp only; (repeat' split) <;> simp [h]

@[simp] theorem kept_collWork (h : Kept s0 s) (a : Active) : Kept s0 (collWork s a).1 := by
  unfold collWork; (repeat' split) <;> simp [h]

@[simp] theorem kept_modStorm (h : Kept s0 s) (g : Storm → Storm) : Kept s0 (modStorm g s) := by
  exact h

@[simp] theorem kept_modMotion (h : Kept s0 s) (g : Motion → Motion) : Kept s0 (modMotion g s) := by
  exact h

@[simp] theorem kept_modOpenEvent (h : Kept s0 s) (g : MotionEvent → MotionEvent) : Kept s0 (modOpenEvent g s) := by
  simp [modOpenEvent, h]

@[simp] theorem kept_recordCause (h : Kept s0 s) (cause : BitVec 5) : Kept s0 (recordCause cause s) := by
  simp [recordCause, h]

@[simp] theorem kept_closeEvent (h : Kept s0 s)  : Kept s0 (closeEvent s) := by
  simp [closeEvent, h]

@[simp] theorem kept_recordSource (h : Kept s0 s) (alert : Bool) (v : BitVec 64) : Kept s0 (recordSource alert v s) := by
  simp [recordSource, h]

@[simp] theorem kept_announce (h : Kept s0 s)  : Kept s0 (announce s) := by
  grind [announce, kept_useFresh, kept_sendNotice, kept_sendOn, kept_mk, keptBy_of, kept_foldl]

@[simp] theorem kept_wakeAll (h : Kept s0 s)  : Kept s0 (wakeAll s) := by
  simp [wakeAll, h]

@[simp] theorem kept_stormBrace (h : Kept s0 s)  : Kept s0 (stormBrace s) := by
  simp [stormBrace, h]

@[simp] theorem kept_enterBrace (h : Kept s0 s) : Kept s0 (enterBrace s) := by
  unfold enterBrace
  exact kept_stormBrace (kept_modOpenEvent (kept_wakeAll (kept_storm (kept_enterState h .braced) _)) _)

@[simp] theorem kept_stormUpdate (h : Kept s0 s)  : Kept s0 (stormUpdate s) := by
  unfold stormUpdate; (repeat' split) <;> simp [h]

@[simp] theorem kept_stormRelease (h : Kept s0 s)  : Kept s0 (stormRelease s) := by
  simp [stormRelease, h]

@[simp] theorem kept_conditionOn (h : Kept s0 s) (cause : BitVec 5) : Kept s0 (conditionOn cause s) := by
  simp [conditionOn, h]

/-- The state that an alert leads to where it is taken. -/
theorem kept_takeAlert (h : Kept s0 s) (f : Frame) {u : State} (hu : takeAlert f s = .inl u) : Kept s0 u := by
  have hset := fun l => kept_storm h { s.storm with alerts := l }
  have hadd := fun v l => kept_recordSource (hset l) true v
  have hnew := fun v l g => kept_modOpenEvent (kept_recordCause (hadd v l) 4) g
  have hall : ∀ (c : Prop) [Decidable c] v l g, Kept s0 (if c then
      (if (modOpenEvent g (recordCause 4 (recordSource true v { s with storm := { s.storm with alerts := l } }))).dev.state = .draining
        then announce (modOpenEvent g (recordCause 4 (recordSource true v { s with storm := { s.storm with alerts := l } })))
        else stormUpdate (modOpenEvent g (recordCause 4 (recordSource true v { s with storm := { s.storm with alerts := l } }))))
      else recordCause 4 (recordSource true v { s with storm := { s.storm with alerts := l } })) := fun c _ v l g =>
    (kept_ite ..).mpr ⟨fun _ => (kept_ite ..).mpr ⟨fun _ => kept_announce (hnew v l g), fun _ => kept_stormUpdate (hnew v l g)⟩, fun _ => kept_recordCause (hadd v l) 4⟩
  have hinl : ∀ {x : State}, Kept s0 x → (Sum.inl x : State ⊕ Refuse) = .inl u → Kept s0 u := fun hx he => Sum.inl.inj he ▸ hx
  have hite : ∀ (c : Prop) [Decidable c] (x y : State ⊕ Refuse), (x = .inl u → Kept s0 u) → (y = .inl u → Kept s0 u) → (if c then x else y) = .inl u → Kept s0 u :=
    fun c _ x y hx hy => by split <;> assumption
  revert hu
  unfold takeAlert
  dsimp only
  split
  · exact hite _ _ _ (hinl h) (hite _ _ _ (hinl (kept_stormRelease (hset _))) (hinl (hall ..)))
  · exact hite _ _ _ (hinl h) (hite _ _ _ (fun he => nomatch he) (hinl (hall ..)))

@[simp] theorem kept_takeAnnounce (h : Kept s0 s) (src : Nat) (body : Bytes) : Kept s0 (takeAnnounce src body s) := by
  have hset : ∀ l, Kept s0 { s with storm := { s.storm with peers := l } } := fun _ => h
  grind [takeAnnounce, kept_stormRelease, kept_recordSource, kept_recordCause, kept_modOpenEvent, kept_announce, kept_stormUpdate]

@[simp] theorem kept_storeRaw (h : Kept s0 s) (x : Sample) : Kept s0 (storeRaw x s) := by
  simp [storeRaw, h]

@[simp] theorem kept_sensorFault (h : Kept s0 s)  : Kept s0 (sensorFault s) := by
  grind [sensorFault, kept_modMotion, kept_modOpenEvent, kept_mk, keptBy_of, kept_foldl]

@[simp] theorem kept_filterSample (h : Kept s0 s) (x : Sample) (valid : Bool) : Kept s0 (filterSample x valid s) := by
  grind [filterSample, kept_modMotion, kept_recordCause, kept_conditionOn, kept_stormRelease, kept_closeEvent, kept_modOpenEvent, kept_mk, keptBy_of, kept_foldl]

@[simp] theorem kept_missSample (h : Kept s0 s)  : Kept s0 (missSample s) := by
  grind [missSample, kept_storeRaw, kept_modMotion, kept_sensorFault, kept_filterSample, kept_mk, keptBy_of, kept_foldl]

@[simp] theorem kept_readSample (h : Kept s0 s) (x0 : Sample) : Kept s0 (readSample x0 s) := by
  grind [readSample, kept_modMotion, kept_modOpenEvent, kept_storeRaw, kept_sensorFault, kept_filterSample, kept_mk, keptBy_of, kept_foldl]

@[simp] theorem keptOut_execAccelerometerSample (h : Kept s0 s) (t : Nat) (sample : Option (BitVec 16 × BitVec 16 × BitVec 16)) : KeptOut s0 (execAccelerometerSample t sample s) := by
  grind [keptOut_next, execAccelerometerSample, kept_setNow, kept_modMotion, kept_readSample, kept_missSample]

@[simp] theorem keptOut_execAccelerometerFault (h : Kept s0 s) (t : Nat) : KeptOut s0 (execAccelerometerFault t s) := by
  simp [execAccelerometerFault, h]

@[simp] theorem keptOut_execAlertExpiry (h : Kept s0 s) (t : Nat) (source : BitVec 64) : KeptOut s0 (execAlertExpiry t source s) := by
  simp [execAlertExpiry, h]

@[simp] theorem keptOut_execPeerExpiry (h : Kept s0 s) (t : Nat) (moduleNo : Nat) : KeptOut s0 (execPeerExpiry t moduleNo s) := by
  simp [execPeerExpiry, h]

@[simp] theorem keptOut_execAnnouncementRepeat (h : Kept s0 s) (t : Nat) : KeptOut s0 (execAnnouncementRepeat t s) := by
  simp [execAnnouncementRepeat, h]

@[simp] theorem kept_setBerth (h : Kept s0 s) (b : Nat) (x : Berth) : Kept s0 (setBerth b x s) := by
  simp [setBerth, h]

@[simp] theorem kept_setBollard (h : Kept s0 s) (b : Nat) (n : Nat) (v : Nat) : Kept s0 (setBollard b n v s) := by
  simp [setBollard, h]

@[simp] theorem kept_serveTakes (h : Kept s0 s) (b n : Nat) (l : List Active) : Kept s0 (serveTakes b n l s) := by
  induction l generalizing s with
  | nil => exact h
  | cons a l ih => grind [serveTakes, kept_complete, kept_setBollard]

@[simp] theorem kept_give (h : Kept s0 s) (b : Nat) (n : Nat) (k : Nat) : Kept s0 (give b n k s) := by
  simp [give, h]

@[simp] theorem kept_bollardWork (h : Kept s0 s) (a : Active) : Kept s0 (bollardWork s a).1 := by
  simp [bollardWork, h]

@[simp] theorem kept_bollardAfter (h : Kept s0 s) (a : Active) : Kept s0 (bollardAfter s a) := by
  simp [bollardAfter, h]

@[simp] theorem kept_notReady (h : Kept s0 s) (b : Nat) (tag : BitVec 32) : Kept s0 (notReady s b tag).1 := by
  unfold notReady; split <;> simp [h]

@[simp] theorem kept_countCrane (h : Kept s0 s) (arrays : Nat) (m : Nat) (k : Nat) (n : Nat) (ch : Option Choice) : Kept s0 (countCrane arrays m k n ch s) := by
  exact h

@[simp] theorem kept_selectOut (h : Kept s0 s) (a : Active) (out : DRef) (k : Nat) (best : List (List Ent)) (excluded : List Nat) (c : SelCount) : Kept s0 (selectOut s a out k best excluded c).1 := by
  grind [selectOut, kept_modBerth, kept_useFresh, kept_putRef, kept_mk, keptBy_of, kept_foldl]

@[simp] theorem kept_selectHere (h : Kept s0 s) (a : Active) : Kept s0 (selectHere s a).1 := by
  unfold selectHere; split <;> simp [h]

@[simp] theorem kept_startSpan (h : Kept s0 s) (a : Active) : Kept s0 (startSpan s a) := by
  grind [startSpan, kept_modActive, kept_sendWork, kept_mk, keptBy_of, kept_foldl]

@[simp] theorem kept_startPeer (h : Kept s0 s) (a : Active) : Kept s0 (startPeer s a) := by
  simp [startPeer, h]

@[simp] theorem kept_selectSpan (h : Kept s0 s) (a : Active) : Kept s0 (selectSpan s a).1 := by
  unfold selectSpan; (repeat' split) <;> simp [h]

@[simp] theorem kept_settleIndex (h : Kept s0 s) (id : Nat) : Kept s0 (settleIndex id s) := by
  unfold settleIndex; split <;> simp [h]

@[simp] theorem kept_commitIndex (h : Kept s0 s) (x : VIndex) : Kept s0 (commitIndex x s) := by
  grind [commitIndex, kept_settleIndex, kept_modIndex, kept_mk, keptBy_of, kept_foldl]

@[simp] theorem kept_foldList (h : Kept s0 s) (id : Nat) (n : Nat) : Kept s0 (foldList id n s) := by
  unfold foldList; split <;> simp [h]

@[simp] theorem kept_makeTombRoom (h : Kept s0 s) (b q n k : Nat) : Kept s0 (makeTombRoom b q n k s) := by
  induction k generalizing s with
  | zero => exact h
  | succ k ih => grind [makeTombRoom, kept_foldList]

@[simp] theorem kept_tombRoom (h : Kept s0 s) (b : Nat) (perQuay : List Nat) : Kept s0 (tombRoom b perQuay s).1 := by
  simp +contextual [tombRoom, h, kept_foldl]

@[simp] theorem kept_countEvals (h : Kept s0 s) (b : Nat) (n : Nat) : Kept s0 (countEvals b n s) := by
  simp [countEvals, h]

@[simp] theorem kept_insertWork (h : Kept s0 s) (a : Active) : Kept s0 (insertWork s a).1 := by
  have h0 := kept_settleIndex h (par a.frame 0 4)
  have h1 := fun b n => kept_countEvals (kept_useFresh h0) b n
  unfold insertWork
  dsimp only
  split
  · exact h0
  · split
    · exact h1 ..
    · split
      · exact h1 ..
      · split
        · exact kept_tombRoom (h1 ..) ..
        · exact kept_tombRoom (h1 ..) ..
        · exact kept_commitIndex (kept_tombRoom (h1 ..) ..) _

@[simp] theorem kept_removeWork (h : Kept s0 s) (a : Active) : Kept s0 (removeWork s a).1 := by
  have h0 := kept_settleIndex h (par a.frame 0 4)
  unfold removeWork
  dsimp only
  split
  · exact h0
  · split
    · exact h0
    · split
      · exact h0
      · split
        · exact kept_tombRoom h0 ..
        · exact kept_tombRoom h0 ..
        · exact kept_commitIndex (kept_tombRoom h0 ..) _

@[simp] theorem kept_searchWork (h : Kept s0 s) (a : Active) : Kept s0 (searchWork s a).1 := by
  have h0 := kept_settleIndex h (par a.frame 0 4)
  unfold searchWork
  dsimp only
  split
  · exact h0
  · split
    · exact kept_useFresh h0
    · have h2 := fun b g => kept_modBerthStats (kept_useFresh h0) b g
      have h3 := fun (c : Bool) b g m n k l ch => (kept_ite (s0 := s0) c _ _).mpr ⟨fun _ => kept_countCrane (h2 b g) m n k l ch, fun _ => h2 b g⟩
      have h4 := fun (p : Prop) (_ : Decidable p) c b g m n k l ch x r bs => (kept_ite (s0 := s0) p _ _).mpr
        ⟨fun _ => h3 c b g m n k l ch, fun _ => kept_putRef (h3 c b g m n k l ch) x r bs⟩
      split
      · exact h4 ..
      · exact h4 ..

@[simp] theorem keptOut_execIndexFold (h : Kept s0 s) (t : Nat) (index : Nat) (quay : Nat) : KeptOut s0 (execIndexFold t index quay s) := by
  grind [keptOut_next, execIndexFold, kept_setNow, kept_foldList, kept_mk, keptBy_of, kept_foldl]

theorem kept_rebalCommit (h : Kept s0 s) (a : Active) {u : State} (hu : rebalCommit s a = some u) : Kept s0 u := by
  unfold rebalCommit at hu
  split at hu
  · cases hu
  · split at hu
    · cases hu
      exact kept_modActive (kept_countEvals (kept_commitIndex (kept_useFresh h) _) _ _) _ (by exact fun _ => rfl)
    · cases hu

@[simp] theorem kept_rebalFinish (h : Kept s0 s) (a : Active) : Kept s0 (rebalFinish s a).1 := by
  grind [rebalFinish, kept_countEvals, kept_modIndex, kept_useFresh, kept_mk, keptBy_of, kept_foldl]

theorem kept_retireSector (h : Kept s0 s) (l : Nat) (cause : Nat) {u : State} (hu : retireSector l cause s = some u) : Kept s0 u := by
  grind [retireSector, kept_mk, keptBy_of, kept_foldl]

@[simp] theorem kept_logReadOnly (h : Kept s0 s)  : Kept s0 (logReadOnly s) := by
  exact h

@[simp] theorem kept_programWord (h : Kept s0 s) (a : Nat) (v : BitVec 64) : Kept s0 (programWord a v s) := by
  exact h

@[simp] theorem kept_eraseSector (h : Kept s0 s) (l : Nat) : Kept s0 (eraseSector l s) := by
  exact h

@[simp] theorem kept_modBank (h : Kept s0 s) (k : Nat) (g : List BankOp → List BankOp) : Kept s0 (modBank k g s) := by
  exact h

@[simp] theorem kept_finishOp (h : Kept s0 s) (k : Nat) (out : WorkOut) : Kept s0 (finishOp k out s) := by
  unfold finishOp; dsimp only; (repeat' split) <;> simp [h]

@[simp] theorem kept_beginOps (h : Kept s0 s) (k n : Nat) : Kept s0 (beginOps k n s) := by
  induction n generalizing s with
  | zero => exact h
  | succ n ih =>
    have hbank : ∀ g lb, Kept s0 { modBank k g s with logbook := lb } := fun g _ => kept_modBank h k g
    grind [beginOps, kept_finishOp, kept_modBank]

@[simp] theorem kept_pushOp (h : Kept s0 s) (k : Nat) (o : BankOp) : Kept s0 (pushOp k o s) := by
  simp [pushOp, h]

@[simp] theorem kept_nextSector (h : Kept s0 s) (k : Nat) (o : BankOp) : Kept s0 (nextSector k o s) := by
  grind [nextSector, kept_modBank, kept_pushOp, kept_beginOps, kept_mk, keptBy_of, kept_foldl]

@[simp] theorem kept_opAdvance (h : Kept s0 s) (k : Nat) (o : BankOp) : Kept s0 (opAdvance k o s) := by
  grind [opAdvance, kept_programWord, kept_finishOp, kept_beginOps, kept_modBank, kept_eraseSector, kept_nextSector, kept_pushOp, kept_mk, keptBy_of, kept_foldl]

@[simp] theorem keptOut_execLogbookOperationComplete (h : Kept s0 s) (t bank : Nat) (ok : Bool) : KeptOut s0 (execLogbookOperationComplete t bank ok s) := by
  have h1 := kept_setNow h t
  unfold execLogbookOperationComplete
  refine (keptOut_ite ..).mpr ⟨fun _ => h1, fun _ => ?_⟩
  split
  · exact h1
  · refine (keptOut_ite ..).mpr ⟨fun _ => kept_opAdvance h1 .., fun _ => ?_⟩
    split
    · rename_i hr
      exact kept_opAdvance (kept_retireSector h1 _ _ hr) ..
    · exact kept_beginOps (kept_finishOp (kept_logReadOnly h1) ..) ..

@[simp] theorem keptOut_execLogbookCompaction (h : Kept s0 s) (t region : Nat) : KeptOut s0 (execLogbookCompaction t region s) := by
  have h1 := kept_setNow h t
  have h2 : Kept s0 { setNow t s with cmds := { (setNow t s).cmds with nextId := (setNow t s).cmds.nextId + 1 } } :=
    ⟨h1.pending, h1.now, h1.fixed, h1.berths, fun hs a ha => Nat.lt_succ_of_lt (h1.ids hs a ha), h1.sram⟩
  unfold execLogbookCompaction
  exact (keptOut_ite ..).mpr ⟨fun _ => h1, fun _ => (keptOut_ite ..).mpr ⟨fun _ => kept_pushOp h2 .., fun _ => h1⟩⟩

@[simp] theorem kept_countEcc (h : Kept s0 s) (a : Nat) (n : Nat) : Kept s0 (countEcc a n s) := by
  exact h

@[simp] theorem kept_dropOps (h : Kept s0 s) (id : Nat) : Kept s0 (dropOps s id) := by
  exact h

@[simp] theorem kept_logPowerFail (h : Kept s0 s)  : Kept s0 (logPowerFail s) := by
  grind [logPowerFail, kept_programWord, kept_mk, keptBy_of, kept_foldl]

@[simp] theorem kept_logMount (h : Kept s0 s)  : Kept s0 (logMount s) := by
  grind [logMount, kept_eraseSector, kept_mk, keptBy_of, kept_foldl]

@[simp] theorem kept_countRun (h : Kept s0 s) (r : RunSt) : Kept s0 (countRun r s) := by
  grind [countRun, kept_countCrane, kept_useFresh, kept_modQuay, kept_mk, keptBy_of, kept_foldl]

@[simp] theorem kept_unbindPlan (h : Kept s0 s) (id : Nat) : Kept s0 (unbindPlan id s) := by
  exact h

@[simp] theorem kept_countPlanRun (h : Kept s0 s) (b : Nat) (rows : Nat) (r : RunSt) : Kept s0 (countPlanRun b rows r s) := by
  simp [countPlanRun, h]

@[simp] theorem kept_settleRun (h : Kept s0 s) (a : Active) (e : RunEnv) (r : RunSt) (ok : Bool) : Kept s0 (settleRun a e r ok s) := by
  grind [settleRun, kept_modPlan, kept_countRun, kept_useFresh, kept_addTotals, kept_mk, keptBy_of, kept_foldl]

@[simp] theorem kept_runHere (h : Kept s0 s) (a : Active) (p : Plan) (input : Bytes) : Kept s0 (runHere s a p input).1 := by
  unfold runHere; dsimp only; (repeat' split) <;> simp [h]

@[simp] theorem kept_finishRun (h : Kept s0 s) (a : Active) (p : Plan) (r : RunSt) : Kept s0 (finishRun s a p r).1 := by
  simp [finishRun, h]

@[simp] theorem kept_sendPart (h : Kept s0 s) (s0_ : State) (a : Active) (mods : List (Nat × Nat)) (i : Nat) : Kept s0 (sendPart s0_ a mods i s) := by
  simp [sendPart, h]

@[simp] theorem kept_startSet (h : Kept s0 s) (a : Active) : Kept s0 (startSet s a) := by
  unfold startSet
  split
  · exact h
  · rename_i p _
    refine (kept_ite ..).mpr ⟨fun _ => h, fun _ => ?_⟩
    have hrun := kept_runHere h a p (refData s a 0 (inputRef a.frame))
    dsimp only
    split
    · exact kept_modActive hrun _ (by exact fun _ => rfl)
    · have hsent : ∀ g w l, (∀ a : Active, (g a).id = a.id) → Kept s0 ((List.range l).foldl (fun st i => sendPart s a p.peers i st)
          { modActive a.id g (runHere s a p (refData s a 0 (inputRef a.frame))).1 with hawser := w }) := fun g w l hg =>
        kept_foldl (fun u i hu => kept_sendPart hu ..) _ (kept_modActive hrun a.id hg)
      split
      · exact kept_openFlow (hsent _ _ _ (by exact fun _ => rfl)) ..
      · exact hsent _ _ _ (by exact fun _ => rfl)

@[simp] theorem kept_startMember (h : Kept s0 s) (a : Active) : Kept s0 (startMember s a) := by
  unfold startMember; split <;> simp [h]

@[simp] theorem kept_finishSet (h : Kept s0 s) (a : Active) (p : Plan) (own : WorkOut) : Kept s0 (finishSet s a p own).1 := by
  unfold finishSet; split <;> simp [h]

@[simp] theorem kept_finishMember (h : Kept s0 s) (a : Active) (p : Plan) : Kept s0 (finishMember s a p).1 := by
  unfold finishMember; dsimp only; (repeat' split) <;> simp [h]

@[simp] theorem kept_failRun (h : Kept s0 s) (a : Active) : Kept s0 (failRun s a) := by
  exact h

@[simp] theorem kept_adaptWork (h : Kept s0 s) (a : Active) (p : Plan) (targets : Bytes) : Kept s0 (adaptWork s a p targets).1 := by
  have hrun := kept_runHere h a p (refData s a 0 (inputRef a.frame))
  have hcount := kept_countPlanRun (kept_useFresh hrun) a.frame.berth (runRows a.frame) (runHere s a p (refData s a 0 (inputRef a.frame))).2.1
  unfold adaptWork
  dsimp only
  split
  · exact hrun
  · split
    · exact hcount
    · exact kept_modPlan hcount ..

@[simp] theorem kept_modCkpt (h : Kept s0 s) (b : Nat) (id : Nat) (g : Ckpt → Ckpt) : Kept s0 (modCkpt b id g s) := by
  exact h

@[simp] theorem kept_vaultEvent (h : Kept s0 s) (b : Nat) (ev : Nat) (id : Nat) (step : Nat) : Kept s0 (vaultEvent b ev id step s) := by
  simp [vaultEvent, h]

@[simp] theorem kept_checkLow (h : Kept s0 s) (b : Nat) : Kept s0 (checkLow b s) := by
  unfold checkLow; split <;> simp [h]

@[simp] theorem kept_modVstats (h : Kept s0 s) (b : Nat) (g : VaultStats → VaultStats) : Kept s0 (modVstats b g s) := by
  simp [modVstats, h]

@[simp] theorem kept_digestFail (h : Kept s0 s) (b : Nat) : Kept s0 (digestFail b s) := by
  simp [digestFail, h]

theorem kept_intakeWrite (h : Kept s0 s) (b id off : Nat) (data : Bytes) (port : Nat) {u : State} (hu : intakeWrite b id off data port s = some u) : Kept s0 u := by
  have h1 := fun g => kept_modVstats h b g
  have h2 := fun g k => kept_modCkpt (h1 g) b id k
  have hsome : ∀ {x : State}, Kept s0 x → some x = some u → Kept s0 u := fun hx he => Option.some.inj he ▸ hx
  have hite : ∀ (c : Prop) [Decidable c] (x y : Option State), (x = some u → Kept s0 u) → (y = some u → Kept s0 u) → (if c then x else y) = some u → Kept s0 u :=
    fun c _ x y hx hy => by split <;> assumption
  revert hu
  unfold intakeWrite
  split
  · exact hsome h
  · split
    · exact hsome h
    · refine hite _ _ _ (hsome (h1 _)) (hite _ _ _ (hsome (kept_modVstats (h2 ..) ..)) (hite _ _ _ (fun he => nomatch he) ?_))
      dsimp only
      split
      · exact hsome (h2 ..)
      · exact hite _ _ _ (hsome (kept_modCkpt (h2 ..) ..)) (hsome (kept_checkLow (h2 ..) _))

@[simp] theorem kept_stagingDiscard (h : Kept s0 s) (b : Nat) : Kept s0 (stagingDiscard b s) := by
  unfold stagingDiscard; split <;> simp [h]

@[simp] theorem kept_intakeImm (h : Kept s0 s) (b : Nat) (id : Nat) (imm : Nat) : Kept s0 (intakeImm b id imm s) := by
  exact h

@[simp] theorem kept_afterCommit (h : Kept s0 s) (b : Nat) (c : Ckpt) (elapsed : Nat) (gap : Nat) : Kept s0 (afterCommit b c elapsed gap s) := by
  grind [afterCommit, kept_modVstats, kept_modVault, kept_vaultEvent, kept_checkLow, kept_mk, keptBy_of, kept_foldl]

@[simp] theorem kept_breakCkpt (h : Kept s0 s) (b : Nat) (id : Nat) : Kept s0 (breakCkpt b id s) := by
  exact h

@[simp] theorem kept_commitWork (h : Kept s0 s) (a : Active) : Kept s0 (commitWork s a).1 := by
  unfold commitWork
  dsimp only
  split
  · exact h
  · split
    · exact h
    · rename_i c _
      split
      · exact kept_breakCkpt h ..
      · split
        · exact kept_breakCkpt h ..
        · split
          · exact kept_breakCkpt h ..
          · have h1 := fun m g => kept_modCkpt (kept_media h m) a.frame.berth (par a.frame 0 4) g
            exact kept_afterCommit ((kept_ite ..).mpr ⟨fun _ => kept_mapCheckpoint (h1 ..), fun _ => h1 ..⟩) ..

@[simp] theorem kept_scramble (h : Kept s0 s) (b use : Nat) (l : List (Tensor × DRef)) : Kept s0 (scramble b use l s) := by
  induction l generalizing s use with
  | nil => exact h
  | cons x l ih => grind [scramble, kept_putRef]

@[simp] theorem kept_restoreGo (h : Kept s0 s) (b : Nat) (v : Vault) (c : Ckpt) (l : List (Tensor × DRef)) : Kept s0 (restoreGo b v c l s).1 := by
  induction l generalizing s with
  | nil => exact h
  | cons x l ih => grind [restoreGo, kept_putRef, kept_scramble]

@[simp] theorem kept_digestBreak (h : Kept s0 s) (b : Nat) (id : Nat) (r : Refuse) : Kept s0 (digestBreak b id r s) := by
  simp [digestBreak, h]

@[simp] theorem kept_restoreWork (h : Kept s0 s) (a : Active) : Kept s0 (restoreWork s a).1 := by
  grind [restoreWork, kept_digestBreak, kept_restoreGo, kept_useFresh, kept_mk, keptBy_of, kept_foldl]

@[simp] theorem kept_verifyWork (h : Kept s0 s) (a : Active) : Kept s0 (verifyWork s a).1 := by
  unfold verifyWork; dsimp only; (repeat' split) <;> simp [h]

@[simp] theorem kept_modActives (h : Kept s0 s) (ids : List Nat) {g : Active → Active} (hg : ∀ a, (g a).id = a.id) : Kept s0 (modActives ids g s) :=
  kept_foldl (fun _ i hu => kept_modActive hu i hg) ids h

@[simp] theorem kept_servedBy (h : Kept s0 s) (ids : List Nat) (ck : Nat) : Kept s0 (servedBy ids ck s) := by
  simp [servedBy, h]

@[simp] theorem kept_consStart (h : Kept s0 s) (b : Nat) (c : Ckpt) : Kept s0 (consStart b c s) := by
  simp [consStart, h]

@[simp] theorem kept_consFailed (h : Kept s0 s) (b : Nat) (v : Vault) (c : Ckpt) : Kept s0 (consFailed b v c s) := by
  have h1 := kept_vaultEvent (kept_digestFail (kept_modVault (kept_breakCkpt h b c.id) b (fun v => { v with consRunning := none })) b) b 3 c.id c.step
  unfold consFailed
  dsimp only
  split
  · exact kept_consStart (kept_modActives h1 _ (by exact fun _ => rfl)) ..
  · exact kept_servedBy h1 ..

@[simp] theorem kept_consAbandon (h : Kept s0 s) (b : Nat) (id : Nat) : Kept s0 (consAbandon b id s) := by
  simp [consAbandon, h]

@[simp] theorem kept_consFinish (h : Kept s0 s) (b : Nat) (v : Vault) (c : Ckpt) : Kept s0 (consFinish b v c s) := by
  unfold consFinish
  refine (kept_ite ..).mpr ⟨fun _ => kept_consFailed h .., fun _ => ?_⟩
  refine (kept_ite ..).mpr ⟨fun _ => (kept_ite ..).mpr ⟨fun _ => kept_modVault h .., fun _ => kept_vaultEvent (kept_modVault h ..) ..⟩, fun _ => ?_⟩
  exact kept_checkLow (kept_vaultEvent (kept_servedBy (kept_modVstats (kept_modVault (kept_media h _) ..) ..) ..) ..) _

@[simp] theorem kept_consolidationStep (h : Kept s0 s) (b : Nat) : Kept s0 (consolidationStep b s) := by
  unfold consolidationStep; (repeat' split) <;> simp [h]

@[simp] theorem kept_captureDue (h : Kept s0 s) (b : Nat) : Kept s0 (captureDue b s) := by
  unfold captureDue; (repeat' split) <;> simp [h]

@[simp] theorem kept_vaultFlush (h : Kept s0 s)  : Kept s0 (vaultFlush s) := by
  grind [vaultFlush, kept_modVault, kept_modCkpt, kept_mk, keptBy_of, kept_foldl]

@[simp] theorem kept_vaultMountBroken (h : Kept s0 s) (l : List (Nat × Nat)) : Kept s0 (vaultMountBroken l s) := by
  grind [vaultMountBroken, kept_digestFail, kept_breakCkpt, kept_mk, keptBy_of, kept_foldl]

@[simp] theorem kept_setSide (h : Kept s0 s) (b : Nat) (index : Nat) (m : Mem) : Kept s0 (setSide b index m s) := by
  exact h

@[simp] theorem kept_dropSide (h : Kept s0 s) (rkey : BitVec 32) : Kept s0 (dropSide rkey s) := by
  unfold dropSide; split <;> simp [h]

@[simp] theorem kept_modSend (h : Kept s0 s) (b : Nat) (g : ReplSend → ReplSend) : Kept s0 (modSend b g s) := by
  exact h

@[simp] theorem kept_sendRecord (h : Kept s0 s) (v : Vault) (off : Nat) (rec8 : Bytes) (ty : Nat) : Kept s0 (sendRecord v off rec8 ty s) := by
  simp [sendRecord, h]

@[simp] theorem kept_writeStream (h : Kept s0 s) (v : Vault) (pos : Nat) (data : Bytes) : Kept s0 (writeStream v pos data s) := by
  simp [writeStream, h]

@[simp] theorem kept_pumpStream (h : Kept s0 s) (b : Nat) : Kept s0 (pumpStream b s) := by
  grind [pumpStream, kept_writeStream, kept_modSend, kept_sendRecord, kept_mk, keptBy_of, kept_foldl]

@[simp] theorem kept_beginStream (h : Kept s0 s) (b : Nat) (id : Nat) : Kept s0 (beginStream b id s) := by
  grind [beginStream, kept_modSend, kept_pumpStream, kept_sendRecord, kept_mk, keptBy_of, kept_foldl]

@[simp] theorem kept_nextStream (h : Kept s0 s) (b : Nat) : Kept s0 (nextStream b s) := by
  unfold nextStream; (repeat' split) <;> simp [h]

@[simp] theorem kept_replDown (h : Kept s0 s) (b : Nat) : Kept s0 (replDown b s) := by
  grind [replDown, kept_modSend, kept_modVault, kept_vaultEvent, kept_mk, keptBy_of, kept_foldl]

@[simp] theorem kept_replFail (h : Kept s0 s) (b : Nat) : Kept s0 (replFail b s) := by
  unfold replFail; (repeat' split) <;> simp [h]

@[simp] theorem kept_replQpError (h : Kept s0 s) (qpn : BitVec 24) : Kept s0 (replQpError qpn s) := by
  simp +contextual [replQpError, h, kept_foldl]

@[simp] theorem kept_replAcked (h : Kept s0 s) (b : Nat) (id : Nat) (status : Nat) : Kept s0 (replAcked b id status s) := by
  grind [replAcked, kept_modVault, kept_nextStream, kept_modSend, kept_beginStream, kept_vaultEvent, kept_mk, keptBy_of, kept_foldl]

@[simp] theorem kept_takeCredit8 (h : Kept s0 s) (b : Nat) : Kept s0 (takeCredit8 b s) := by
  unfold takeCredit8; (repeat' split) <;> simp [h]

@[simp] theorem kept_takeAck (h : Kept s0 s) (b : Nat) : Kept s0 (takeAck b s) := by
  unfold takeAck
  split
  · exact h
  · split
    · exact h
    · have h2 := fun i m g => kept_modSend (kept_setSide h b i m) b g
      refine (kept_ite ..).mpr ⟨fun _ => h, fun _ => kept_replAcked ((kept_ite ..).mpr ⟨fun _ => kept_vaultEvent (h2 ..) .., fun _ => h2 ..⟩) ..⟩

@[simp] theorem kept_replTimedOut (h : Kept s0 s) (b : Nat) : Kept s0 (replTimedOut b s) := by
  unfold replTimedOut; split <;> simp [h]

@[simp] theorem kept_replRetried (h : Kept s0 s) (b : Nat) : Kept s0 (replRetried b s) := by
  have hm := fun g => kept_modSend h b g
  unfold replRetried
  split
  · exact h
  · rename_i v _
    split
    · exact h
    · cases v.send.current with
      | none =>
        have hn := fun g => kept_nextStream (hm g) b
        simp [h, hm, hn]
      | some id =>
        have hn := fun g g' => kept_nextStream (kept_modSend (hm g) b g') b
        have hb := fun g => kept_beginStream (hm g) b id
        have hb0 := kept_beginStream h b id
        simp [h, hm, hn, hb, hb0]

@[simp] theorem kept_modRecv (h : Kept s0 s) (b : Nat) (g : ReplRecv → ReplRecv) : Kept s0 (modRecv b g s) := by
  exact h

@[simp] theorem kept_writeAck (h : Kept s0 s) (r : ReplRecv) (off : Nat) (data : Bytes) : Kept s0 (writeAck r off data s) := by
  simp [writeAck, h]

@[simp] theorem kept_replicaWrite (h : Kept s0 s) (b : Nat) (index : Nat) (qpn : BitVec 24) (off : Nat) (data : Bytes) : Kept s0 (replicaWrite b index qpn off data s) := by
  grind [replicaWrite, kept_modRecv, kept_setSide, kept_writeAck, kept_mk, keptBy_of, kept_foldl]

@[simp] theorem kept_replicaImm (h : Kept s0 s) (b : Nat) (index : Nat) (ty : Nat) : Kept s0 (replicaImm b index ty s) := by
  simp [replicaImm, h]

@[simp] theorem kept_popRecord (h : Kept s0 s) (b : Nat) : Kept s0 (popRecord b s) := by
  exact h

@[simp] theorem kept_takeHello (h : Kept s0 s) (b : Nat) : Kept s0 (takeHello b s) := by
  unfold takeHello; split <;> simp [h]

@[simp] theorem kept_takeBegin (h : Kept s0 s) (b : Nat) : Kept s0 (takeBegin b s) := by
  unfold takeBegin; split <;> simp [h]

@[simp] theorem kept_takeEnd (h : Kept s0 s) (b : Nat) : Kept s0 (takeEnd b s) := by
  have h1 := fun g => kept_modRecv (kept_popRecord h b) b g
  unfold takeEnd
  split
  · dsimp only
    split
    · exact kept_writeAck (h1 _) ..
    · exact kept_writeAck (kept_useFresh (kept_modVault (h1 _) ..)) ..
  · exact h

@[simp] theorem kept_replStart (h : Kept s0 s) (f : Frame) : Kept s0 (replStart f s) := by
  grind [replStart, kept_addRegion, kept_modVault, kept_nextStream, kept_sendRecord, kept_mk, keptBy_of, kept_foldl]

@[simp] theorem kept_replStop (h : Kept s0 s) (b : Nat) : Kept s0 (replStop b s) := by
  unfold replStop; split <;> simp [h]

@[simp] theorem keptOut_execConsolidation (h : Kept s0 s) (t : Nat) (berth : Nat) : KeptOut s0 (execConsolidation t berth s) := by
  grind [keptOut_next, execConsolidation, kept_nextStream, kept_consolidationStep, kept_setNow]

@[simp] theorem keptOut_execCaptureDue (h : Kept s0 s) (t : Nat) (berth : Nat) : KeptOut s0 (execCaptureDue t berth s) := by
  simp [execCaptureDue, h]

@[simp] theorem keptOut_execHello (h : Kept s0 s) (t : Nat) (berth : Nat) : KeptOut s0 (execHello t berth s) := by
  simp [execHello, h]

@[simp] theorem keptOut_execBegin (h : Kept s0 s) (t : Nat) (berth : Nat) : KeptOut s0 (execBegin t berth s) := by
  simp [execBegin, h]

@[simp] theorem keptOut_execEndRecord (h : Kept s0 s) (t : Nat) (berth : Nat) : KeptOut s0 (execEndRecord t berth s) := by
  simp [execEndRecord, h]

@[simp] theorem keptOut_execCredit (h : Kept s0 s) (t : Nat) (berth : Nat) : KeptOut s0 (execCredit t berth s) := by
  simp [execCredit, h]

@[simp] theorem keptOut_execAcknowledgement (h : Kept s0 s) (t : Nat) (berth : Nat) : KeptOut s0 (execAcknowledgement t berth s) := by
  simp [execAcknowledgement, h]

@[simp] theorem keptOut_execReplTimeout (h : Kept s0 s) (t : Nat) (berth : Nat) : KeptOut s0 (execReplTimeout t berth s) := by
  simp [execReplTimeout, h]

@[simp] theorem keptOut_execReplRetry (h : Kept s0 s) (t : Nat) (berth : Nat) : KeptOut s0 (execReplRetry t berth s) := by
  simp [execReplRetry, h]

@[simp] theorem kept_modUnit (h : Kept s0 s) (u : Nat) (i : Nat) (g : UnitStats → UnitStats) : Kept s0 (modUnit u i g s) := by
  exact h

@[simp] theorem kept_repairRecord (h : Kept s0 s) (u : Nat) (i : Nat) (b : Nat) (target : Nat) (line : Bool) (cause : Nat) : Kept s0 (repairRecord u i b target line cause s) := by
  simp [repairRecord, h]

@[simp] theorem kept_applyRepair (h : Kept s0 s) (r : RepairRecord) : Kept s0 (applyRepair s r) := by
  simp [applyRepair, h]

@[simp] theorem kept_applyRepairs (h : Kept s0 s)  : Kept s0 (applyRepairs s) := by
  simp +contextual [applyRepairs, h, kept_foldl]

@[simp] theorem kept_loseBuffered (h : Kept s0 s) (w : SramWord) : Kept s0 (loseBuffered w s) := by
  grind [loseBuffered, kept_modNs, kept_mk, keptBy_of, kept_foldl]

@[simp] theorem kept_sramUe (h : Kept s0 s) (w : SramWord) : Kept s0 (sramUe w s) := by
  grind [sramUe, kept_modUnit, kept_loseBuffered, kept_repairRecord, kept_mk, keptBy_of, kept_foldl]

@[simp] theorem kept_sramCe (h : Kept s0 s) (w : SramWord) (bit : Nat) : Kept s0 (sramCe w bit s) := by
  grind [sramCe, kept_modUnit, kept_repairRecord, kept_mk, keptBy_of, kept_foldl]

@[simp] theorem kept_scrubPass (h : Kept s0 s) (u : Nat) (i : Nat) : Kept s0 (scrubPass u i s) := by
  grind [scrubPass, kept_modUnit, kept_repairRecord, kept_mk, keptBy_of, kept_foldl]

@[simp] theorem keptOut_execPatrolScrub (h : Kept s0 s) (t : Nat) (w : SramWord) (r : ScrubResult) : KeptOut s0 (execPatrolScrub t w r s) := by
  unfold execPatrolScrub; split <;> simp [h]

@[simp] theorem keptOut_execPoisonRewrite (h : Kept s0 s) (t : Nat) (w : SramWord) : KeptOut s0 (execPoisonRewrite t w s) := by
  simp [execPoisonRewrite, h]

@[simp] theorem kept_powerOff (h : Kept s0 s) : Kept s0 (powerOff s) := by
  have h1 := kept_enterState (kept_closeEvent h) .powered
  exact ⟨h1.pending, h1.now, h1.fixed, List.length_map _ |>.trans h1.berths, fun _ a ha => absurd ha List.not_mem_nil, fun _ x hx => absurd hx List.not_mem_nil⟩

@[simp] theorem kept_railsOff (h : Kept s0 s) (kind : Nat) : Kept s0 (railsOff kind s) := by
  simp [railsOff, h]

@[simp] theorem kept_sealDown (h : Kept s0 s)  : Kept s0 (sealDown s) := by
  grind [sealDown, kept_mapCheckpoint, kept_flushBuffer, kept_mk, keptBy_of, kept_foldl]

@[simp] theorem kept_startDrain (h : Kept s0 s) (thenReset : Bool) (holdNs : Nat) (fromSideband : Bool) : Kept s0 (startDrain thenReset holdNs fromSideband s) := by
  grind [startDrain, kept_wakeAll, kept_enterState, kept_drainIdle, kept_mk, keptBy_of, kept_foldl]

@[simp] theorem kept_startReset (h : Kept s0 s) (holdNs : Nat) : Kept s0 (startReset holdNs s) := by
  simp [startReset, h]

@[simp] theorem keptOut_execHoldSExpiry (h : Kept s0 s) (t : Nat) : KeptOut s0 (execHoldSExpiry t s) := by
  grind [keptOut_next, execHoldSExpiry, kept_setNow, kept_mk, keptBy_of, kept_foldl]

@[simp] theorem keptOut_execDrainComplete (h : Kept s0 s) (t : Nat) : KeptOut s0 (execDrainComplete t s) := by
  have h1 := kept_sealDown (kept_setNow h t)
  unfold execDrainComplete
  dsimp only
  split
  · exact (keptOut_ite ..).mpr ⟨fun _ => (keptOut_ite ..).mpr ⟨fun _ => kept_railsOff h1 2, fun _ => (kept_powerOff h1).by.kept⟩, fun _ => kept_setNow h t⟩
  · exact kept_setNow h t

@[simp] theorem keptOut_execResetSealComplete (h : Kept s0 s) (t : Nat) : KeptOut s0 (execResetSealComplete t s) := by
  grind [keptOut_next, execResetSealComplete, kept_setNow, kept_railsOff, kept_sealDown]

@[simp] theorem keptOut_execRailsOffExpiry (h : Kept s0 s) (t : Nat) : KeptOut s0 (execRailsOffExpiry t s) := by
  unfold execRailsOffExpiry
  dsimp only
  split
  · exact (keptOut_ite ..).mpr ⟨fun _ => (kept_setNow h t).by.kept, fun _ => kept_setNow h t⟩
  · exact kept_setNow h t

@[simp] theorem kept_modFwSlot (h : Kept s0 s) (c : Nat) (i : Nat) (g : FwSlot → FwSlot) : Kept s0 (modFwSlot c i g s) := by
  exact h

@[simp] theorem kept_bootDock (h : Kept s0 s) (cause : Nat) (comp : Nat) (image : Nat) (reason : Nat) : Kept s0 (bootDock cause comp image reason s) := by
  exact h

@[simp] theorem kept_loadImages (h : Kept s0 s) (sel : BitVec 3) (trial : Bool) : Kept s0 (loadImages sel trial s) := by
  exact h

/-- What BOOT picks: the selection that verifies, or the state that docks. -/
theorem kept_bootPick (h : Kept s0 s) {u : State} (l : List Nat) (sel : BitVec 3) {acc : BitVec 3 ⊕ State} (ha : ∀ d, acc = .inr d → Kept s0 d)
    (hu : bootPick l sel s acc = .inr u) : Kept s0 u := by
  induction l generalizing acc with
  | nil => exact ha u hu
  | cons c l ih =>
    cases acc with
    | inr d => exact ha u hu
    | inl now =>
      unfold bootPick at hu
      dsimp only at hu
      split at hu
      · exact ih (by simp) hu
      · split at hu
        · exact ih (by simp) hu
        · exact Sum.inr.inj hu ▸ kept_bootDock h ..

@[simp] theorem kept_bootGood (h : Kept s0 s) : Kept s0 (bootGood s) := by
  unfold bootGood
  dsimp only
  split
  · rename_i hd
    exact kept_bootPick h _ _ (by simp) hd
  · have h1 : ∀ b, Kept s0 { s with boot := b } := fun _ => h
    have hs := fun o : Option Nat => fun g : Nat → Boot => show Kept s0 (match o with | some c => { s with boot := g c } | none => s) by cases o <;> exact h
    refine (kept_ite ..).mpr ⟨fun _ => kept_loadImages (hs ..) .., fun _ => kept_bootDock (hs ..) ..⟩

@[simp] theorem kept_revert (h : Kept s0 s) (k : Nat) (reason : Nat) : Kept s0 (revert k reason s) := by
  exact h

@[simp] theorem kept_pilotBoot (h : Kept s0 s)  : Kept s0 (pilotBoot s) := by
  grind [pilotBoot, kept_bootGood, kept_revert, kept_loadImages, kept_mk, keptBy_of, kept_foldl]

@[simp] theorem kept_activate (h : Kept s0 s) (sel : BitVec 3) : Kept s0 (activate s sel) := by
  simp [activate, h]

/-- Writing a parameter keeps what every step keeps. -/
def ParamKept (p : Param) : Prop := ∀ s0 s b v, Kept s0 s → Kept s0 (p.write b v s)

@[simp] theorem kept_setClass (h : Kept s0 s) (n : Nat) (v : Nat) : Kept s0 (setClass n v s) := by
  simp [setClass, h]

@[simp] theorem kept_modPower (h : Kept s0 s) (g : Power → Power) : Kept s0 (modPower g s) := by
  exact h

/-- What an opcode's rules do to the state keeps what every step keeps. -/
structure SpecKept (sp : CmdSpec) : Prop where
  take : ∀ {s0 s}, Kept s0 s → ∀ a, Kept s0 (sp.take s a) := by exact fun h _ => h
  start : ∀ {s0 s}, Kept s0 s → ∀ a, Kept s0 (sp.start s a) := by exact fun h _ => h
  arrived : ∀ {s0 s}, Kept s0 s → ∀ a, Kept s0 (sp.arrived s a) := by exact fun h _ => h
  step : ∀ {s0 s}, Kept s0 s → ∀ a u, sp.step s a = some u → Kept s0 u := by exact fun _ _ _ hu => nomatch hu
  work : ∀ {s0 s}, Kept s0 s → ∀ a, Kept s0 (sp.work s a).1 := by exact fun h _ => h
  fail : ∀ {s0 s}, Kept s0 s → ∀ a e, Kept s0 (sp.fail s a e) := by exact fun h _ _ => h
  after : ∀ {s0 s}, Kept s0 s → ∀ a, Kept s0 (sp.after s a) := by exact fun h _ => h

/-- Whatever parameter the choice gives, writing it keeps what every step keeps. -/
def ChoiceKept (o : Option Param) : Prop := ∀ p, o = some p → ParamKept p

theorem choiceKept_none : ChoiceKept none := fun _ hp => nomatch hp

theorem choiceKept_ite {c : Prop} [Decidable c] {q : Param} {o : Option Param} (hq : ParamKept q) (ho : ChoiceKept o) :
    ChoiceKept (if c then some q else o) := by
  intro p hp
  split at hp
  · exact Option.some.inj hp ▸ hq
  · exact ho p hp

/-- Most parameters are read only or write registers alone. -/
theorem paramLow_kept (n : Nat) : ChoiceKept (paramLow n) := by
  unfold paramLow
  repeat' refine choiceKept_ite ?_ ?_
  all_goals try exact fun _ _ _ _ h => h
  · exact fun _ _ _ _ h => kept_setClass h ..
  · exact fun _ _ _ _ h => kept_wornUpdate h.by.kept
  · exact fun _ _ _ _ h => kept_modBerth h ..
  · exact choiceKept_none

theorem paramMid_kept (n : Nat) : ChoiceKept (paramMid n) := by
  unfold paramMid
  repeat' refine choiceKept_ite ?_ ?_
  all_goals try exact fun _ _ _ _ h => h
  · exact fun _ _ _ _ h => kept_modBerth h ..
  · exact fun _ _ _ _ h => kept_modBerth h ..
  · exact fun _ _ _ _ h => kept_modBerth h ..
  · exact fun _ _ _ _ h => kept_modBerth h ..
  · exact choiceKept_none

theorem paramHigh_kept (n : Nat) : ChoiceKept (paramHigh n) := by
  unfold paramHigh
  repeat' refine choiceKept_ite ?_ ?_
  all_goals try exact fun _ _ _ _ h => h
  · exact fun _ _ _ _ h => kept_modBerth h ..
  · exact fun _ _ _ _ h => kept_modBerth h ..
  · exact choiceKept_none

theorem paramOf_kept {n : Nat} {p : Param} (hp : paramOf n = some p) : ParamKept p := by
  unfold paramOf at hp
  split at hp
  · exact paramLow_kept n p hp
  · split at hp
    · exact paramMid_kept n p hp
    · exact paramHigh_kept n p hp

@[simp] theorem kept_observeQps (h : Kept s0 s) (s0_ : State) : Kept s0 (observeQps s0_ s) := by
  grind [observeQps, kept_replQpError, kept_qpError, kept_mk, keptBy_of, kept_foldl]

theorem kept_applyEntries (h : Kept s0 s) (b : Nat) {l : List (SetEntry × Param × Nat)} (hl : ∀ x ∈ l, ParamKept x.2.1) : Kept s0 (applyEntries b l s) := by
  refine kept_observeQps ?_ s
  induction l generalizing s with
  | nil => exact h
  | cons x l ih => exact ih (hl x List.mem_cons_self _ _ _ _ h) (fun y hy => hl y (List.mem_cons_of_mem _ hy))

theorem newValues_kept (b : Nat) (l : List SetEntry) : ∀ x ∈ newValues s b l, ParamKept x.2.1 := by
  intro x hx
  obtain ⟨e, _, he⟩ := List.mem_filterMap.mp hx
  obtain ⟨p, hp, ht⟩ := Option.bind_eq_some_iff.mp he
  split at ht
  · exact Option.some.inj ht ▸ paramOf_kept hp
  · cases ht

theorem setCheck_kept {f : Frame} {l : List (SetEntry × Param × Nat)} (hl : setCheck s f = .inr l) : ∀ x ∈ l, ParamKept x.2.1 := by
  unfold setCheck at hl
  split at hl
  · cases hl
  · split at hl
    · cases hl
    · dsimp only at hl
      split at hl
      · cases hl
      · exact Sum.inr.inj hl ▸ newValues_kept _ _

@[simp] theorem kept_setWork (h : Kept s0 s) (a : Active) : Kept s0 (setWork s a).1 := by
  unfold setWork
  split
  · exact h
  · rename_i hl
    split
    · exact h
    · exact kept_applyEntries h _ (setCheck_kept hl)

theorem specKept_cmdQpCreate : SpecKept cmdQpCreate where
  work h a := by exact h

theorem specKept_cmdQpDestroy : SpecKept cmdQpDestroy where
  work h a := by exact h

theorem specKept_cmdRegionRegister : SpecKept cmdRegionRegister where
  work h a := by exact h

theorem specKept_cmdRegionDeregister : SpecKept cmdRegionDeregister where
  work h a := by exact h

theorem specKept_cmdNsCreate : SpecKept cmdNsCreate where
  work h a := by exact h

theorem specKept_cmdNsDelete : SpecKept cmdNsDelete where
  work h a := by simp [cmdNsDelete, h]

theorem specKept_cmdNsInfo : SpecKept cmdNsInfo where
  work h a := by unfold cmdNsInfo; dsimp only; split <;> simp [h]

theorem specKept_cmdNsFlush : SpecKept cmdNsFlush where

theorem specKept_cmdNsRead : SpecKept cmdNsRead where
  start h a := by simp [cmdNsRead, h]
  work h a := by simp [cmdNsRead, h]

theorem specKept_cmdNsWrite : SpecKept cmdNsWrite where
  start h a := by simp [cmdNsWrite, h]
  arrived h a := by simp [cmdNsWrite, h]
  work h a := by exact h

theorem specKept_cmdNsDiscard : SpecKept cmdNsDiscard where
  start h a := by simp [cmdNsDiscard, h]
  work h a := by exact h

theorem specKept_cmdHoldCreate : SpecKept cmdHoldCreate where
  work h a := by grind [cmdHoldCreate, kept_placeRuns, kept_useFresh, kept_mk, keptBy_of, kept_foldl]

theorem specKept_cmdHoldWrite : SpecKept cmdHoldWrite where
  work h a := by unfold cmdHoldWrite; dsimp only; split <;> simp [h]

theorem specKept_cmdHoldSeal : SpecKept cmdHoldSeal where
  work h a := by unfold cmdHoldSeal; dsimp only; split <;> simp [h]

theorem specKept_cmdHoldRead : SpecKept cmdHoldRead where
  start h a := by simp [cmdHoldRead, h]
  work h a := by simp [cmdHoldRead, h]

theorem specKept_cmdHoldDelete : SpecKept cmdHoldDelete where
  work h a := by grind [cmdHoldDelete, kept_markDeleted, kept_wornUpdate, kept_mk, keptBy_of, kept_foldl]

theorem specKept_cmdHoldInfo : SpecKept cmdHoldInfo where
  work h a := by unfold cmdHoldInfo; dsimp only; split <;> simp [h]

theorem specKept_cmdHoldMap : SpecKept cmdHoldMap where
  work h a := by unfold cmdHoldMap; dsimp only; split <;> simp [h]

theorem specKept_cmdRelocAck : SpecKept cmdRelocAck where
  work h a := by exact h

theorem specKept_cmdRelocList : SpecKept cmdRelocList where
  work h a := by exact h

theorem specKept_cmdTideLoad : SpecKept cmdTideLoad where
  work h a := by exact h

theorem specKept_cmdTideRead : SpecKept cmdTideRead where
  work h a := by unfold cmdTideRead; dsimp only; split <;> simp [h]

theorem specKept_cmdHawserInfo : SpecKept cmdHawserInfo where
  work h a := by exact h

theorem specKept_cmdHawserRetrain : SpecKept cmdHawserRetrain where
  work h a := by simp [cmdHawserRetrain, h]

theorem specKept_cmdFleetMap : SpecKept cmdFleetMap where
  work h a := by exact h

theorem specKept_cmdCollective : SpecKept cmdCollective where
  take h a := by simp [cmdCollective, h]
  start h a := by simp [cmdCollective, h]
  work h a := by simp [cmdCollective, h]

theorem specKept_cmdBraceAlert : SpecKept cmdBraceAlert where
  work h a := by
    unfold cmdBraceAlert
    dsimp only
    split
    · rename_i hu
      exact kept_takeAlert h _ hu
    · exact h

theorem specKept_cmdMotionEvents : SpecKept cmdMotionEvents where
  work h a := by exact h

theorem specKept_cmdMotionWaveform : SpecKept cmdMotionWaveform where
  work h a := by grind [cmdMotionWaveform, kept_putRef]

theorem specKept_cmdBerthCreate : SpecKept cmdBerthCreate where
  work h a := by simp [cmdBerthCreate, h]

theorem specKept_cmdBerthRelease : SpecKept cmdBerthRelease where
  work h a := by simp [cmdBerthRelease, h]

theorem specKept_cmdBerthSuspend : SpecKept cmdBerthSuspend where
  work h a := by simp [cmdBerthSuspend, h]

theorem specKept_cmdBerthResume : SpecKept cmdBerthResume where
  work h a := by simp [cmdBerthResume, h]

theorem specKept_cmdBerthInfo : SpecKept cmdBerthInfo where
  work h a := by exact h

theorem specKept_cmdBollard : SpecKept cmdBollard where
  work h a := by simp [cmdBollard, h]
  after h a := by simp [cmdBollard, h]

theorem specKept_cmdMailSend : SpecKept cmdMailSend where
  work h a := by grind [cmdMailSend, kept_modBerth]

theorem specKept_cmdMailRecv : SpecKept cmdMailRecv where
  work h a := by simp [cmdMailRecv, h]

theorem specKept_cmdEcho : SpecKept cmdEcho where
  work h a := by exact h

theorem specKept_cmdReadResult : SpecKept cmdReadResult where
  work h a := by grind [cmdReadResult, kept_notReady]

theorem specKept_cmdRelease : SpecKept cmdRelease where
  work h a := by grind [cmdRelease, kept_modSlot, kept_dropSlot]

theorem specKept_cmdQueueStatus : SpecKept cmdQueueStatus where
  work h a := by exact h

theorem specKept_cmdQueueSet : SpecKept cmdQueueSet where
  work h a := by exact h

theorem specKept_cmdSelectTopk : SpecKept cmdSelectTopk where
  take h a := by simp [cmdSelectTopk, h]
  start h a := by simp [cmdSelectTopk, h]
  work h a := by unfold cmdSelectTopk; dsimp only; split <;> simp [h]

theorem specKept_cmdSelectMerge : SpecKept cmdSelectMerge where
  work h a := by unfold cmdSelectMerge; dsimp only; split <;> simp [h]

theorem specKept_cmdIndexCreate : SpecKept cmdIndexCreate where
  work h a := by
    unfold cmdIndexCreate
    dsimp only
    split
    · exact h
    · split
      · exact h
      · split
        · exact h
        · split
          · exact h
          · split
            · exact h
            · exact kept_useFresh h.by.kept

theorem specKept_cmdIndexDelete : SpecKept cmdIndexDelete where
  work h a := by simp [cmdIndexDelete, h]

theorem specKept_cmdIndexInfo : SpecKept cmdIndexInfo where
  work h a := by unfold cmdIndexInfo; dsimp only; split <;> simp [h]

theorem specKept_cmdIndexInsert : SpecKept cmdIndexInsert where
  work h a := by simp [cmdIndexInsert, h]

theorem specKept_cmdIndexRemove : SpecKept cmdIndexRemove where
  work h a := by simp [cmdIndexRemove, h]

theorem specKept_cmdIndexSearch : SpecKept cmdIndexSearch where
  work h a := by simp [cmdIndexSearch, h]

theorem specKept_cmdIndexRebalance : SpecKept cmdIndexRebalance where
  step h a u hu := kept_rebalCommit h a hu
  work h a := by simp [cmdIndexRebalance, h]

theorem specKept_cmdLogbookInfo : SpecKept cmdLogbookInfo where
  work h a := by exact h

theorem specKept_cmdLogbookRead : SpecKept cmdLogbookRead where
  work h a := by grind [cmdLogbookRead, kept_useFresh, kept_countEcc]
  fail h a e := by unfold cmdLogbookRead; dsimp only; split <;> simp [h]

theorem specKept_cmdLogbookProgram : SpecKept cmdLogbookProgram where
  start h a := by simp [cmdLogbookProgram, h]
  fail h a e := by exact h

theorem specKept_cmdLogbookErase : SpecKept cmdLogbookErase where
  start h a := by simp [cmdLogbookErase, h]
  fail h a e := by exact h

theorem specKept_cmdLogbookSettings : SpecKept cmdLogbookSettings where
  work h a := by exact h

theorem specKept_cmdPlanLoad : SpecKept cmdPlanLoad where
  work h a := by grind [cmdPlanLoad, kept_useFresh, kept_mk, keptBy_of, kept_foldl]

theorem specKept_cmdPlanDelete : SpecKept cmdPlanDelete where
  work h a := by exact h

theorem specKept_cmdPlanInfo : SpecKept cmdPlanInfo where
  work h a := by unfold cmdPlanInfo; dsimp only; split <;> simp [h]

theorem specKept_cmdPlanBind : SpecKept cmdPlanBind where
  take h a := by exact h
  work h a := by
    unfold cmdPlanBind
    dsimp only
    split
    · exact h
    · split
      · exact kept_unbindPlan h _
      · exact kept_modPlan h.by.kept ..
  fail h a e := by exact h

theorem specKept_cmdPlanUnbind : SpecKept cmdPlanUnbind where
  work h a := by exact h

theorem specKept_cmdContextClear : SpecKept cmdContextClear where
  work h a := by exact h

theorem specKept_cmdPlanRun : SpecKept cmdPlanRun where
  take h a := by simp [cmdPlanRun, h]
  start h a := by simp [cmdPlanRun, h]
  arrived h a := by simp [cmdPlanRun, h]
  work h a := by grind [cmdPlanRun, kept_modActive, kept_startMember, kept_startSet, kept_failRun, kept_finishMember, kept_finishSet, kept_runHere, kept_finishRun]
  fail h a e := by exact h

theorem specKept_cmdPlanEstimate : SpecKept cmdPlanEstimate where
  work h a := by unfold cmdPlanEstimate; dsimp only; split <;> simp [h]

theorem specKept_cmdAdaptStep : SpecKept cmdAdaptStep where
  work h a := by grind [cmdAdaptStep, kept_adaptWork, kept_failRun]
  fail h a e := by exact h

theorem specKept_cmdAdaptExport : SpecKept cmdAdaptExport where
  work h a := by unfold cmdAdaptExport; dsimp only; split <;> simp [h]

theorem specKept_cmdAdaptReset : SpecKept cmdAdaptReset where
  work h a := by exact h

theorem specKept_cmdVaultCreate : SpecKept cmdVaultCreate where
  work h a := by exact h

theorem specKept_cmdVaultDelete : SpecKept cmdVaultDelete where
  work h a := by grind [cmdVaultDelete, kept_dropRegion, kept_wornUpdate, kept_mk, keptBy_of, kept_foldl]

theorem specKept_cmdVaultInfo : SpecKept cmdVaultInfo where
  work h a := by unfold cmdVaultInfo; dsimp only; split <;> simp [h]

theorem specKept_cmdVaultPlan : SpecKept cmdVaultPlan where
  work h a := by exact h

theorem specKept_cmdVaultBegin : SpecKept cmdVaultBegin where
  step h a u hu := by grind [cmdVaultBegin, kept_addRegion, kept_useFresh, kept_modVault]
  work h a := by grind [cmdVaultBegin, kept_addRegion, kept_useFresh, kept_modVault]

theorem specKept_cmdVaultCommit : SpecKept cmdVaultCommit where
  take h a := by unfold cmdVaultCommit; dsimp only; split <;> simp [h]
  work h a := by simp [cmdVaultCommit, h]
  fail h a e := by exact h

theorem specKept_cmdVaultCancel : SpecKept cmdVaultCancel where
  work h a := by unfold cmdVaultCancel; dsimp only; split <;> simp [h]

theorem specKept_cmdVaultList : SpecKept cmdVaultList where
  work h a := by unfold cmdVaultList; dsimp only; split <;> simp [h]

theorem specKept_cmdVaultManifest : SpecKept cmdVaultManifest where
  work h a := by unfold cmdVaultManifest; dsimp only; split <;> simp [h]

theorem specKept_cmdVaultRestore : SpecKept cmdVaultRestore where
  work h a := by simp [cmdVaultRestore, h]

theorem specKept_cmdVaultVerify : SpecKept cmdVaultVerify where
  work h a := by simp [cmdVaultVerify, h]

theorem specKept_cmdVaultKeep : SpecKept cmdVaultKeep where
  work h a := by exact h

theorem specKept_cmdVaultDrop : SpecKept cmdVaultDrop where
  work h a := by unfold cmdVaultDrop; dsimp only; split <;> simp [h]

theorem specKept_cmdVaultConsolidate : SpecKept cmdVaultConsolidate where
  start h a := by unfold cmdVaultConsolidate; dsimp only; split <;> simp [h]
  work h a := by exact h

theorem specKept_cmdReplAccept : SpecKept cmdReplAccept where
  work h a := by grind [cmdReplAccept, kept_modVault, kept_dropSide, kept_addRegion]

theorem specKept_cmdReplSet : SpecKept cmdReplSet where
  work h a := by simp [cmdReplSet, h]

theorem specKept_cmdDrain : SpecKept cmdDrain where
  work h a := by simp [cmdDrain, h]

theorem specKept_cmdReset : SpecKept cmdReset where
  work h a := by simp [cmdReset, h]

theorem specKept_cmdFwInfo : SpecKept cmdFwInfo where
  work h a := by exact h

theorem specKept_cmdFwStage : SpecKept cmdFwStage where
  take h a := by exact h
  work h a := by unfold cmdFwStage; dsimp only; split <;> simp [h]
  fail h a e := by exact h

theorem specKept_cmdFwActivate : SpecKept cmdFwActivate where
  work h a := by unfold cmdFwActivate; dsimp only; split <;> simp [h]
  after h a := by simp [cmdFwActivate, h]

theorem specKept_cmdFwCommit : SpecKept cmdFwCommit where
  work h a := by unfold cmdFwCommit; dsimp only; split <;> simp [h]

theorem specKept_cmdIdentity : SpecKept cmdIdentity where
  work h a := by exact h

theorem specKept_cmdAttest : SpecKept cmdAttest where
  work h a := by exact h

theorem specKept_cmdGetParam : SpecKept cmdGetParam where
  work h a := by exact h

theorem specKept_cmdSetParam : SpecKept cmdSetParam where
  work h a := by simp [cmdSetParam, h]
  after h a := by simp [cmdSetParam, h]

theorem deviceSpecs_kept : ∀ sp ∈ deviceSpecs, SpecKept sp := by
  simp only [deviceSpecs, List.forall_mem_cons]
  exact ⟨specKept_cmdEcho, specKept_cmdGetParam, specKept_cmdSetParam, specKept_cmdReadResult, specKept_cmdRelease, specKept_cmdQueueStatus, specKept_cmdQueueSet, specKept_cmdDrain, specKept_cmdReset, specKept_cmdQpCreate, specKept_cmdQpDestroy, specKept_cmdRegionRegister, specKept_cmdRegionDeregister, nofun⟩

theorem mediaSpecs_kept : ∀ sp ∈ mediaSpecs, SpecKept sp := by
  simp only [mediaSpecs, List.forall_mem_cons]
  exact ⟨specKept_cmdNsCreate, specKept_cmdNsDelete, specKept_cmdNsInfo, specKept_cmdNsRead, specKept_cmdNsWrite, specKept_cmdNsDiscard, specKept_cmdNsFlush, specKept_cmdHoldCreate, specKept_cmdHoldWrite, specKept_cmdHoldSeal, specKept_cmdHoldRead, specKept_cmdHoldDelete, specKept_cmdHoldInfo, specKept_cmdHoldMap, specKept_cmdRelocAck, specKept_cmdRelocList, nofun⟩

theorem planSpecs_kept : ∀ sp ∈ planSpecs, SpecKept sp := by
  simp only [planSpecs, List.forall_mem_cons]
  exact ⟨specKept_cmdPlanLoad, specKept_cmdPlanBind, specKept_cmdPlanUnbind, specKept_cmdPlanDelete, specKept_cmdPlanInfo, specKept_cmdPlanRun, specKept_cmdPlanEstimate, specKept_cmdContextClear, specKept_cmdAdaptStep, specKept_cmdAdaptExport, specKept_cmdAdaptReset, nofun⟩

theorem indexSpecs_kept : ∀ sp ∈ indexSpecs, SpecKept sp := by
  simp only [indexSpecs, List.forall_mem_cons]
  exact ⟨specKept_cmdIndexCreate, specKept_cmdIndexDelete, specKept_cmdIndexInfo, specKept_cmdIndexInsert, specKept_cmdIndexRemove, specKept_cmdIndexSearch, specKept_cmdIndexRebalance, nofun⟩

theorem selectSpecs_kept : ∀ sp ∈ selectSpecs, SpecKept sp := by
  simp only [selectSpecs, List.forall_mem_cons]
  exact ⟨specKept_cmdSelectTopk, specKept_cmdSelectMerge, nofun⟩

theorem vaultSpecs_kept : ∀ sp ∈ vaultSpecs, SpecKept sp := by
  simp only [vaultSpecs, List.forall_mem_cons]
  exact ⟨specKept_cmdVaultCreate, specKept_cmdVaultDelete, specKept_cmdVaultInfo, specKept_cmdVaultPlan, specKept_cmdVaultBegin, specKept_cmdVaultCommit, specKept_cmdVaultCancel, specKept_cmdVaultList, specKept_cmdVaultManifest, specKept_cmdVaultRestore, specKept_cmdVaultVerify, specKept_cmdVaultConsolidate, specKept_cmdVaultKeep, specKept_cmdVaultDrop, specKept_cmdReplAccept, specKept_cmdReplSet, nofun⟩

theorem berthSpecs_kept : ∀ sp ∈ berthSpecs, SpecKept sp := by
  simp only [berthSpecs, List.forall_mem_cons]
  exact ⟨specKept_cmdBerthCreate, specKept_cmdBerthRelease, specKept_cmdBerthSuspend, specKept_cmdBerthResume, specKept_cmdBerthInfo, specKept_cmdTideLoad, specKept_cmdTideRead, specKept_cmdBollard, specKept_cmdMailSend, specKept_cmdMailRecv, nofun⟩

theorem hawserSpecs_kept : ∀ sp ∈ hawserSpecs, SpecKept sp := by
  simp only [hawserSpecs, List.forall_mem_cons]
  exact ⟨specKept_cmdHawserInfo, specKept_cmdHawserRetrain, specKept_cmdFleetMap, specKept_cmdCollective, nofun⟩

theorem stormSpecs_kept : ∀ sp ∈ stormSpecs, SpecKept sp := by
  simp only [stormSpecs, List.forall_mem_cons]
  exact ⟨specKept_cmdBraceAlert, specKept_cmdMotionEvents, specKept_cmdMotionWaveform, nofun⟩

theorem logbookSpecs_kept : ∀ sp ∈ logbookSpecs, SpecKept sp := by
  simp only [logbookSpecs, List.forall_mem_cons]
  exact ⟨specKept_cmdLogbookInfo, specKept_cmdLogbookRead, specKept_cmdLogbookProgram, specKept_cmdLogbookErase, specKept_cmdLogbookSettings, nofun⟩

theorem trustSpecs_kept : ∀ sp ∈ trustSpecs, SpecKept sp := by
  simp only [trustSpecs, List.forall_mem_cons]
  exact ⟨specKept_cmdFwInfo, specKept_cmdFwStage, specKept_cmdFwActivate, specKept_cmdFwCommit, specKept_cmdIdentity, specKept_cmdAttest, nofun⟩

theorem groupSpecs_kept (n : Nat) : ∀ sp ∈ groupSpecs n, SpecKept sp := by
  unfold groupSpecs
  split
  · exact deviceSpecs_kept
  · exact mediaSpecs_kept
  · exact planSpecs_kept
  · exact indexSpecs_kept
  · exact selectSpecs_kept
  · exact vaultSpecs_kept
  · exact berthSpecs_kept
  · exact hawserSpecs_kept
  · exact stormSpecs_kept
  · exact logbookSpecs_kept
  · exact trustSpecs_kept
  · nofun

theorem specOf_kept {op : Nat} {sp : CmdSpec} (h : specOf op = some sp) : SpecKept sp :=
  groupSpecs_kept _ sp (List.mem_of_find?_eq_some h)

@[simp] theorem kept_judgedState (h : Kept s0 s)  : Kept s0 (judgedState s) := by
  simp [judgedState, h]

theorem kept_endWork {sp : CmdSpec} (hsp : SpecKept sp) (h : Kept s0 s) (e : Option WorkError) (a : Active) : Kept s0 (endWork sp e a s) := by
  unfold endWork
  refine hsp.after ?_ a
  split
  · rename_i e
    cases e with
    | sram w => exact kept_complete (hsp.fail (kept_sramUe h w) ..) ..
    | media | link => exact kept_complete (hsp.fail h ..) ..
  · split
    · exact kept_complete (hsp.fail h ..) ..
    · exact kept_complete (hsp.fail (kept_sramUe h _) ..) ..
    · exact kept_complete (hsp.work h a) ..

@[simp] theorem kept_fetchAll (h : Kept s0 s) (id : Nat) (l : List (Nat × DRef)) : Kept s0 (fetchAll id l s) := by
  induction l generalizing s with
  | nil => exact h
  | cons x l ih => exact ih (kept_sendRdmaRead h ..)

theorem kept_tryStart {sp : CmdSpec} (hsp : SpecKept sp) (h : Kept s0 s) (id : Nat) : Kept s0 (tryStart sp id s) := by
  unfold tryStart
  split
  · exact h
  · rename_i a _
    refine (kept_ite ..).mpr ⟨fun _ => h, fun _ => ?_⟩
    have h1 : Kept s0 (modActive id (fun b => { b with phase := phaseOf sp s a }) s) := kept_modActive h id (by exact fun _ => rfl)
    refine (kept_ite ..).mpr ⟨fun _ => (kept_ite ..).mpr ⟨fun _ => h1, fun _ => h1⟩, fun _ => ?_⟩
    have h3 := fun f x l => kept_modActive (g := fun a => { a with awaiting := l }) (hsp.start (kept_fetchAll h1 id f) x) id (by exact fun _ => rfl)
    dsimp only
    split
    · exact (kept_ite ..).mpr ⟨fun _ => kept_endWork hsp (h3 ..) .., fun _ => h3 ..⟩
    · exact h3 ..

/-- A new command gets the next identifier. -/
theorem kept_push (h : Kept s0 s) {a : Active} (ha : a.id = s.cmds.nextId) (l : List Slot) :
    Kept s0 { s with cmds := { nextId := s.cmds.nextId + 1, active := s.cmds.active ++ [a], slots := l } } := by
  refine ⟨h.pending, h.now, h.fixed, h.berths, fun hs x hx => ?_, h.sram⟩
  rcases List.mem_append.mp hx with hx | hx
  · exact Nat.lt_succ_of_lt (h.ids hs x hx)
  · rw [List.mem_singleton.mp hx, ha]
    exact Nat.lt_succ_self _

@[simp] theorem kept_enter (h : Kept s0 s) (sp : CmdSpec) (f : Frame) (c : Bool) : Kept s0 (enter sp f c s) := by
  have h1 := kept_push h (a := newActive sp f c s) rfl (if sp.result then newSlot sp f s :: s.cmds.slots else s.cmds.slots)
  unfold enter
  exact (kept_ite ..).mpr ⟨fun _ => h1, fun _ => kept_setQueue h1 _⟩

theorem kept_accept {sp : CmdSpec} (hsp : SpecKept sp) (h : Kept s0 s) (f : Frame) (c : Bool) : Kept s0 (accept sp f c s) := by
  have h1 := kept_enter h sp f c
  exact kept_tryStart hsp (hsp.take ((kept_ite ..).mpr ⟨fun _ => kept_answer h1 .., fun _ => h1⟩) _) _

@[simp] theorem kept_admitCommand (h : Kept s0 s) (op : Nat) (f : Frame) (c : Bool) : Kept s0 (admitCommand op f c s) := by
  unfold admitCommand
  split
  · exact kept_answer h ..
  · rename_i hop
    split
    · exact kept_answer h ..
    · exact kept_accept (specOf_kept hop) h ..

@[simp] theorem kept_freeReasm (h : Kept s0 s) (k : Frame) : Kept s0 (freeReasm k s) := by
  exact h

@[simp] theorem kept_followers (h : Kept s0 s) (b q n : Nat) : Kept s0 (followers b q n s) := by
  induction n generalizing s with
  | zero => exact h
  | succ n ih =>
    unfold followers
    dsimp only
    split
    · exact h
    · exact ih (kept_admitCommand (kept_freeReasm (kept_setQueue h _) _) ..)

@[simp] theorem kept_gapTimer (h : Kept s0 s) (b : Nat) (q : Nat) (e0 : BitVec 32) : Kept s0 (gapTimer b q e0 s) := by
  simp [gapTimer, h]

@[simp] theorem kept_inOrder (h : Kept s0 s) (op : Nat) (f : Frame) : Kept s0 (inOrder op f s) := by
  grind [inOrder, kept_setQueue, kept_followers, kept_admitCommand, kept_gapTimer, kept_mk, keptBy_of, kept_foldl]

@[simp] theorem kept_dupDrop (h : Kept s0 s) (port : Nat) : Kept s0 (dupDrop port s) := by
  exact h

@[simp] theorem kept_duplicate (h : Kept s0 s) (op : Nat) (f : Frame) : Kept s0 (duplicate op f s) := by
  unfold duplicate; split <;> simp [h]

@[simp] theorem kept_sequence (h : Kept s0 s) (op : Nat) (f : Frame) : Kept s0 (sequence op f s) := by
  simp [sequence, h]

@[simp] theorem kept_urgentPath (h : Kept s0 s) (op : Nat) (f : Frame) : Kept s0 (urgentPath op f s) := by
  unfold urgentPath
  split
  · exact kept_answer h ..
  · rename_i hop
    split
    · exact kept_answer h ..
    · exact kept_accept (specOf_kept hop) h ..

@[simp] theorem kept_submit (h : Kept s0 s) (op : Nat) (f : Frame) : Kept s0 (submit op f s) := by
  simp [submit, h]

@[simp] theorem kept_rememberRefused (h : Kept s0 s) (k : ReasmKey) : Kept s0 (rememberRefused k s) := by
  grind [rememberRefused, kept_mk, keptBy_of, kept_foldl]

@[simp] theorem kept_keepIfHeld (h : Kept s0 s) (r : Reasm) (f : Frame) : Kept s0 (keepIfHeld r f s) := by
  simp [keepIfHeld, h]

@[simp] theorem kept_manyFragments (h : Kept s0 s) (op n : Nat) (f : Frame) : Kept s0 (manyFragments op n f s) := by
  unfold manyFragments
  refine (kept_ite ..).mpr ⟨fun _ => kept_modPortStats h .., fun _ => (kept_ite ..).mpr ⟨fun _ => kept_modPortStats (kept_net h _) .., fun _ => ?_⟩⟩
  dsimp only
  split
  · exact kept_modPortStats (kept_rememberRefused (kept_answer (kept_net h _) ..) _) ..
  · exact kept_keepIfHeld (kept_submit (kept_net h _) ..) ..

@[simp] theorem kept_answerEach (h : Kept s0 s) (op : Nat) (f : Frame) (r : Refuse) (n : Nat) : Kept s0 (answerEach op f r n s) := by
  induction n generalizing s with
  | zero => exact h
  | succ n ih => exact ih (kept_answer h ..)

@[simp] theorem kept_runCommand (h : Kept s0 s) (op : Nat) (t : Nat) (f : Frame) : Kept s0 (runCommand op t f s) := by
  grind [runCommand, kept_setNow, kept_modPortStats, kept_hostCharge, kept_answerEach, kept_submit, kept_manyFragments, kept_mk, keptBy_of, kept_foldl]

@[simp] theorem kept_nextFragment (h : Kept s0 s) (d : Datagram) (r : Reasm) : Kept s0 (nextFragment d r s) := by
  grind [nextFragment, kept_dupDrop, kept_keepIfHeld, kept_submit, kept_mk, keptBy_of, kept_foldl]

@[simp] theorem kept_firstFragment (h : Kept s0 s) (d : Datagram) : Kept s0 (firstFragment d s) := by
  grind [firstFragment, kept_submit, kept_modPortStats, kept_rememberRefused, kept_answer, kept_mk, keptBy_of, kept_foldl]

@[simp] theorem kept_takeDatagram (h : Kept s0 s) (d : Datagram) : Kept s0 (takeDatagram d s) := by
  grind [takeDatagram, kept_modPortStats, kept_hostCharge, kept_answer, kept_nextFragment, kept_firstFragment, kept_mk, keptBy_of, kept_foldl]

@[simp] theorem keptOut_execNimoxFrame (h : Kept s0 s) (t : Nat) (d : Datagram) : KeptOut s0 (execNimoxFrame t d s) := by
  simp [execNimoxFrame, h]

@[simp] theorem keptOut_execReassemblyTimeout (h : Kept s0 s) (t : Nat) (k : ReasmKey) : KeptOut s0 (execReassemblyTimeout t k s) := by
  unfold execReassemblyTimeout; dsimp only; (repeat' split) <;> simp [h]

@[simp] theorem keptOut_execRefusedKeyExpiry (h : Kept s0 s) (t : Nat) (k : ReasmKey) : KeptOut s0 (execRefusedKeyExpiry t k s) := by
  simp [execRefusedKeyExpiry, h]

@[simp] theorem kept_skipNumbers (h : Kept s0 s) (b q port n : Nat) (x : BitVec 32) : Kept s0 (skipNumbers b q port n x s) := by
  induction n generalizing s x with
  | zero => exact h
  | succ n ih => exact ih (kept_countReply (kept_cachePut h ..) ..) _

@[simp] theorem keptOut_execSequenceGapTimeout (h : Kept s0 s) (t b q : Nat) : KeptOut s0 (execSequenceGapTimeout t b q s) := by
  have h1 := kept_setNow h t
  unfold execSequenceGapTimeout
  dsimp only
  split
  · exact (keptOut_ite ..).mpr ⟨fun _ => kept_gapTimer (kept_followers (kept_skipNumbers (kept_setQueue h1 _) ..) ..) .., fun _ => h1⟩
  · exact h1

@[simp] theorem keptOut_execCommandStart (h : Kept s0 s) (t id : Nat) : KeptOut s0 (execCommandStart t id s) := by
  have h1 := kept_setNow h t
  unfold execCommandStart
  dsimp only
  split
  · split
    · rename_i hop
      exact (kept_ite ..).mpr ⟨fun _ => kept_tryStart (specOf_kept hop) h1 id, fun _ => h1⟩
    · exact h1
  · exact h1

@[simp] theorem keptOut_execWorkCompletion (h : Kept s0 s) (t id : Nat) (err : Option WorkError) : KeptOut s0 (execWorkCompletion t id err s) := by
  have h1 := kept_setNow h t
  unfold execWorkCompletion
  dsimp only
  split
  · split
    · rename_i sp hop
      have hsp := specOf_kept hop
      refine (keptOut_ite ..).mpr ⟨fun _ => (keptOut_next _).mpr ?_, fun _ => h1⟩
      split
      · rename_i hu
        split at hu
        · exact hsp.step h1 _ _ hu
        · cases hu
      · exact kept_endWork hsp h1 ..
    · exact h1
  · exact h1

@[simp] theorem kept_hostData (h : Kept s0 s) (id i : Nat) (data : Bytes) : Kept s0 (hostData id i data s) := by
  have h1 := kept_modActive h id
    (g := fun a => { a with fetched := (i, data) :: a.fetched.filter (fun x => x.1 != i), awaiting := a.awaiting.filter (fun x => x != i) }) (fun _ => rfl)
  unfold hostData
  dsimp only
  split
  · split
    · rename_i hop
      exact (kept_ite ..).mpr ⟨fun _ => (specOf_kept hop).arrived h1 _, fun _ => h1⟩
    · exact h1
  · exact h1

@[simp] theorem kept_resendUnacked (h : Kept s0 s) (p : Nat) : Kept s0 (resendUnacked p s) := by
  grind [resendUnacked, kept_modHawserPort, kept_emit, kept_startAttempt, kept_mk, keptBy_of, kept_foldl]

@[simp] theorem kept_nakOnce (h : Kept s0 s) (p : Nat) : Kept s0 (nakOnce p s) := by
  simp [nakOnce, h]

@[simp] theorem kept_takeHeader (h : Kept s0 s) (p : Nat) (f : HFrame) : Kept s0 (takeHeader p f s) := by
  grind [takeHeader, kept_modHawserPort, kept_modCredits, kept_resendUnacked, kept_pump, kept_mk, keptBy_of, kept_foldl]

@[simp] theorem kept_takeFlowOpen (h : Kept s0 s) (src : Nat) (m : Bytes) : Kept s0 (takeFlowOpen src m s) := by
  simp [takeFlowOpen, h]

@[simp] theorem kept_addResult (h : Kept s0 s) (cmd : Nat) (src : Nat) (r : Bytes) : Kept s0 (addResult cmd src r s) := by
  exact h

@[simp] theorem kept_takeFlowAck (h : Kept s0 s) (src : Nat) (m : Bytes) : Kept s0 (takeFlowAck src m s) := by
  grind [takeFlowAck, kept_sendFlowData, kept_endMembers, kept_addResult, kept_mk, keptBy_of, kept_foldl]

@[simp] theorem kept_takeData (h : Kept s0 s) (p : Nat) (f : HFrame) : Kept s0 (takeData p f s) := by
  unfold takeData; (repeat' split) <;> simp [h]

@[simp] theorem kept_takeWork (h : Kept s0 s) (src b : Nat) (m : Bytes) : Kept s0 (takeWork src b m s) := by
  unfold takeWork
  dsimp only
  split
  · exact kept_sendResult h ..
  · rename_i sp hop
    have hsp := specOf_kept hop
    refine (kept_ite ..).mpr ⟨fun _ => kept_sendResult h .., fun _ => ?_⟩
    split
    · exact kept_sendResult h ..
    · exact kept_workAdvance (kept_tryStart hsp (hsp.take (kept_push h rfl _) _) _) ..

@[simp] theorem kept_takeResult (h : Kept s0 s) (src : Nat) (berth : Nat) (m : Bytes) : Kept s0 (takeResult src berth m s) := by
  unfold takeResult; dsimp only; (repeat' split) <;> simp [h]

@[simp] theorem kept_takeTopo (h : Kept s0 s) (p : Nat) (m : Bytes) : Kept s0 (takeTopo p m s) := by
  grind [takeTopo, kept_floodOn, kept_forgetLost, kept_failCut, kept_mk, keptBy_of, kept_foldl]

@[simp] theorem kept_takeAnnounceFrame (h : Kept s0 s) (p : Nat) (f : HFrame) : Kept s0 (takeAnnounceFrame p f s) := by
  grind [takeAnnounceFrame, kept_takeAnnounce, kept_sendOn, kept_mk, keptBy_of, kept_foldl]

@[simp] theorem kept_takeMessage (h : Kept s0 s) (p : Nat) (src : Nat) (flow : Nat) (m : Bytes) : Kept s0 (takeMessage p src flow m s) := by
  unfold takeMessage; split <;> simp [h]

@[simp] theorem kept_takeControl (h : Kept s0 s) (p : Nat) (f : HFrame) : Kept s0 (takeControl p f s) := by
  simp [takeControl, h]

@[simp] theorem kept_takeAccepted (h : Kept s0 s) (p : Nat) (f : HFrame) : Kept s0 (takeAccepted p f s) := by
  simp [takeAccepted, h]

@[simp] theorem kept_takeIdent (h : Kept s0 s) (p : Nat) (m : Bytes) : Kept s0 (takeIdent p m s) := by
  simp [takeIdent, h]

@[simp] theorem kept_takeGrant (h : Kept s0 s) (p : Nat) (f : HFrame) : Kept s0 (takeGrant p f s) := by
  simp [takeGrant, h]

@[simp] theorem kept_takeFrame (h : Kept s0 s) (p : Nat) (f : HFrame) : Kept s0 (takeFrame p f s) := by
  simp [takeFrame, h]

@[simp] theorem kept_hawserReceive (h : Kept s0 s) (t : Nat) (r : HawserRx) : Kept s0 (hawserReceive t r s) := by
  grind [hawserReceive, kept_setNow, kept_modHawserPort, kept_nakOnce, kept_takeFrame, kept_mk, keptBy_of, kept_foldl]

@[simp] theorem keptOut_execIdle (h : Kept s0 s) (t : Nat) (r : HawserRx) : KeptOut s0 (execIdle t r s) := by
  simp [execIdle, h]

@[simp] theorem keptOut_execData (h : Kept s0 s) (t : Nat) (r : HawserRx) : KeptOut s0 (execData t r s) := by
  simp [execData, h]

@[simp] theorem keptOut_execIdent (h : Kept s0 s) (t : Nat) (r : HawserRx) : KeptOut s0 (execIdent t r s) := by
  simp [execIdent, h]

@[simp] theorem keptOut_execTopo (h : Kept s0 s) (t : Nat) (r : HawserRx) : KeptOut s0 (execTopo t r s) := by
  simp [execTopo, h]

@[simp] theorem keptOut_execFlowOpen (h : Kept s0 s) (t : Nat) (r : HawserRx) : KeptOut s0 (execFlowOpen t r s) := by
  simp [execFlowOpen, h]

@[simp] theorem keptOut_execFlowAck (h : Kept s0 s) (t : Nat) (r : HawserRx) : KeptOut s0 (execFlowAck t r s) := by
  simp [execFlowAck, h]

@[simp] theorem keptOut_execWork (h : Kept s0 s) (t : Nat) (r : HawserRx) : KeptOut s0 (execWork t r s) := by
  simp [execWork, h]

@[simp] theorem keptOut_execResult (h : Kept s0 s) (t : Nat) (r : HawserRx) : KeptOut s0 (execResult t r s) := by
  simp [execResult, h]

@[simp] theorem keptOut_execAnnounce (h : Kept s0 s) (t : Nat) (r : HawserRx) : KeptOut s0 (execAnnounce t r s) := by
  simp [execAnnounce, h]

@[simp] theorem keptOut_execHawserReplayTimeout (h : Kept s0 s) (t : Nat) (port : Nat) : KeptOut s0 (execHawserReplayTimeout t port s) := by
  simp [execHawserReplayTimeout, h]

@[simp] theorem keptOut_execHawserTraining (h : Kept s0 s) (t : Nat) (port : Nat) : KeptOut s0 (execHawserTraining t port s) := by
  grind [keptOut_next, execHawserTraining, kept_setNow, kept_modHawserPort, kept_startAttempt]

@[simp] theorem keptOut_execLaneLock (h : Kept s0 s) (t : Nat) (port : Nat) (lanes : Nat) : KeptOut s0 (execLaneLock t port lanes s) := by
  grind [keptOut_next, execLaneLock, kept_setNow, kept_sendIdent, kept_modHawserPort]

@[simp] theorem keptOut_execTrainingStepTimeout (h : Kept s0 s) (t : Nat) (port : Nat) : KeptOut s0 (execTrainingStepTimeout t port s) := by
  simp [execTrainingStepTimeout, h]

@[simp] theorem keptOut_execHawserDownRetry (h : Kept s0 s) (t : Nat) (port : Nat) : KeptOut s0 (execHawserDownRetry t port s) := by
  simp [execHawserDownRetry, h]

@[simp] theorem keptOut_execIdentRecheck (h : Kept s0 s) (t : Nat) (port : Nat) : KeptOut s0 (execIdentRecheck t port s) := by
  grind [keptOut_next, execIdentRecheck, kept_setNow, kept_sendIdent, kept_modHawserPort, kept_judgeIdent]

@[simp] theorem keptOut_execHawserSignalLoss (h : Kept s0 s) (t : Nat) (port : Nat) : KeptOut s0 (execHawserSignalLoss t port s) := by
  simp [execHawserSignalLoss, h]

@[simp] theorem keptOut_execHostLinkAttemptTimeout (h : Kept s0 s) (t : Nat) (port : Nat) : KeptOut s0 (execHostLinkAttemptTimeout t port s) := by
  simp [execHostLinkAttemptTimeout, h]

@[simp] theorem keptOut_execHostLinkUp (h : Kept s0 s) (t : Nat) (port : Nat) (gbps : Nat) : KeptOut s0 (execHostLinkUp t port gbps s) := by
  simp [execHostLinkUp, h]

@[simp] theorem keptOut_execHostLinkLoss (h : Kept s0 s) (t : Nat) (port : Nat) : KeptOut s0 (execHostLinkLoss t port s) := by
  simp [execHostLinkLoss, h]

@[simp] theorem keptOut_execArpRequest (h : Kept s0 s) (t : Nat) (port : Nat) (target : BitVec 32) (senderIp : BitVec 32) (senderMac : BitVec 48) : KeptOut s0 (execArpRequest t port target senderIp senderMac s) := by
  simp [execArpRequest, h]

@[simp] theorem keptOut_execNeighborDiscovery (h : Kept s0 s) (t : Nat) (port : Nat) (target : Addr) (srcIp : Addr) : KeptOut s0 (execNeighborDiscovery t port target srcIp s) := by
  simp [execNeighborDiscovery, h]

@[simp] theorem keptOut_execIcmpEcho (h : Kept s0 s) (t : Nat) (port : Nat) (dstIp : Addr) (srcIp : Addr) (ident : BitVec 16) (seqNo : BitVec 16) (data : Bytes) : KeptOut s0 (execIcmpEcho t port dstIp srcIp ident seqNo data s) := by
  simp [execIcmpEcho, h]

@[simp] theorem keptOut_execLldpTransmit (h : Kept s0 s) (t : Nat) (port : Nat) : KeptOut s0 (execLldpTransmit t port s) := by
  grind [keptOut_next, execLldpTransmit, kept_setNow, kept_emit, kept_modPort]

@[simp] theorem keptOut_execPfcFrame (h : Kept s0 s) (t : Nat) (port : Nat) (priority : Nat) (pause : Bool) : KeptOut s0 (execPfcFrame t port priority pause s) := by
  unfold execPfcFrame; dsimp only; (repeat' split) <;> simp [h]

@[simp] theorem keptOut_execBraceSealComplete (h : Kept s0 s) (t : Nat) : KeptOut s0 (execBraceSealComplete t s) := by
  have h1 := kept_setNow h t
  unfold execBraceSealComplete
  exact (keptOut_ite ..).mpr ⟨fun _ => (kept_mapCheckpoint (kept_flushBuffer h1)).by.kept, fun _ => h1⟩

@[simp] theorem kept_freeKept (h : Kept s0 s)  : Kept s0 (freeKept s) := by
  exact h

@[simp] theorem kept_restartIdle (h : Kept s0 s)  : Kept s0 (restartIdle s) := by
  exact h

@[simp] theorem kept_takeHeldDown (h : Kept s0 s)  : Kept s0 (takeHeldDown s) := by
  simp [takeHeldDown, h]

@[simp] theorem kept_calmDown (h : Kept s0 s) : Kept s0 (calmDown s) := by
  exact kept_takeHeldDown (kept_freeKept (kept_restartIdle (kept_announce (kept_closeEvent (kept_enterState (kept_storm h _) .ready)))))

@[simp] theorem keptOut_execHoldOffExpiry (h : Kept s0 s) (t : Nat) : KeptOut s0 (execHoldOffExpiry t s) := by
  simp [execHoldOffExpiry, h]

@[simp] theorem kept_powerLost (h : Kept s0 s) : Kept s0 (powerLost s) := by
  have h1 := kept_closeEvent (kept_modOpenEvent h (fun e => { e with cause := e.cause ||| 16 }))
  exact kept_logPowerFail ⟨h1.pending, h1.now, h1.fixed, h1.berths, fun _ a ha => absurd ha List.not_mem_nil, h1.sram⟩

@[simp] theorem keptOut_execPowerFailAssertion (h : Kept s0 s) (t : Nat) : KeptOut s0 (execPowerFailAssertion t s) := by
  have h1 := kept_powerLost (kept_setNow h t)
  have h2 : ∀ (c : Prop) [Decidable c] x, Kept s0 (if c then announce { powerLost (setNow t s) with storm := x } else powerLost (setNow t s)) :=
    fun c _ x => (kept_ite ..).mpr ⟨fun _ => kept_announce (kept_storm h1 x), fun _ => h1⟩
  unfold execPowerFailAssertion
  exact (keptOut_ite ..).mpr ⟨fun _ => (h2 ..).by.kept, fun _ => kept_setNow h t⟩

@[simp] theorem keptOut_execPfGlitch (h : Kept s0 s) (t : Nat) : KeptOut s0 (execPfGlitch t s) := by
  simp [execPfGlitch, h]

@[simp] theorem kept_flushMedia (h : Kept s0 s) (began : Nat) : Kept s0 (flushMedia began s) := by
  grind [flushMedia, kept_vaultFlush, kept_flushBuffer, kept_mk, keptBy_of, kept_foldl]

@[simp] theorem keptOut_execFlushComplete (h : Kept s0 s) (t : Nat) (ok : Bool) : KeptOut s0 (execFlushComplete t ok s) := by
  have h1 := kept_setNow h t
  unfold execFlushComplete
  dsimp only
  split
  · exact (kept_powerOff ((kept_ite ..).mpr ⟨fun _ => kept_flushMedia h1 _, fun _ => h1⟩)).by.kept
  · exact h1

@[simp] theorem keptOut_execPowerRestored (h : Kept s0 s) (t : Nat) : KeptOut s0 (execPowerRestored t s) := by
  simp [execPowerRestored, h]

@[simp] theorem keptOut_execComparatorRearm (h : Kept s0 s) (t : Nat) : KeptOut s0 (execComparatorRearm t s) := by
  unfold execComparatorRearm; dsimp only; (repeat' split) <;> simp [h]

@[simp] theorem keptOut_execHoldupMeasurement (h : Kept s0 s) (t : Nat) (v1 : Nat) (v2 : Nat) : KeptOut s0 (execHoldupMeasurement t v1 v2 s) := by
  simp [execHoldupMeasurement, h]

@[simp] theorem kept_inputRemoved (h : Kept s0 s)  : Kept s0 (inputRemoved s) := by
  exact h

@[simp] theorem keptOut_execInputSwitchClose (h : Kept s0 s) (t : Nat) (removedMs : Nat) : KeptOut s0 (execInputSwitchClose t removedMs s) := by
  grind [keptOut_next, execInputSwitchClose, kept_setNow, kept_inputRemoved, kept_mk, keptBy_of, kept_foldl]

@[simp] theorem keptOut_execSenseBreak (h : Kept s0 s) (t : Nat) : KeptOut s0 (execSenseBreak t s) :=
  (kept_openSwitch (kept_setNow h t) 6).by.kept

@[simp] theorem keptOut_execOvervoltage (h : Kept s0 s) (t : Nat) : KeptOut s0 (execOvervoltage t s) :=
  (kept_openSwitch (kept_setNow h t) 5).by.kept

@[simp] theorem keptOut_execRailFault (h : Kept s0 s) (t : Nat) : KeptOut s0 (execRailFault t s) := by
  simp [execRailFault, h]

@[simp] theorem keptOut_execRailRetry (h : Kept s0 s) (t : Nat) : KeptOut s0 (execRailRetry t s) := by
  simp [execRailRetry, h]

@[simp] theorem kept_enterTrial (h : Kept s0 s)  : Kept s0 (enterTrial s) := by
  simp [enterTrial, h]

@[simp] theorem keptOut_execRailsInRegulation (h : Kept s0 s) (t : Nat) : KeptOut s0 (execRailsInRegulation t s) := by
  grind [keptOut_next, execRailsInRegulation, kept_setNow, kept_pilotBoot, kept_enterTrial]

@[simp] theorem keptOut_execComponentStart (h : Kept s0 s) (t : Nat) (component : Nat) (unitNo : Nat) : KeptOut s0 (execComponentStart t component unitNo s) := by
  unfold execComponentStart; dsimp only; (repeat' split) <;> simp [h]

@[simp] theorem kept_noStart (h : Kept s0 s) (c : Nat) : Kept s0 (noStart c s) := by
  simp [noStart, h]

@[simp] theorem keptOut_execStartTimeout (h : Kept s0 s) (t : Nat) (component : Nat) : KeptOut s0 (execStartTimeout t component s) := by
  unfold execStartTimeout; dsimp only; (repeat' split) <;> simp [h]

@[simp] theorem kept_enterMounting (h : Kept s0 s)  : Kept s0 (enterMounting s) := by
  grind [enterMounting, kept_enterState, kept_refreshPorts, kept_mk, keptBy_of, kept_foldl]

@[simp] theorem kept_mayMount (h : Kept s0 s)  : Kept s0 (mayMount s) := by
  simp [mayMount, h]

@[simp] theorem kept_dropPorts (h : Kept s0 s) (l : List Nat) : Kept s0 (dropPorts l s) := by
  simp +contextual [dropPorts, h, kept_foldl]

@[simp] theorem keptOut_execSeaTrialComplete (h : Kept s0 s) (t : Nat) (faults : TrialFaults) : KeptOut s0 (execSeaTrialComplete t faults s) := by
  have h1 := (kept_setNow h t).by
  unfold execSeaTrialComplete
  refine (keptOut_ite ..).mpr ⟨fun _ => ?_, fun _ => h1⟩
  dsimp only
  split
  · exact kept_mayMount (kept_dropPorts h1.kept _)
  · exact (kept_enterState (kept_dropPorts h1.kept _) .dryDock).by.kept

@[simp] theorem keptOut_execHoldupBankFull (h : Kept s0 s) (t : Nat) : KeptOut s0 (execHoldupBankFull t s) := by
  simp [execHoldupBankFull, h]

@[simp] theorem keptOut_execHoldupChargeTimeout (h : Kept s0 s) (t : Nat) : KeptOut s0 (execHoldupChargeTimeout t s) := by
  simp [execHoldupChargeTimeout, h]

@[simp] theorem kept_mountObjects (h : Kept s0 s) (offNs : List Nat) (offIx : List Nat) : Kept s0 (mountObjects offNs offIx s) := by
  exact h

@[simp] theorem kept_mountRecord (h : Kept s0 s)  : Kept s0 (mountRecord s) := by
  unfold mountRecord; split <;> simp [h]

@[simp] theorem kept_freshStart (h : Kept s0 s)  : Kept s0 (freshStart s) := by
  simp [freshStart, h]

@[simp] theorem kept_enterReady (h : Kept s0 s)  : Kept s0 (enterReady s) := by
  grind [enterReady, kept_enterState, kept_freshStart, kept_mk, keptBy_of, kept_foldl]

@[simp] theorem kept_braceAtOnce (h : Kept s0 s)  : Kept s0 (braceAtOnce s) := by
  simp [braceAtOnce, h]

@[simp] theorem keptOut_execMountingComplete (h : Kept s0 s) (t : Nat) (l l' : List Nat) (b : List (Nat × Nat)) : KeptOut s0 (execMountingComplete t l l' b s) := by
  have h1 := kept_setNow h t
  have h2 := kept_freeKept (kept_vaultMountBroken (kept_mountObjects (kept_logMount h1) l l') b)
  unfold execMountingComplete
  exact (keptOut_ite ..).mpr ⟨fun _ => kept_braceAtOnce (kept_enterReady (kept_mountRecord h2)), fun _ => h1⟩

@[simp] theorem kept_startWaiting (h : Kept s0 s) (l : List Nat) : Kept s0 (startWaiting l s) := by
  induction l generalizing s with
  | nil => exact h
  | cons id l ih =>
    refine ih ?_
    split
    · split
      · rename_i hop
        exact kept_tryStart (specOf_kept hop) h _
      · exact h
    · exact h

@[simp] theorem keptOut_execPowerExitComplete (h : Kept s0 s) (t : Nat) : KeptOut s0 (execPowerExitComplete t s) := by
  unfold execPowerExitComplete; dsimp only; (repeat' split) <;> simp [h]

@[simp] theorem keptOut_execIdleP1Timeout (h : Kept s0 s) (t : Nat) : KeptOut s0 (execIdleP1Timeout t s) := by
  simp [execIdleP1Timeout, h]

@[simp] theorem keptOut_execIdleP2Timeout (h : Kept s0 s) (t : Nat) : KeptOut s0 (execIdleP2Timeout t s) := by
  simp [execIdleP2Timeout, h]

@[simp] theorem keptOut_execIdleP3Timeout (h : Kept s0 s) (t : Nat) : KeptOut s0 (execIdleP3Timeout t s) := by
  simp [execIdleP3Timeout, h]

@[simp] theorem kept_failQp (h : Kept s0 s) (qpn : BitVec 24) : Kept s0 (failQp qpn s) := by
  simp [failQp, h]

@[simp] theorem kept_sendCnp (h : Kept s0 s) (q : Qp) : Kept s0 (sendCnp q s) := by
  simp [sendCnp, h]

theorem kept_discards (h : Kept s0 s) (q : Qp) {u : State} (hu : discards q s = some u) : Kept s0 u := by
  grind [discards, kept_modBerth, kept_mk, keptBy_of, kept_foldl]

@[simp] theorem kept_sendPfc (h : Kept s0 s) (port : Nat) (mask : BitVec 8) (pause : Bool) : Kept s0 (sendPfc port mask pause s) := by
  simp +contextual [sendPfc, h, kept_foldl]

@[simp] theorem kept_bufferLevel (h : Kept s0 s) (port : Nat) : Kept s0 (bufferLevel port s) := by
  grind [bufferLevel, kept_useFresh, kept_modPort, kept_sendPfc, kept_mk, keptBy_of, kept_foldl]

@[simp] theorem kept_congestion (h : Kept s0 s) (q : Qp) (p : RdmaPkt) : Kept s0 (congestion q p s) := by
  grind [congestion, kept_hostCharge, kept_bufferLevel, kept_sendCnp, kept_mk, keptBy_of, kept_foldl]

@[simp] theorem kept_nakQp (h : Kept s0 s) (q : Qp) (psn : BitVec 24) (code : NakCode) : Kept s0 (nakQp q psn code s) := by
  simp [nakQp, h]

@[simp] theorem kept_ackPackets (h : Kept s0 s) (q : Qp) (psn : BitVec 24) (n : Nat) : Kept s0 (ackPackets q psn n s) := by
  exact h

@[simp] theorem kept_serveWrite (h : Kept s0 s) (q : Qp) (p : RdmaPkt) (imm : Option (BitVec 32)) : Kept s0 (serveWrite q p imm s) := by
  unfold serveWrite
  dsimp only
  split
  · exact kept_nakQp h ..
  · split
    · exact (kept_ite ..).mpr ⟨fun _ => kept_nakQp h .., fun _ => kept_ackPackets (kept_clearPoison (kept_writeShare h ..) ..) ..⟩
    · split
      · exact kept_stagingDiscard h _
      · rename_i hw
        have h1 := kept_intakeWrite h _ _ _ _ _ hw
        refine kept_ackPackets ?_ ..
        split
        · exact kept_intakeImm h1 ..
        · exact h1
    · refine kept_ackPackets ?_ ..
      split
      · exact kept_replicaImm (kept_replicaWrite h ..) ..
      · exact kept_replicaWrite h ..
    · exact kept_ackPackets (kept_setSide h ..) ..

theorem kept_answerRead (h : Kept s0 s) (q : Qp) (p : RdmaPkt) (r : Region) {go : State → State} (hg : Kept s0 (go s)) : Kept s0 (answerRead q p r go s) := by
  unfold answerRead
  dsimp only
  split
  · exact kept_nakQp (kept_sramUe h _).by.kept ..
  · exact kept_emit hg _

@[simp] theorem kept_serveRead (h : Kept s0 s) (q : Qp) (p : RdmaPkt) : Kept s0 (serveRead q p s) := by
  unfold serveRead
  split
  · exact kept_nakQp h ..
  · exact kept_answerRead h _ _ _ (kept_modQp h ..)

@[simp] theorem kept_serveOld (h : Kept s0 s) (q : Qp) (p : RdmaPkt) : Kept s0 (serveOld q p s) := by
  unfold serveOld
  split
  · split
    · exact kept_answerRead h _ _ _ h
    · exact h
  · exact kept_emit h _
  all_goals exact h

@[simp] theorem kept_serveInOrder (h : Kept s0 s) (q : Qp) (p : RdmaPkt) (imm : Option (BitVec 32)) : Kept s0 (serveInOrder q p imm s) := by
  unfold serveInOrder; split <;> simp [h]

@[simp] theorem kept_serveByPsn (h : Kept s0 s) (q : Qp) (p : RdmaPkt) (imm : Option (BitVec 32)) : Kept s0 (serveByPsn q p imm s) := by
  simp [serveByPsn, h]

@[simp] theorem kept_takeRequest (h : Kept s0 s) (p : RdmaPkt) (imm : Option (BitVec 32)) : Kept s0 (takeRequest p imm s) := by
  grind [takeRequest, kept_modPortStats, kept_discards, kept_serveByPsn, kept_congestion, kept_mk, keptBy_of, kept_foldl]

@[simp] theorem keptOut_execRdmaWrite (h : Kept s0 s) (t : Nat) (p : RdmaPkt) : KeptOut s0 (execRdmaWrite t p s) := by
  simp [execRdmaWrite, h]

@[simp] theorem keptOut_execRdmaWriteWithImmediate (h : Kept s0 s) (t : Nat) (p : RdmaPkt) (imm : BitVec 32) : KeptOut s0 (execRdmaWriteWithImmediate t p imm s) := by
  simp [execRdmaWriteWithImmediate, h]

@[simp] theorem keptOut_execRdmaRead (h : Kept s0 s) (t : Nat) (p : RdmaPkt) : KeptOut s0 (execRdmaRead t p s) := by
  simp [execRdmaRead, h]

@[simp] theorem kept_discardObserved (h : Kept s0 s) (qpn : BitVec 24) : Kept s0 (discardObserved qpn s) := by
  unfold discardObserved; split <;> simp [h]

@[simp] theorem kept_resendRequests (h : Kept s0 s) (q : Qp) (l : List QpRequest) : Kept s0 (resendRequests q l s) := by
  induction l generalizing s with
  | nil => exact h
  | cons x l ih => exact ih (kept_emit h _)

@[simp] theorem kept_retryQp (h : Kept s0 s) (q : Qp) : Kept s0 (retryQp q s) := by
  simp [retryQp, h]

@[simp] theorem keptOut_execAckReceived (h : Kept s0 s) (t : Nat) (qpn : BitVec 24) (psn : BitVec 24) : KeptOut s0 (execAckReceived t qpn psn s) := by
  unfold execAckReceived; dsimp only; (repeat' split) <;> simp [h]

@[simp] theorem keptOut_execNakReceived (h : Kept s0 s) (t : Nat) (qpn : BitVec 24) (psn : BitVec 24) (code : NakCode) : KeptOut s0 (execNakReceived t qpn psn code s) := by
  grind [keptOut_next, execNakReceived, kept_setNow, kept_modQp, kept_retryQp, kept_failQp, kept_discardObserved]

@[simp] theorem keptOut_execAckTimeout (h : Kept s0 s) (t : Nat) (qpn : BitVec 24) : KeptOut s0 (execAckTimeout t qpn s) := by
  unfold execAckTimeout; dsimp only; (repeat' split) <;> simp [h]

@[simp] theorem keptOut_execRdmaReadResponse (h : Kept s0 s) (t : Nat) (qpn : BitVec 24) (psn : BitVec 24) (data : Bytes) : KeptOut s0 (execRdmaReadResponse t qpn psn data s) := by
  unfold execRdmaReadResponse; dsimp only; (repeat' split) <;> simp [h]

@[simp] theorem keptOut_execCongestionNotificationPacket (h : Kept s0 s) (t : Nat) (qpn : BitVec 24) : KeptOut s0 (execCongestionNotificationPacket t qpn s) := by
  unfold execCongestionNotificationPacket; dsimp only; (repeat' split) <;> simp [h]

@[simp] theorem keptOut_execRateRecovery (h : Kept s0 s) (t : Nat) (qpn : BitVec 24) : KeptOut s0 (execRateRecovery t qpn s) := by
  unfold execRateRecovery; dsimp only; (repeat' split) <;> simp [h]

@[simp] theorem keptOut_execEcho (h : Kept s0 s) (t : Nat) (f : Frame) : KeptOut s0 (execEcho t f s) := by
  simp [execEcho, h]

@[simp] theorem keptOut_execGetParam (h : Kept s0 s) (t : Nat) (f : Frame) : KeptOut s0 (execGetParam t f s) := by
  simp [execGetParam, h]

@[simp] theorem keptOut_execSetParam (h : Kept s0 s) (t : Nat) (f : Frame) : KeptOut s0 (execSetParam t f s) := by
  simp [execSetParam, h]

@[simp] theorem keptOut_execReadResult (h : Kept s0 s) (t : Nat) (f : Frame) : KeptOut s0 (execReadResult t f s) := by
  simp [execReadResult, h]

@[simp] theorem keptOut_execRelease (h : Kept s0 s) (t : Nat) (f : Frame) : KeptOut s0 (execRelease t f s) := by
  simp [execRelease, h]

@[simp] theorem keptOut_execQueueStatus (h : Kept s0 s) (t : Nat) (f : Frame) : KeptOut s0 (execQueueStatus t f s) := by
  simp [execQueueStatus, h]

@[simp] theorem keptOut_execQueueSet (h : Kept s0 s) (t : Nat) (f : Frame) : KeptOut s0 (execQueueSet t f s) := by
  simp [execQueueSet, h]

@[simp] theorem keptOut_execDrain (h : Kept s0 s) (t : Nat) (f : Frame) : KeptOut s0 (execDrain t f s) := by
  simp [execDrain, h]

@[simp] theorem keptOut_execReset (h : Kept s0 s) (t : Nat) (f : Frame) : KeptOut s0 (execReset t f s) := by
  simp [execReset, h]

@[simp] theorem keptOut_execQpCreate (h : Kept s0 s) (t : Nat) (f : Frame) : KeptOut s0 (execQpCreate t f s) := by
  simp [execQpCreate, h]

@[simp] theorem keptOut_execQpDestroy (h : Kept s0 s) (t : Nat) (f : Frame) : KeptOut s0 (execQpDestroy t f s) := by
  simp [execQpDestroy, h]

@[simp] theorem keptOut_execRegionRegister (h : Kept s0 s) (t : Nat) (f : Frame) : KeptOut s0 (execRegionRegister t f s) := by
  simp [execRegionRegister, h]

@[simp] theorem keptOut_execRegionDeregister (h : Kept s0 s) (t : Nat) (f : Frame) : KeptOut s0 (execRegionDeregister t f s) := by
  simp [execRegionDeregister, h]

@[simp] theorem keptOut_execPortClass (h : Kept s0 s) (t : Nat) (f : Frame) (port : Nat) (cls : BitVec 2) : KeptOut s0 (execPortClass t f port cls s) := by
  simp [execPortClass, h]

@[simp] theorem keptOut_execNimoxTransport (h : Kept s0 s) (t : Nat) (f : Frame) (value : BitVec 64) (mask : BitVec 64) : KeptOut s0 (execNimoxTransport t f value mask s) := by
  simp [execNimoxTransport, h]

@[simp] theorem keptOut_execBerthShares (h : Kept s0 s) (t : Nat) (f : Frame) (value : BitVec 128) (mask : BitVec 128) : KeptOut s0 (execBerthShares t f value mask s) := by
  simp [execBerthShares, h]

@[simp] theorem keptOut_execBreakwater (h : Kept s0 s) (t : Nat) (f : Frame) (value : BitVec 128) (mask : BitVec 128) : KeptOut s0 (execBreakwater t f value mask s) := by
  simp [execBreakwater, h]

@[simp] theorem keptOut_execHawserConfig (h : Kept s0 s) (t : Nat) (f : Frame) (value : BitVec 64) (mask : BitVec 64) : KeptOut s0 (execHawserConfig t f value mask s) := by
  simp [execHawserConfig, h]

@[simp] theorem keptOut_execUserWp (h : Kept s0 s) (t : Nat) (f : Frame) (group : Nat) (on : Bool) : KeptOut s0 (execUserWp t f group on s) := by
  simp [execUserWp, h]

@[simp] theorem keptOut_execFloor (h : Kept s0 s) (t : Nat) (f : Frame) (value : BitVec 16) : KeptOut s0 (execFloor t f value s) := by
  simp [execFloor, h]

@[simp] theorem keptOut_execRevoke (h : Kept s0 s) (t : Nat) (f : Frame) (key : Nat) : KeptOut s0 (execRevoke t f key s) := by
  simp [execRevoke, h]

@[simp] theorem keptOut_execEventsClear (h : Kept s0 s) (t : Nat) (f : Frame) (pid : Nat) (bits : BitVec 4) : KeptOut s0 (execEventsClear t f pid bits s) := by
  simp [execEventsClear, h]

@[simp] theorem keptOut_execPlanLoad (h : Kept s0 s) (t : Nat) (f : Frame) : KeptOut s0 (execPlanLoad t f s) := by
  simp [execPlanLoad, h]

@[simp] theorem keptOut_execPlanBind (h : Kept s0 s) (t : Nat) (f : Frame) : KeptOut s0 (execPlanBind t f s) := by
  simp [execPlanBind, h]

@[simp] theorem keptOut_execPlanUnbind (h : Kept s0 s) (t : Nat) (f : Frame) : KeptOut s0 (execPlanUnbind t f s) := by
  simp [execPlanUnbind, h]

@[simp] theorem keptOut_execPlanDelete (h : Kept s0 s) (t : Nat) (f : Frame) : KeptOut s0 (execPlanDelete t f s) := by
  simp [execPlanDelete, h]

@[simp] theorem keptOut_execPlanInfo (h : Kept s0 s) (t : Nat) (f : Frame) : KeptOut s0 (execPlanInfo t f s) := by
  simp [execPlanInfo, h]

@[simp] theorem keptOut_execPlanRun (h : Kept s0 s) (t : Nat) (f : Frame) : KeptOut s0 (execPlanRun t f s) := by
  simp [execPlanRun, h]

@[simp] theorem keptOut_execPlanEstimate (h : Kept s0 s) (t : Nat) (f : Frame) : KeptOut s0 (execPlanEstimate t f s) := by
  simp [execPlanEstimate, h]

@[simp] theorem keptOut_execContextClear (h : Kept s0 s) (t : Nat) (f : Frame) : KeptOut s0 (execContextClear t f s) := by
  simp [execContextClear, h]

@[simp] theorem keptOut_execAdaptStep (h : Kept s0 s) (t : Nat) (f : Frame) : KeptOut s0 (execAdaptStep t f s) := by
  simp [execAdaptStep, h]

@[simp] theorem keptOut_execAdaptExport (h : Kept s0 s) (t : Nat) (f : Frame) : KeptOut s0 (execAdaptExport t f s) := by
  simp [execAdaptExport, h]

@[simp] theorem keptOut_execAdaptReset (h : Kept s0 s) (t : Nat) (f : Frame) : KeptOut s0 (execAdaptReset t f s) := by
  simp [execAdaptReset, h]

@[simp] theorem keptOut_execIndexCreate (h : Kept s0 s) (t : Nat) (f : Frame) : KeptOut s0 (execIndexCreate t f s) := by
  simp [execIndexCreate, h]

@[simp] theorem keptOut_execIndexDelete (h : Kept s0 s) (t : Nat) (f : Frame) : KeptOut s0 (execIndexDelete t f s) := by
  simp [execIndexDelete, h]

@[simp] theorem keptOut_execIndexInfo (h : Kept s0 s) (t : Nat) (f : Frame) : KeptOut s0 (execIndexInfo t f s) := by
  simp [execIndexInfo, h]

@[simp] theorem keptOut_execIndexInsert (h : Kept s0 s) (t : Nat) (f : Frame) : KeptOut s0 (execIndexInsert t f s) := by
  simp [execIndexInsert, h]

@[simp] theorem keptOut_execIndexRemove (h : Kept s0 s) (t : Nat) (f : Frame) : KeptOut s0 (execIndexRemove t f s) := by
  simp [execIndexRemove, h]

@[simp] theorem keptOut_execIndexSearch (h : Kept s0 s) (t : Nat) (f : Frame) : KeptOut s0 (execIndexSearch t f s) := by
  simp [execIndexSearch, h]

@[simp] theorem keptOut_execIndexRebalance (h : Kept s0 s) (t : Nat) (f : Frame) : KeptOut s0 (execIndexRebalance t f s) := by
  simp [execIndexRebalance, h]

@[simp] theorem keptOut_execSelectTopk (h : Kept s0 s) (t : Nat) (f : Frame) : KeptOut s0 (execSelectTopk t f s) := by
  simp [execSelectTopk, h]

@[simp] theorem keptOut_execSelectMerge (h : Kept s0 s) (t : Nat) (f : Frame) : KeptOut s0 (execSelectMerge t f s) := by
  simp [execSelectMerge, h]

@[simp] theorem keptOut_execBerthCreate (h : Kept s0 s) (t : Nat) (f : Frame) : KeptOut s0 (execBerthCreate t f s) := by
  simp [execBerthCreate, h]

@[simp] theorem keptOut_execBerthRelease (h : Kept s0 s) (t : Nat) (f : Frame) : KeptOut s0 (execBerthRelease t f s) := by
  simp [execBerthRelease, h]

@[simp] theorem keptOut_execBerthSuspend (h : Kept s0 s) (t : Nat) (f : Frame) : KeptOut s0 (execBerthSuspend t f s) := by
  simp [execBerthSuspend, h]

@[simp] theorem keptOut_execBerthResume (h : Kept s0 s) (t : Nat) (f : Frame) : KeptOut s0 (execBerthResume t f s) := by
  simp [execBerthResume, h]

@[simp] theorem keptOut_execBerthInfo (h : Kept s0 s) (t : Nat) (f : Frame) : KeptOut s0 (execBerthInfo t f s) := by
  simp [execBerthInfo, h]

@[simp] theorem keptOut_execTideLoad (h : Kept s0 s) (t : Nat) (f : Frame) : KeptOut s0 (execTideLoad t f s) := by
  simp [execTideLoad, h]

@[simp] theorem keptOut_execTideRead (h : Kept s0 s) (t : Nat) (f : Frame) : KeptOut s0 (execTideRead t f s) := by
  simp [execTideRead, h]

@[simp] theorem keptOut_execMailSend (h : Kept s0 s) (t : Nat) (f : Frame) : KeptOut s0 (execMailSend t f s) := by
  simp [execMailSend, h]

@[simp] theorem keptOut_execMailRecv (h : Kept s0 s) (t : Nat) (f : Frame) : KeptOut s0 (execMailRecv t f s) := by
  simp [execMailRecv, h]

@[simp] theorem keptOut_execHawserInfo (h : Kept s0 s) (t : Nat) (f : Frame) : KeptOut s0 (execHawserInfo t f s) := by
  simp [execHawserInfo, h]

@[simp] theorem keptOut_execHawserRetrain (h : Kept s0 s) (t : Nat) (f : Frame) : KeptOut s0 (execHawserRetrain t f s) := by
  simp [execHawserRetrain, h]

@[simp] theorem keptOut_execFleetMap (h : Kept s0 s) (t : Nat) (f : Frame) : KeptOut s0 (execFleetMap t f s) := by
  simp [execFleetMap, h]

@[simp] theorem keptOut_execMotionEvents (h : Kept s0 s) (t : Nat) (f : Frame) : KeptOut s0 (execMotionEvents t f s) := by
  simp [execMotionEvents, h]

@[simp] theorem keptOut_execMotionWaveform (h : Kept s0 s) (t : Nat) (f : Frame) : KeptOut s0 (execMotionWaveform t f s) := by
  simp [execMotionWaveform, h]

@[simp] theorem keptOut_execLogbookInfo (h : Kept s0 s) (t : Nat) (f : Frame) : KeptOut s0 (execLogbookInfo t f s) := by
  simp [execLogbookInfo, h]

@[simp] theorem keptOut_execLogbookRead (h : Kept s0 s) (t : Nat) (f : Frame) : KeptOut s0 (execLogbookRead t f s) := by
  simp [execLogbookRead, h]

@[simp] theorem keptOut_execLogbookProgram (h : Kept s0 s) (t : Nat) (f : Frame) : KeptOut s0 (execLogbookProgram t f s) := by
  simp [execLogbookProgram, h]

@[simp] theorem keptOut_execLogbookErase (h : Kept s0 s) (t : Nat) (f : Frame) : KeptOut s0 (execLogbookErase t f s) := by
  simp [execLogbookErase, h]

@[simp] theorem keptOut_execLogbookSettings (h : Kept s0 s) (t : Nat) (f : Frame) : KeptOut s0 (execLogbookSettings t f s) := by
  simp [execLogbookSettings, h]

@[simp] theorem keptOut_execFwInfo (h : Kept s0 s) (t : Nat) (f : Frame) : KeptOut s0 (execFwInfo t f s) := by
  simp [execFwInfo, h]

@[simp] theorem keptOut_execFwStage (h : Kept s0 s) (t : Nat) (f : Frame) : KeptOut s0 (execFwStage t f s) := by
  simp [execFwStage, h]

@[simp] theorem keptOut_execFwActivate (h : Kept s0 s) (t : Nat) (f : Frame) : KeptOut s0 (execFwActivate t f s) := by
  simp [execFwActivate, h]

@[simp] theorem keptOut_execFwCommit (h : Kept s0 s) (t : Nat) (f : Frame) : KeptOut s0 (execFwCommit t f s) := by
  simp [execFwCommit, h]

@[simp] theorem keptOut_execIdentity (h : Kept s0 s) (t : Nat) (f : Frame) : KeptOut s0 (execIdentity t f s) := by
  simp [execIdentity, h]

@[simp] theorem keptOut_execAttest (h : Kept s0 s) (t : Nat) (f : Frame) : KeptOut s0 (execAttest t f s) := by
  simp [execAttest, h]

@[simp] theorem keptOut_execBollardRead (h : Kept s0 s) (t : Nat) (f : Frame) (bollard : Byte) : KeptOut s0 (execBollardRead t f bollard s) := by
  simp [execBollardRead, h]

@[simp] theorem keptOut_execBollardGive (h : Kept s0 s) (t : Nat) (f : Frame) (bollard : Byte) (count : BitVec 16) : KeptOut s0 (execBollardGive t f bollard count s) := by
  simp [execBollardGive, h]

@[simp] theorem keptOut_execBollardTake (h : Kept s0 s) (t : Nat) (f : Frame) (bollard : Byte) (count : BitVec 16) : KeptOut s0 (execBollardTake t f bollard count s) := by
  simp [execBollardTake, h]

@[simp] theorem keptOut_execBollardSet (h : Kept s0 s) (t : Nat) (f : Frame) (bollard : Byte) (count : BitVec 16) : KeptOut s0 (execBollardSet t f bollard count s) := by
  simp [execBollardSet, h]

@[simp] theorem keptOut_execAllReduce (h : Kept s0 s) (t : Nat) (f : Frame) : KeptOut s0 (execAllReduce t f s) := by
  simp [execAllReduce, h]

@[simp] theorem keptOut_execAllGather (h : Kept s0 s) (t : Nat) (f : Frame) : KeptOut s0 (execAllGather t f s) := by
  simp [execAllGather, h]

@[simp] theorem keptOut_execBraceAlert (h : Kept s0 s) (t : Nat) (f : Frame) : KeptOut s0 (execBraceAlert t f s) := by
  simp [execBraceAlert, h]

@[simp] theorem keptOut_execNsCreate (h : Kept s0 s) (t : Nat) (f : Frame) : KeptOut s0 (execNsCreate t f s) := by
  simp [execNsCreate, h]

@[simp] theorem keptOut_execNsDelete (h : Kept s0 s) (t : Nat) (f : Frame) : KeptOut s0 (execNsDelete t f s) := by
  simp [execNsDelete, h]

@[simp] theorem keptOut_execNsInfo (h : Kept s0 s) (t : Nat) (f : Frame) : KeptOut s0 (execNsInfo t f s) := by
  simp [execNsInfo, h]

@[simp] theorem keptOut_execNsRead (h : Kept s0 s) (t : Nat) (f : Frame) : KeptOut s0 (execNsRead t f s) := by
  simp [execNsRead, h]

@[simp] theorem keptOut_execNsWrite (h : Kept s0 s) (t : Nat) (f : Frame) : KeptOut s0 (execNsWrite t f s) := by
  simp [execNsWrite, h]

@[simp] theorem keptOut_execNsDiscard (h : Kept s0 s) (t : Nat) (f : Frame) : KeptOut s0 (execNsDiscard t f s) := by
  simp [execNsDiscard, h]

@[simp] theorem keptOut_execNsFlush (h : Kept s0 s) (t : Nat) (f : Frame) : KeptOut s0 (execNsFlush t f s) := by
  simp [execNsFlush, h]

@[simp] theorem keptOut_execHoldCreate (h : Kept s0 s) (t : Nat) (f : Frame) : KeptOut s0 (execHoldCreate t f s) := by
  simp [execHoldCreate, h]

@[simp] theorem keptOut_execHoldWrite (h : Kept s0 s) (t : Nat) (f : Frame) : KeptOut s0 (execHoldWrite t f s) := by
  simp [execHoldWrite, h]

@[simp] theorem keptOut_execHoldSeal (h : Kept s0 s) (t : Nat) (f : Frame) : KeptOut s0 (execHoldSeal t f s) := by
  simp [execHoldSeal, h]

@[simp] theorem keptOut_execHoldRead (h : Kept s0 s) (t : Nat) (f : Frame) : KeptOut s0 (execHoldRead t f s) := by
  simp [execHoldRead, h]

@[simp] theorem keptOut_execHoldDelete (h : Kept s0 s) (t : Nat) (f : Frame) : KeptOut s0 (execHoldDelete t f s) := by
  simp [execHoldDelete, h]

@[simp] theorem keptOut_execHoldInfo (h : Kept s0 s) (t : Nat) (f : Frame) : KeptOut s0 (execHoldInfo t f s) := by
  simp [execHoldInfo, h]

@[simp] theorem keptOut_execHoldMap (h : Kept s0 s) (t : Nat) (f : Frame) : KeptOut s0 (execHoldMap t f s) := by
  simp [execHoldMap, h]

@[simp] theorem keptOut_execRelocAck (h : Kept s0 s) (t : Nat) (f : Frame) : KeptOut s0 (execRelocAck t f s) := by
  simp [execRelocAck, h]

@[simp] theorem keptOut_execRelocList (h : Kept s0 s) (t : Nat) (f : Frame) : KeptOut s0 (execRelocList t f s) := by
  simp [execRelocList, h]

@[simp] theorem keptOut_execVaultCreate (h : Kept s0 s) (t : Nat) (f : Frame) : KeptOut s0 (execVaultCreate t f s) := by
  simp [execVaultCreate, h]

@[simp] theorem keptOut_execVaultDelete (h : Kept s0 s) (t : Nat) (f : Frame) : KeptOut s0 (execVaultDelete t f s) := by
  simp [execVaultDelete, h]

@[simp] theorem keptOut_execVaultInfo (h : Kept s0 s) (t : Nat) (f : Frame) : KeptOut s0 (execVaultInfo t f s) := by
  simp [execVaultInfo, h]

@[simp] theorem keptOut_execVaultPlan (h : Kept s0 s) (t : Nat) (f : Frame) : KeptOut s0 (execVaultPlan t f s) := by
  simp [execVaultPlan, h]

@[simp] theorem keptOut_execVaultBegin (h : Kept s0 s) (t : Nat) (f : Frame) : KeptOut s0 (execVaultBegin t f s) := by
  simp [execVaultBegin, h]

@[simp] theorem keptOut_execVaultCommit (h : Kept s0 s) (t : Nat) (f : Frame) : KeptOut s0 (execVaultCommit t f s) := by
  simp [execVaultCommit, h]

@[simp] theorem keptOut_execVaultCancel (h : Kept s0 s) (t : Nat) (f : Frame) : KeptOut s0 (execVaultCancel t f s) := by
  simp [execVaultCancel, h]

@[simp] theorem keptOut_execVaultList (h : Kept s0 s) (t : Nat) (f : Frame) : KeptOut s0 (execVaultList t f s) := by
  simp [execVaultList, h]

@[simp] theorem keptOut_execVaultManifest (h : Kept s0 s) (t : Nat) (f : Frame) : KeptOut s0 (execVaultManifest t f s) := by
  simp [execVaultManifest, h]

@[simp] theorem keptOut_execVaultRestore (h : Kept s0 s) (t : Nat) (f : Frame) : KeptOut s0 (execVaultRestore t f s) := by
  simp [execVaultRestore, h]

@[simp] theorem keptOut_execVaultVerify (h : Kept s0 s) (t : Nat) (f : Frame) : KeptOut s0 (execVaultVerify t f s) := by
  simp [execVaultVerify, h]

@[simp] theorem keptOut_execVaultConsolidate (h : Kept s0 s) (t : Nat) (f : Frame) : KeptOut s0 (execVaultConsolidate t f s) := by
  simp [execVaultConsolidate, h]

@[simp] theorem keptOut_execVaultKeep (h : Kept s0 s) (t : Nat) (f : Frame) : KeptOut s0 (execVaultKeep t f s) := by
  simp [execVaultKeep, h]

@[simp] theorem keptOut_execVaultDrop (h : Kept s0 s) (t : Nat) (f : Frame) : KeptOut s0 (execVaultDrop t f s) := by
  simp [execVaultDrop, h]

@[simp] theorem keptOut_execReplAccept (h : Kept s0 s) (t : Nat) (f : Frame) : KeptOut s0 (execReplAccept t f s) := by
  simp [execReplAccept, h]

@[simp] theorem keptOut_execReplSet (h : Kept s0 s) (t : Nat) (f : Frame) : KeptOut s0 (execReplSet t f s) := by
  simp [execReplSet, h]

@[simp] theorem kept_sbAccept (h : Kept s0 s) (code : Nat) : Kept s0 (sbAccept code s) := by
  exact h

@[simp] theorem kept_requestReset (h : Kept s0 s)  : Kept s0 (requestReset s).1 := by
  grind [requestReset, kept_sbAccept, kept_railsOff, kept_mk, keptBy_of, kept_foldl]

@[simp] theorem kept_requestDown (h : Kept s0 s)  : Kept s0 (requestDown s).1 := by
  grind [requestDown, kept_startDrain, kept_sbAccept, kept_mk, keptBy_of, kept_foldl]

@[simp] theorem kept_requestUp (h : Kept s0 s)  : Kept s0 (requestUp s).1 := by
  unfold requestUp; split <;> simp [h]

@[simp] theorem kept_requestCancel (h : Kept s0 s)  : Kept s0 (requestCancel s).1 := by
  unfold requestCancel; split <;> simp [h]

@[simp] theorem kept_sbRequest (h : Kept s0 s) (code : Nat) : Kept s0 (sbRequest code s).1 := by
  unfold sbRequest; (repeat' split) <;> simp [h]

@[simp] theorem kept_sbReply (h : Kept s0 s) (result : Nat) (reg : Nat) : Kept s0 (sbReply result reg s) := by
  exact h

@[simp] theorem kept_sbTransaction (h : Kept s0 s) (w : Nat) : Kept s0 (sbTransaction w s) := by
  simp [sbTransaction, h]

@[simp] theorem keptOut_execSidebandTransaction (h : Kept s0 s) (t : Nat) (frame : BitVec 24) : KeptOut s0 (execSidebandTransaction t frame s) := by
  simp [execSidebandTransaction, h]

@[simp] theorem keptOut_execSidebandTimeout (h : Kept s0 s) (t : Nat) : KeptOut s0 (execSidebandTimeout t s) := by
  simp [execSidebandTimeout, h]

@[simp] theorem kept_sbWrite (h : Kept s0 s) (code : Nat) (t : Nat) : Kept s0 (sbWrite code t s) := by
  grind [sbWrite, kept_sbRequest, kept_setNow, kept_sbReply, kept_mk, keptBy_of, kept_foldl]

@[simp] theorem keptOut_execSidebandReset (h : Kept s0 s) (t : Nat) : KeptOut s0 (execSidebandReset t s) := by
  simp [execSidebandReset, h]

@[simp] theorem keptOut_execPowerDown (h : Kept s0 s) (t : Nat) : KeptOut s0 (execPowerDown t s) := by
  simp [execPowerDown, h]

@[simp] theorem keptOut_execPowerUp (h : Kept s0 s) (t : Nat) : KeptOut s0 (execPowerUp t s) := by
  simp [execPowerUp, h]

@[simp] theorem keptOut_execCancel (h : Kept s0 s) (t : Nat) : KeptOut s0 (execCancel t s) := by
  simp [execCancel, h]

@[simp] theorem kept_State.withFetchWord (h : Kept s0 s) (nbits : Nat) (w : Nat) : Kept s0 (State.withFetchWord s nbits w) := by
  exact h

/-- Every row keeps what every step keeps. -/
theorem keptOut_exec (h : Kept s0 s) (i : Instr) : KeptOut s0 (exec i s) := by
  cases i <;> simp [exec, h]

theorem kept_step {u : State} (c : Instr) (cs : List Instr) (hp : s.pending = c :: cs) (hu : step s = .next u) :
    Kept { s with pending := cs } u := by
  have h := keptOut_exec (Kept.refl { s with pending := cs }) c
  rw [step, hp] at hu
  simpa [hu] using h

end

/-- Settles O1: the front row is what a step runs, by definition. -/
theorem stepRunsTheFrontCommand : Obligations.StepRunsTheFrontCommand := fun _ _ _ => rfl

/-- Settles O2, by evaluating the state after reset. -/
theorem soundAtReset : Obligations.SoundAtReset := test_step_from_reset.1

/-- Settles O3: the row a step takes keeps the number of berths, the identifiers and the form of the SRAM shares. -/
theorem soundIsKept : Obligations.SoundIsKept := by
  intro s u hs hu
  cases hp : s.pending with
  | nil =>
    rw [step, hp] at hu
    cases hu
    exact hs
  | cons c cs => exact (kept_step c cs hp hu).sound hs

/-- Settles O4: the row a step takes leaves the rest of the queue, local time and the factory's values. -/
theorem stepConsumesOneCommand : Obligations.StepConsumesOneCommand := by
  intro s u hu
  cases hp : s.pending with
  | nil =>
    rw [step, hp] at hu
    cases hu
    exact ⟨by simp [hp], le_rfl, rfl⟩
  | cons c cs =>
    have h := kept_step c cs hp hu
    exact ⟨h.pending, h.now, h.fixed⟩

end Sys2Proof.Machine

namespace Sys2Proof.Machine

/-! ### What sending on hawser links changes -/

/-- A hawser port without what its traffic changes. -/
def HawserPort.still (h : HawserPort) : HawserPort := { h with txq := [], replay := [], txSeq := 0, ackAt := 0, noRoute := 0 }

/-- `u` is `s` after frames and notices went out: what is sent, the traffic of hawser ports, their credits, the state of works, the
version of the TOPO message and the notice counts of host ports may have changed. -/
structure Sends (s u : State) : Prop where
  eq : u = { s with
    out := u.out
    hawser := { s.hawser with ports := u.hawser.ports, credits := u.hawser.credits, works := u.hawser.works, topoVer := u.hawser.topoVer }
    net := { s.net with ports := u.net.ports } }
  out : ∃ l, u.out = l ++ s.out
  length : u.hawser.ports.length = s.hawser.ports.length
  ports : ∀ p, (hawserPort u p).still = (hawserPort s p).still
  hosts : ∀ n, hostPort u n = { hostPort s n with noticeCount := (hostPort u n).noticeCount }

theorem hawserPort_modHawserPort (n m : Nat) (g : HawserPort → HawserPort) (s : State) :
    hawserPort (modHawserPort n g s) m = if n = m ∧ m < s.hawser.ports.length then g (hawserPort s m) else hawserPort s m := by
  simp only [hawserPort, modHawserPort, List.getD_eq_getElem?_getD, List.getElem?_modify]
  by_cases hc : m < s.hawser.ports.length
  · rw [List.getElem?_eq_getElem hc]
    by_cases hb : n = m <;> simp [hb, hc]
  · rw [List.getElem?_eq_none (by omega)]
    simp [hc]

namespace Sends

variable {s u w : State}

theorem refl (s : State) : Sends s s := ⟨rfl, ⟨[], rfl⟩, rfl, fun _ => rfl, fun _ => rfl⟩

theorem trans (h : Sends s u) (h' : Sends u w) : Sends s w := by
  obtain ⟨l, hl⟩ := h.out
  obtain ⟨l', hl'⟩ := h'.out
  refine ⟨?_, ⟨l' ++ l, by rw [hl', hl, List.append_assoc]⟩, h'.length.trans h.length, fun p => (h'.ports p).trans (h.ports p), fun n => ?_⟩
  · have e := h'.eq
    rw [h.eq] at e
    exact e
  · rw [h'.hosts n, h.hosts n]

section
variable (h : Sends s u)
include h

theorem emit (o : Output) : Sends s (emit o u) := h.trans ⟨rfl, ⟨[o], rfl⟩, rfl, fun _ => rfl, fun _ => rfl⟩

theorem modHawserPort (p : Nat) {g : HawserPort → HawserPort} (hg : ∀ h, (g h).still = h.still := by exact fun _ => rfl) : Sends s (modHawserPort p g u) := by
  refine h.trans ⟨rfl, ⟨[], rfl⟩, by simp [Machine.modHawserPort], fun q => ?_, fun _ => rfl⟩
  rw [hawserPort_modHawserPort]
  split
  · exact hg _
  · rfl

theorem modCredits (p : Nat) (g : Credits → Credits) : Sends s (modCredits p g u) := h.trans ⟨rfl, ⟨[], rfl⟩, rfl, fun _ => rfl, fun _ => rfl⟩

theorem modWork (c : Nat) (g : FleetWork → FleetWork) : Sends s (modWork c g u) := h.trans ⟨rfl, ⟨[], rfl⟩, rfl, fun _ => rfl, fun _ => rfl⟩

theorem modPort (n : Nat) {g : HostPort → HostPort} (hg : ∀ h, g h = { h with noticeCount := (g h).noticeCount } := by exact fun _ => rfl) : Sends s (modPort n g u) := by
  refine h.trans ⟨rfl, ⟨[], rfl⟩, rfl, fun _ => rfl, fun m => ?_⟩
  rw [hostPort_modPort]
  split
  · exact hg _
  · rfl

theorem sendIdle (p : Nat) (nak : Bool) (v c : Nat) : Sends s (sendIdle p nak v c u) := h.emit _

end

theorem foldl {α : Type} {g : State → α → State} (hg : ∀ u a, Sends s u → Sends s (g u a)) (l : List α) (h : Sends s u) : Sends s (l.foldl g u) := by
  induction l generalizing u with
  | nil => exact h
  | cons a l ih => exact ih (hg u a h)

theorem pumpGo (p n : Nat) (h : Sends s u) : Sends s (pumpGo p n u) := by
  induction n generalizing u with
  | zero => exact h
  | succ n ih =>
    unfold Machine.pumpGo
    dsimp only
    split
    · exact h
    · split
      · exact h
      · split
        · exact h
        · refine ih ?_
          split
          · split
            · exact (((h.modHawserPort p).modCredits p _).emit _).sendIdle ..
            · exact ((h.modHawserPort p).modCredits p _).emit _
          · exact ((h.modHawserPort p).modCredits p _).emit _

section
variable (h : Sends s u)
include h

theorem pump (p : Nat) : Sends s (pump p u) := h.pumpGo ..

theorem sendFrom (src : Option (Nat × Nat)) (p : Nat) (f : HFrame) : Sends s (sendFrom src p f u) := by
  unfold Machine.sendFrom
  exact (h.modHawserPort p).pump p

theorem sendRoutedFrom (src : Option (Nat × Nat)) (q i : Nat) (f : HFrame) : Sends s (sendRoutedFrom src q i f u) := by
  unfold Machine.sendRoutedFrom
  dsimp only
  split
  · exact h.sendFrom ..
  · split
    · split
      · exact (h.modHawserPort q).sendIdle ..
      · exact h.modHawserPort q
    · exact h.modHawserPort q

theorem sendMessage (dest flow : Nat) (msg : Bytes) : Sends s (sendMessage dest flow msg u) :=
  foldl (fun _ f hx => hx.sendRoutedFrom none 0 0 f) _ h

theorem floodOn (skip typ : Nat) (msg : Bytes) : Sends s (floodOn skip typ msg u) :=
  foldl (fun _ p hx => hx.sendFrom none p _) _ h

theorem floodTopo : Sends s (floodTopo u) := by
  unfold Machine.floodTopo
  refine Sends.floodOn ?_ ..
  exact h.trans ⟨rfl, ⟨[], rfl⟩, rfl, fun _ => rfl, fun _ => rfl⟩

theorem endMembers (x : FleetWork) (k : StatusBlock) (skip : Nat) : Sends s (endMembers x k skip u) := by
  unfold Machine.endMembers
  split
  · exact h
  · split
    · exact h
    · exact foldl (fun _ m hx => hx.sendMessage m _ _) _ h

theorem failCut (before : State) : Sends s (failCut before u) := by
  unfold Machine.failCut
  refine foldl (fun _ x hx => ?_) _ h
  split
  · exact hx
  · split
    · exact hx
    · exact (hx.modWork ..).endMembers ..

theorem sendNotice (port : Nat) (ip : Addr) (udp op berth : Nat) (urgent : Bool) (k : StatusBlock) (fl pl : Bytes) :
    Sends s (sendNotice port ip udp op berth urgent k fl pl u) := by
  unfold Machine.sendNotice
  split
  · exact (h.modPort port).emit _
  · exact h

theorem berthNotice (b op : Nat) (fl pl : Bytes) : Sends s (berthNotice b op fl pl u) := by
  unfold Machine.berthNotice
  split
  · exact h.sendNotice ..
  · exact h

theorem hawserEvent (p : Nat) : Sends s (hawserEvent p u) := h.berthNotice ..

end

theorem portUp (h : Sends s u) (n : Nat) : portUp u n = portUp s n := by
  have e := h.eq
  unfold Machine.portUp
  rw [h.hosts n, e]

theorem port_part {α : Type} (part : HawserPort → α) (hpart : ∀ x, part x.still = part x) (h : Sends s u) (p : Nat) :
    part (hawserPort u p) = part (hawserPort s p) := by
  rw [← hpart, h.ports p, hpart]

end Sends

/-! ### Entering a state of training -/

/-- A hawser port as it enters another state. -/
def HawserPort.enter (st : HawserState) (ptp : Nat) (link : Bool) (h : HawserPort) : HawserPort :=
  { h with
    state := st, lanes := lanesOf st, since := ptp, linked := link
    downs := if st = .down then satAdd 16 h.downs 1 else h.downs
    retrains := if st = .training ∧ carries h.state then satAdd 16 h.retrains 1 else h.retrains }

/-- Whether port `h` has a link once it is in state `st`. -/
def linkIn (st : HawserState) (h : HawserPort) : Bool := carries st || (st == .training && h.linked)

/-- What goes out when a port `h` enters another state: the HAWSER_EVENT where traffic starts or stops, and TOPO where a link does too. -/
def enterNotices (p : Nat) (h : HawserPort) (st : HawserState) (s1 : State) : State :=
  let s2 := if carries h.state || carries st then hawserEvent p s1 else s1
  if carries h.state || carries st || h.linked != linkIn st h then floodTopo s2 else s2

theorem enterPort_of_ne (p : Nat) (st : HawserState) (s : State) (h : (hawserPort s p).state ≠ st) : enterPort p st s =
    let s3 := enterNotices p (hawserPort s p) st (modHawserPort p (HawserPort.enter st (ptpNow s) (linkIn st (hawserPort s p))) s)
    if (hawserPort s p).linked && !linkIn st (hawserPort s p) then forgetLost (fleetModules s) (failCut s s3) else s3 := by
  unfold enterPort
  rw [if_neg h]
  rfl

/-- A port that enters another state changes as `HawserPort.enter` says; notices and TOPO messages go out, works that lost their
route fail, and modules that are out of reach are forgotten. -/
theorem enterPort_sends (p : Nat) (st : HawserState) (s : State) (h : (hawserPort s p).state ≠ st) :
    ∃ u, Sends (modHawserPort p (HawserPort.enter st (ptpNow s) (linkIn st (hawserPort s p))) s) u ∧
      (enterPort p st s = u ∨ (st ≠ .training ∧ ∃ l, enterPort p st s = forgetLost l u)) := by
  rw [enterPort_of_ne p st s h]
  generalize modHawserPort p (HawserPort.enter st (ptpNow s) (linkIn st (hawserPort s p))) s = s1
  have sent : Sends s1 (enterNotices p (hawserPort s p) st s1) := by
    unfold enterNotices
    dsimp only
    split <;> split
    · exact ((Sends.refl s1).hawserEvent p).floodTopo
    · exact (Sends.refl s1).floodTopo
    · exact (Sends.refl s1).hawserEvent p
    · exact Sends.refl s1
  split
  · rename_i hl
    refine ⟨_, sent.failCut s, Or.inr ⟨?_, _, rfl⟩⟩
    rintro rfl
    cases hp : (hawserPort s p).linked <;> simp [linkIn, hp] at hl
  · exact ⟨_, sent, Or.inl rfl⟩

/-- Nothing but hawser state, what is sent and host ports changed, and whether those are up did not. -/
structure HawserOnly (s u : State) : Prop where
  eq : u = { s with out := u.out, hawser := u.hawser, net := { s.net with ports := u.net.ports } }
  out : ∃ l, u.out = l ++ s.out
  length : u.hawser.ports.length = s.hawser.ports.length
  ups : ∀ n, portUp u n = portUp s n

theorem HawserOnly.refl (s : State) : HawserOnly s s := ⟨rfl, ⟨[], rfl⟩, rfl, fun _ => rfl⟩

theorem HawserOnly.trans {s u w : State} (h : HawserOnly s u) (h' : HawserOnly u w) : HawserOnly s w := by
  obtain ⟨l, hl⟩ := h.out
  obtain ⟨l', hl'⟩ := h'.out
  refine ⟨?_, ⟨l' ++ l, by rw [hl', hl, List.append_assoc]⟩, h'.length.trans h.length, fun n => (h'.ups n).trans (h.ups n)⟩
  have e := h'.eq
  rw [h.eq] at e
  exact e

theorem Sends.hawserOnly {s u : State} (h : Sends s u) : HawserOnly s u := ⟨by rw [h.eq], h.out, h.length, h.portUp⟩

theorem HawserOnly.modHawserPort {s u : State} (h : HawserOnly s u) (p : Nat) (g : HawserPort → HawserPort) : HawserOnly s (modHawserPort p g u) :=
  h.trans ⟨rfl, ⟨[], rfl⟩, by simp [Machine.modHawserPort], fun _ => rfl⟩

theorem HawserOnly.modCredits {s u : State} (h : HawserOnly s u) (p : Nat) (g : Credits → Credits) : HawserOnly s (modCredits p g u) :=
  h.trans ⟨rfl, ⟨[], rfl⟩, rfl, fun _ => rfl⟩

theorem enterPort_same {p : Nat} {st : HawserState} {s : State} (h : (hawserPort s p).state = st) : enterPort p st s = s := by
  unfold enterPort
  rw [if_pos h]

theorem enterPort_hawserOnly (p : Nat) (st : HawserState) (s : State) : HawserOnly s (enterPort p st s) := by
  by_cases h : (hawserPort s p).state = st
  · rw [enterPort_same h]
    exact HawserOnly.refl s
  · obtain ⟨u, hu, he⟩ := enterPort_sends p st s h
    have hsu : HawserOnly s u := ((HawserOnly.refl s).modHawserPort p _).trans hu.hawserOnly
    rcases he with he | ⟨-, l, he⟩
    · rwa [he]
    · rw [he]
      exact hsu.trans ⟨rfl, ⟨[], rfl⟩, rfl, fun _ => rfl⟩

/-- A part of a port's state that neither its traffic nor its state of training concerns stays when a port enters another state. -/
theorem enterPort_part {α : Type} (part : HawserPort → α) (hs : ∀ x, part x.still = part x) (he : ∀ x st n l, part (HawserPort.enter st n l x) = part x)
    (p : Nat) (st : HawserState) (s : State) (q : Nat) : part (hawserPort (enterPort p st s) q) = part (hawserPort s q) := by
  by_cases h : (hawserPort s p).state = st
  · rw [enterPort_same h]
  · obtain ⟨u, hu, hx⟩ := enterPort_sends p st s h
    have hport : hawserPort (enterPort p st s) q = hawserPort u q := by
      rcases hx with hx | ⟨-, l, hx⟩ <;> rw [hx]
      rfl
    rw [hport, hu.port_part part hs, hawserPort_modHawserPort]
    split
    · exact he ..
    · rfl

theorem enterPort_state {p : Nat} (st : HawserState) {s : State} (hp : p < s.hawser.ports.length) : (hawserPort (enterPort p st s) p).state = st := by
  by_cases h : (hawserPort s p).state = st
  · rw [enterPort_same h, h]
  · obtain ⟨u, hu, hx⟩ := enterPort_sends p st s h
    have hport : hawserPort (enterPort p st s) p = hawserPort u p := by
      rcases hx with hx | ⟨-, l, hx⟩ <;> rw [hx]
      rfl
    rw [hport, hu.port_part HawserPort.state (fun _ => rfl), hawserPort_modHawserPort, if_pos ⟨rfl, hp⟩]
    rfl

theorem startAttempt_hawserOnly (p : Nat) (s : State) : HawserOnly s (startAttempt p s) :=
  ((enterPort_hawserOnly p .training s).modHawserPort p _).modCredits p _

theorem hawserPort_startAttempt {p : Nat} {s : State} (hp : p < s.hawser.ports.length) : hawserPort (startAttempt p s) p =
    { hawserPort (enterPort p .training s) p with step := 2, stepAt := s.now, lastIdent := none, locked := 0 } := by
  show hawserPort (modHawserPort p _ (enterPort p .training s)) p = _
  rw [hawserPort_modHawserPort, if_pos ⟨rfl, (enterPort_hawserOnly p .training s).length ▸ hp⟩]


/-! ### Commands that are answered in their step -/

section
variable {f : Frame} {s u w w' : State} {a : Active} {n : Nat} {b : List Berth} {p : List HostPort} {q : List Queue}

theorem PlacesKept.berthState (h : PlacesKept f s u) (b : Nat) : (getBerth u b).state = (getBerth s b).state := by
  rw [h.1 b]

theorem PlacesKept.berthLive (h : PlacesKept f s u) (b : Nat) : berthLive u b = berthLive s b := by
  simp only [Machine.berthLive, h.berthState b]

theorem PlacesKept.inbox (h : PlacesKept f s u) (b : Nat) : (getBerth u b).inbox = (getBerth s b).inbox := by
  rw [h.1 b]

theorem PlacesKept.mailSeq (h : PlacesKept f s u) (b : Nat) : (getBerth u b).mailSeq = (getBerth s b).mailSeq := by
  rw [h.1 b]

theorem PlacesKept.shares (h : PlacesKept f s u) (b : Nat) : (getBerth u b).regs.shares = (getBerth s b).regs.shares := by
  rw [h.1 b]

/-- Both states changed at one berth, in a way that leaves use counters and buckets to themselves. -/
theorem PlacesKept.modBerth_both {g : Berth → Berth} (h : PlacesKept f s u) (hl : u.berths.length = s.berths.length)
    (hg : ∀ x y : Berth, y = { x with use := y.use, buckets := y.buckets } → g y = { g x with use := (g y).use, buckets := (g y).buckets }) (b : Nat) :
    PlacesKept f (Machine.modBerth b g s) (Machine.modBerth b g u) := by
  refine ⟨fun c => ?_, h.2.1, h.2.2⟩
  simp only [getBerth_modBerth, hl]
  split
  · exact hg _ _ (h.1 c)
  · exact h.1 c

/-- Both states with the queues of one berth reset. -/
theorem PlacesKept.resetQueues_both (h : PlacesKept f s u) (b : Nat) : PlacesKept f (resetQueues b s) (resetQueues b u) := by
  refine ⟨h.1, h.2.1, fun c q => ?_⟩
  have reset (x : State) : getQueue (resetQueues b x) c q = if c = b then { berth := c, queue := q } else getQueue x c q := by
    simp only [getQueue, resetQueues, List.find?_filter]
    split
    · rename_i hc
      rw [List.find?_eq_none.mpr (fun y _ => by by_cases hy : y.berth = b <;> simp [hy, hc])]
      rfl
    · rename_i hc
      congr 2
      ext y
      by_cases hy : y.berth = c
      · simp [hy, hc]
        rfl
      · simp [hy]
  rw [reset, reset]
  split
  · simp
  · exact h.2.2 c q

/-- A state that differs from the admitted one as `w` does from `s`, and not in berths, ports and queues. -/
theorem workIs_of_places (hp : PlacesKept f s (admitted s a n b p q))
    (hb : w.berths = s.berths) (hn : w.net.ports = s.net.ports) (hq : w.net.queues = s.net.queues)
    (hb' : w'.berths = b) (hn' : w'.net.ports = p) (hq' : w'.net.queues = q)
    (e : w' = { w with
      now := w'.now, fresh := w'.fresh, berths := w'.berths
      net := { w.net with ports := w'.net.ports, queues := w'.net.queues }
      cmds := { w.cmds with nextId := w.cmds.nextId + 1, active := w.cmds.active ++ [a] } }) : WorkIs f a w w' :=
  ⟨e, ((PlacesKept.of_eq f hb.symm hn.symm hq.symm).trans hp).trans (PlacesKept.of_eq f hb' hn' hq')⟩

end

theorem length_of_berths {sp : CmdSpec} (hp : Plain sp) (t : Nat) (f : Frame) (s : State) : (running sp t f s).berths.length = s.berths.length := by
  have hat : (atAdmission t f s).berths.length = s.berths.length :=
    atAdmission_split t f s (fun x => x.berths.length = s.berths.length) (by simp [counted, hostCharge, modPortStats]) (fun _ => by simp [counted, hostCharge, modPortStats])
  simp [running, taken, hp.take, hp.result, hat]

section
variable {t : Nat} {f : Frame} {s w : State} {o : WorkOut}

/-- The parts of the state that a command's reply goes by are in `w` as in `s`. -/
structure RepliesAs (s w : State) : Prop where
  dev   : w.dev = s.dev := by rfl
  pf    : w.pf = s.pf := by rfl
  ports : w.net.ports = s.net.ports := by rfl
  out   : w.out = s.out := by rfl
  regs  : w.regs = s.regs := by rfl
  cmds  : w.cmds = s.cmds := by rfl

/-- A command of `quickRows` without data references is answered with the outcome of its work in the state after admission, and leaves a
state that its work names. -/
theorem answers_of_running {P : WorkOut → State → Prop} (sp : CmdSpec) (row : Nat → Frame → Instr) (hs : Starts sp t f s) (hd : s.dev.drain = none)
    (hw : ∀ b p q a, a.frame = f → (a.id = s.cmds.nextId ∧ a.opcode = sp.opcode) → b.length = s.berths.length → PlacesKept f s (admitted s a (max s.now t) b p q) →
      ∃ w w' o, sp.work (admitted s a (max s.now t) b p q) a = (w', o) ∧ WorkIs f a w w' ∧ o.status ≠ stMediaUe ∧ RepliesAs s w ∧ P o w)
    (hr : (⟨sp, row, id⟩ : CmdRow) ∈ quickRows := by simp [quickRows])
    (hn : Unhurt sp t f s := by exact unhurt_of_norefs (fun _ _ => rfl) (fun _ _ => rfl)) : ∃ o w, P o w ∧ Answers sp (row t f) f s o w := by
  have hp : Plain sp := quickRows_plain _ hr
  have hx := running_admitted (t := t) (f := f) (s := s) hp
  have e : running sp t f s = admitted s (startedCmd sp t f s) (max s.now t) (running sp t f s).berths (running sp t f s).net.ports (running sp t f s).net.queues := by
    rw [← running_now hp t f s]; exact hx.eq
  obtain ⟨w, w', o, hwork, hwis, hu, hrep, hP⟩ := hw (running sp t f s).berths (running sp t f s).net.ports (running sp t f s).net.queues (startedCmd sp t f s) rfl
    ⟨hx.id, rfl⟩ (length_of_berths hp ..) (e ▸ hx.places)
  rw [← e] at hwork
  exact ⟨o, w, hP, answers_of_admitted hr hs hn ⟨w', hwork, hwis⟩ hd hu hrep.dev hrep.pf hrep.ports hrep.out hrep.regs (by rw [hrep.cmds])
    (by rw [hrep.cmds]; exact hs.1.1.2.1)⟩

/-- `answers_of_running` for a command that changes nothing and tells what the state after admission holds. -/
theorem answers_query_of {α : Type} {out : α → WorkOut} {Q : α → Prop} (sp : CmdSpec) (row : Nat → Frame → Instr) (hs : Starts sp t f s) (hd : s.dev.drain = none)
    (hw : ∀ b p q a, a.frame = f → (a.id = s.cmds.nextId ∧ a.opcode = sp.opcode) → PlacesKept f s (admitted s a (max s.now t) b p q) →
      ∃ x, Q x ∧ sp.work (admitted s a (max s.now t) b p q) a = (admitted s a (max s.now t) b p q, out x))
    (hr : (⟨sp, row, id⟩ : CmdRow) ∈ quickRows := by simp [quickRows])
    (hn : Unhurt sp t f s := by exact unhurt_of_norefs (fun _ _ => rfl) (fun _ _ => rfl))
    (hu : ∀ x, (out x).status ≠ stMediaUe := by exact fun _ => ne_of_beq_false rfl) : ∃ x, Q x ∧ Answers sp (row t f) f s (out x) s := by
  obtain ⟨_, _, ⟨x, hx, rfl, rfl⟩, h⟩ := answers_of_running (P := fun o w => ∃ x, Q x ∧ o = out x ∧ w = s) sp row hs hd (fun b p q a ha hi _ hp => by
    obtain ⟨x, hx, hwork⟩ := hw b p q a ha hi hp
    exact ⟨s, _, out x, hwork, ⟨rfl, hp⟩, hu x, {}, x, hx, rfl, rfl⟩) hr hn
  exact ⟨x, hx, h⟩

/-- `answers_of_running` for an outcome and a state that are known beforehand. -/
theorem answers_now (sp : CmdSpec) (row : Nat → Frame → Instr) (hs : Starts sp t f s) (hd : s.dev.drain = none)
    (hw : ∀ b p q a, a.frame = f → (a.id = s.cmds.nextId ∧ a.opcode = sp.opcode) → b.length = s.berths.length → PlacesKept f s (admitted s a (max s.now t) b p q) →
      ∃ w', sp.work (admitted s a (max s.now t) b p q) a = (w', o) ∧ WorkIs f a w w')
    (hr : (⟨sp, row, id⟩ : CmdRow) ∈ quickRows := by simp [quickRows])
    (hn : Unhurt sp t f s := by exact unhurt_of_norefs (fun _ _ => rfl) (fun _ _ => rfl))
    (hu : o.status ≠ stMediaUe := by exact ne_of_beq_false rfl) (hrep : RepliesAs s w := by exact {}) : Answers sp (row t f) f s o w := by
  obtain ⟨_, _, ⟨rfl, rfl⟩, h⟩ := answers_of_running (P := fun o' w' => o' = o ∧ w' = w) sp row hs hd (fun b p q a ha hi hl hp => by
    obtain ⟨w', hwork, hwis⟩ := hw b p q a ha hi hl hp
    exact ⟨w, w', o, hwork, hwis, hu, hrep, rfl, rfl⟩) hr hn
  exact h

/-- A command that changes nothing but what every answered command changes. -/
theorem answers_query (sp : CmdSpec) (row : Nat → Frame → Instr) (hs : Starts sp t f s) (hd : s.dev.drain = none)
    (hw : ∀ b p q a, a.frame = f → (a.id = s.cmds.nextId ∧ a.opcode = sp.opcode) → PlacesKept f s (admitted s a (max s.now t) b p q) →
      sp.work (admitted s a (max s.now t) b p q) a = (admitted s a (max s.now t) b p q, o))
    (hr : (⟨sp, row, id⟩ : CmdRow) ∈ quickRows := by simp [quickRows])
    (hn : Unhurt sp t f s := by exact unhurt_of_norefs (fun _ _ => rfl) (fun _ _ => rfl))
    (hu : o.status ≠ stMediaUe := by exact ne_of_beq_false rfl) : Answers sp (row t f) f s o s :=
  answers_now sp row hs hd (fun b p q a ha hi _ hp => ⟨_, hw b p q a ha hi hp, rfl, hp⟩) hr hn hu

end

/-- Settles O24: the four queries read parts of the state that admission leaves alone. -/
theorem logbookAndTrustQueriesComplete : Obligations.LogbookAndTrustQueriesComplete := by
  intro t f s hd
  refine ⟨fun h => ⟨(List.range 4).flatMap (fun k => toLE 1 (freeLogSpares s k).length),
      logRegions.flatMap (fun r => toLE 2 r.1 ++ toLE 2 r.2.1 ++ toLE 1 r.2.2 ++ zeros 3), by simp [List.range_succ], ?_⟩,
    fun h => ?_, fun h => ?_, fun h => ?_⟩
  · exact answers_query cmdLogbookInfo .logbookInfo h hd (fun _ _ _ _ _ _ _ => rfl)
  · exact answers_query cmdLogbookSettings .logbookSettings h hd (fun _ _ _ _ _ _ _ => rfl)
  · exact answers_query cmdFwInfo .fwInfo h hd (fun _ _ _ _ _ _ _ => rfl)
  · exact answers_query cmdIdentity .identity h hd (fun _ _ _ _ _ _ _ => rfl)

/-- Settles O25: FW_COMMIT asks the device state, the trial and the running selection, which admission leaves alone. -/
theorem firmwareCommitEndsTheTrial : Obligations.FirmwareCommitEndsTheTrial := by
  intro t f s hd h
  refine ⟨fun hst htr hrun => ?_, fun hno => ?_⟩
  · exact answers_now cmdFwCommit .fwCommit h hd
      (fun b p q a _ _ _ hp => ⟨_, if_pos ⟨hst, htr, hrun⟩, workIs_of_places hp rfl rfl rfl rfl rfl rfl rfl⟩)
  · refine answers_query cmdFwCommit .fwCommit h hd (fun b p q a _ _ _ => if_neg ?_)
    rintro ⟨h1, h2, h3⟩
    rcases hno with hno | hno | hno
    · exact hno h1
    · exact absurd h2 (by simp [admitted, hno])
    · exact hno h3

/-- What an opcode asks of objects held when the command met admission. -/
theorem Starts.objects {sp : CmdSpec} {t : Nat} {f : Frame} {s : State} (h : Starts sp t f s) : sp.objects (atAdmission t f s) f = none :=
  firstSome_eq_none.mp h.1.2.2.2 _ (by simp)

theorem Starts.needs {sp : CmdSpec} {t : Nat} {f : Frame} {s : State} (h : Starts sp t f s) : sp.needs (atAdmission t f s) f = none :=
  (admissionChecks_passed h.1.2.2.2).2

theorem Starts.check {sp : CmdSpec} {t : Nat} {f : Frame} {s : State} (h : Starts sp t f s) : sp.check (atAdmission t f s) f = none :=
  (admissionChecks_passed h.1.2.2.2).1

/-- What BERTH_INFO tells after a berth's state and shares: what the berth uses. -/
def berthUses (s : State) (b : Nat) : Bytes :=
  let act := s.cmds.active.filter (fun x => x.frame.berth == b)
  toLE 8 (ceilDiv (sramUse s b) (2 ^ 24) * 2 ^ 24) ++ toLE 4 (ceilDiv (allocOf s b) (2 ^ 30)) ++ toLE 2 (qpsOf s b).length
    ++ toLE 2 ((s.cmds.slots.filter (fun x => x.berth == b)).length) ++ toLE 4 act.length ++ toLE 2 ((act.filter (fun x => x.lock.isSome)).length)
    ++ toLE 1 (getBerth s b).inbox.length ++ zeros 5

theorem berthInfo_work (s : State) (a : Active) : cmdBerthInfo.work s a =
    (s, okOut (toLE 1 (getBerth s (par a.frame 0 1)).state.code ++ zeros 7 ++ toLE 16 (getBerth s (par a.frame 0 1)).regs.shares.toNat
      ++ berthUses s (par a.frame 0 1)) []) := by
  simp only [cmdBerthInfo, berthUses, List.append_assoc]

/-- Settles O20: only the berth named and its queues change, in the running state as in the one the statement speaks of. -/
theorem berthCommandsComplete : Obligations.BerthCommandsComplete := by
  intro t f s hd
  refine ⟨fun h => ?_, fun h => ?_, fun h => ?_, fun h => ?_, fun h => ?_⟩
  · refine answers_now cmdBerthCreate .berthCreate h hd (fun b p q a ha _ hl hp => ⟨_, rfl, ?_, ?_⟩)
    · subst ha; rfl
    · subst ha; exact (hp.modBerth_both hl (fun _ _ _ => rfl) _).resetQueues_both _
  · refine answers_now cmdBerthRelease .berthRelease h hd (fun b p q a ha _ hl hp => ⟨_, rfl, ?_, ?_⟩)
    · subst ha; rfl
    · subst ha; exact (hp.modBerth_both hl (fun _ _ _ => rfl) _).resetQueues_both _
  · refine answers_now cmdBerthSuspend .berthSuspend h hd (fun b p q a ha _ hl hp => ⟨_, rfl, ?_, ?_⟩)
    · subst ha; rfl
    · subst ha; exact hp.modBerth_both hl (fun _ _ e => by rw [e]) _
  · refine answers_now cmdBerthResume .berthResume h hd (fun b p q a ha _ hl hp => ⟨_, rfl, ?_, ?_⟩)
    · subst ha; rfl
    · subst ha; exact hp.modBerth_both hl (fun _ _ e => by rw [e]) _
  · refine answers_query_of (Q := fun rest : Bytes => rest.length = 28) cmdBerthInfo .berthInfo h hd (fun b p q a ha _ hp => ?_)
    subst ha
    refine ⟨berthUses (admitted s a (max s.now t) b p q) (par a.frame 0 1), by simp [berthUses, zeros], ?_⟩
    rw [berthInfo_work, hp.berthState, hp.shares]

/-- Settles O21: the inbox of the running state is that of `s`. -/
theorem mailCommandsComplete : Obligations.MailCommandsComplete := by
  intro t f s hd
  refine ⟨fun h => ?_, fun h => ?_⟩
  · have hlive : berthLive s (par f 0 1) = true := by
      rw [← (atAdmission_places t f s).berthLive]; exact need_eq_none.mp h.objects
    have hroom : inboxFull s (par f 0 1) = false := by
      have := need_eq_none.mp h.needs
      simpa [inboxFull, (atAdmission_places t f s).inbox] using this
    refine answers_now cmdMailSend .mailSend h hd (fun b p q a ha _ hl hp => ?_)
    subst ha
    have hlive' := (hp.berthLive (par a.frame 0 1)).trans hlive
    have hroom' : inboxFull (admitted s a (max s.now t) b p q) (par a.frame 0 1) = false := by
      simpa only [inboxFull, hp.inbox] using hroom
    refine ⟨_, (if_neg (by simp [hlive'])).trans (if_neg (by simp [hroom'])), rfl, ?_⟩
    rw [hp.mailSeq]
    exact hp.modBerth_both hl (fun _ _ e => by rw [e]) _
  · refine answers_now cmdMailRecv .mailRecv h hd (fun b p q a ha _ hl hp =>
      ⟨modBerth f.berth (fun x => { x with inbox := x.inbox.drop ((getBerth s f.berth).inbox.take (par f 0 1)).length }) (admitted s a (max s.now t) b p q),
        ?_, ?_, ?_⟩)
    · subst ha
      simp only [cmdMailRecv, hp.inbox]
    · rfl
    · exact hp.modBerth_both hl (fun _ _ e => by rw [e]) _

/-- Settles O22: both commands use the tables and PTP time alone. -/
theorem tideCommandsComplete : Obligations.TideCommandsComplete := by
  intro t f s hd
  refine ⟨fun h => ?_, fun tb h htb => ?_⟩
  · refine answers_now cmdTideLoad .tideLoad h hd (fun b p q a ha _ _ hp => ?_)
    subst ha
    refine ⟨_, rfl, ?_⟩
    exact workIs_of_places hp rfl rfl rfl rfl rfl rfl rfl
  · refine answers_query cmdTideRead .tideRead h hd (fun b p q a ha _ _ => ?_)
    subst ha
    simp only [cmdTideRead, admitted, htb]

theorem neighboursOf_congr {s u : State} (hh : u.hawser = s.hawser) (hr : u.regs = s.regs) : neighboursOf u = neighboursOf s := by
  unfold neighboursOf moduleNo hawserPort
  rw [hh, hr]

theorem reachGo_congr {s u : State} (hh : u.hawser = s.hawser) (hr : u.regs = s.regs) (n : Nat) (l : List Nat) : reachGo u n l = reachGo s n l := by
  induction n generalizing l with
  | zero => rfl
  | succ n ih => rw [reachGo, reachGo, ih, neighboursOf_congr hh hr]

theorem fleetModules_congr {s u : State} (hh : u.hawser = s.hawser) (hr : u.regs = s.regs) : fleetModules u = fleetModules s := by
  simp only [fleetModules, reachGo_congr hh hr, moduleNo, hh, hr]

/-- What HAWSER_INFO tells of the six ports. -/
def hawserPortRecords (s : State) : Bytes :=
  (List.range 6).flatMap (fun n => toLE 1 (hawserPort s n).state.code ++ toLE 1 (hawserPort s n).lanes ++ toLE 2 (hawserPort s n).peerModule
    ++ toLE 1 (hawserPort s n).peerPort ++ zeros 3)

theorem hawserInfo_work (s : State) (a : Active) : cmdHawserInfo.work s a =
    (s, okOut (toLE 2 (moduleNo s) ++ toLE 1 (topologyOf s) ++ toLE 2 (fleetModules s).length ++ zeros 3 ++ hawserPortRecords s) []) := rfl

/-- A command that is answered in its step, from the state its work leaves: the reply goes out, and after it only what the command held is
freed. -/
theorem replied_of_work {sp : CmdSpec} {row : Nat → Frame → Instr} {t : Nat} {f : Frame} {s w : State} {o : WorkOut} (hr : (⟨sp, row, id⟩ : CmdRow) ∈ quickRows)
    (hs : Starts sp t f s) (hn : Unhurt sp t f s) (hw : sp.work (running sp t f s) (startedCmd sp t f s) = (w, o)) (hd : w.dev.drain = none)
    (hu : o.status ≠ stMediaUe) (hk : HawserOnly (running sp t f s) w) :
    ∃ u, exec (row t f) s = .next u ∧ Replied s u sp.opcode f o.status o.detail o.fields o.payload ∧
      u = { freed (startedCmd sp t f s) w with net := u.net, out := u.out } := by
  have hp : Plain sp := quickRows_plain _ hr
  have hrun := running_admitted (t := t) (f := f) (s := s) hp
  have hx : exec (row t f) s = .next (finish sp t f s w o) := by
    have h1 := quickRows_exec _ hr t f s
    have h2 := runCommand_accept (quickRows_spec _ hr) hs.1
    have h3 := accept_plain hp hs hn
    have h4 := quickRows_after _ hr
    dsimp only [id] at h1 h2 h3 h4
    rw [h1, h2, h3, h4, hw]
    rfl
  obtain ⟨l, hout⟩ := hk.out
  have hfreed := freed_frame (startedCmd sp t f s) w
  have hup : portUp (freed (startedCmd sp t f s) w) f.port = true := by
    have hlink : (hostPort (running sp t f s) f.port).linkUp = (hostPort s f.port).linkUp := by rw [hrun.places.2.1 f.port]
    have : portUp (running sp t f s) f.port = portUp s f.port := by
      unfold portUp
      rw [hlink, hrun.eq]
    rw [hfreed]
    exact ((hk.ups f.port).trans this).trans hs.1.2.1.1
  have hunit : fragUnit (freed (startedCmd sp t f s) w) = fragUnit s := by
    rw [hfreed]
    show fragUnit w = _
    rw [hk.eq]
    show fragUnit (running sp t f s) = _
    rw [hrun.eq]
    rfl
  refine ⟨_, hx, ⟨[], l, replyOf (freed (startedCmd sp t f s) w) sp.opcode f o.status o.detail o.fields o.payload, ?_, rfl, rfl, rfl, rfl, rfl, rfl, rfl, rfl, rfl⟩, ?_⟩
  · rw [finish_eq sp t f s w o hp.result hd hu, settled_frame]
    show (answer ..).out = _
    rw [answer_out, if_pos hup, hunit]
    congr 1
    rw [hfreed]
    show w.out = _
    rw [hout, hrun.eq]
  · rw [finish_eq sp t f s w o hp.result hd hu, settled_frame, answer_frame]

/-- Settles O23. -/
theorem hawserCommandsComplete : Obligations.HawserCommandsComplete := by
  intro t f s hd
  refine ⟨fun h => ?_, fun h hno => ?_, fun h hok hp => ?_⟩
  · refine ⟨hawserPortRecords s, by simp [hawserPortRecords, List.range_succ, zeros], answers_query cmdHawserInfo .hawserInfo h hd (fun b p q a ha _ _ => ?_)⟩
    rw [hawserInfo_work, fleetModules_congr (s := s) (u := admitted s a (max s.now t) b p q) rfl rfl]
    rfl
  · refine answers_query cmdHawserRetrain .hawserRetrain h hd (fun b p q a ha _ _ => ?_)
    subst ha
    exact congrArg (·, okOut [] []) (if_neg (Bool.eq_false_iff.mp hno))
  · have hplain : Plain cmdHawserRetrain := ⟨rfl, fun _ _ => rfl, fun _ _ => rfl, fun _ _ => rfl, fun _ _ => rfl⟩
    have hrun := running_admitted (t := t) (f := f) (s := s) hplain
    have hports : (running cmdHawserRetrain t f s).hawser = s.hawser := by rw [hrun.eq]
    have hlen : par f 0 1 < (running cmdHawserRetrain t f s).hawser.ports.length := by rw [hports]; exact hp
    have hmay : (mayTrain (running cmdHawserRetrain t f s) (par f 0 1) && (hawserPort (running cmdHawserRetrain t f s) (par f 0 1)).signal) = true := by
      rw [hrun.eq]
      exact hok
    obtain ⟨u, hx, hreply, hu⟩ := replied_of_work (row := .hawserRetrain) (w := startAttempt (par f 0 1) (running cmdHawserRetrain t f s)) (o := okOut [] [])
      (by simp [quickRows]) h (unhurt_of_norefs (fun _ _ => rfl) (fun _ _ => rfl)) (congrArg (·, okOut [] []) (if_pos hmay))
      (by rw [(startAttempt_hawserOnly ..).eq, hrun.eq]; exact hd) (ne_of_beq_false rfl) (startAttempt_hawserOnly ..)
    have hport : hawserPort u (par f 0 1) = hawserPort (startAttempt (par f 0 1) (running cmdHawserRetrain t f s)) (par f 0 1) := by
      rw [hu]
      show hawserPort (freed ..) _ = _
      simp only [hawserPort, freed_hawser]
      rfl
    refine ⟨u, hx, hreply, ?_, ?_⟩ <;> rw [hport, hawserPort_startAttempt hlen]
    exact enterPort_state .training hlen

end Sys2Proof.Machine

namespace Sys2Proof.Machine

/-! ### Objects of media, plans and indexes -/

section
variable {f : Frame} {s w w' : State} {a : Active} {n : Nat} {b : List Berth} {p : List HostPort} {q : List Queue}

/-- A work that leaves places alone, done in the state after admission. -/
theorem workIs_admitted (hp : PlacesKept f s (admitted s a n b p q)) (hb : w.berths = s.berths) (hn : w.net.ports = s.net.ports)
    (hq : w.net.queues = s.net.queues) : WorkIs f a w (admitted w a n b p q) :=
  workIs_of_places hp hb hn hq rfl rfl rfl rfl

theorem WorkIs.useFresh (h : WorkIs f a w w') : WorkIs f a w (useFresh w') := by
  refine ⟨?_, h.places.trans (PlacesKept.of_eq f rfl rfl rfl)⟩
  have e := h.eq
  conv_lhs => rw [e]
  rfl

theorem wornUpdate_admitted (s : State) (a : Active) (n : Nat) (b : List Berth) (p : List HostPort) (q : List Queue) :
    wornUpdate (admitted s a n b p q) = admitted (wornUpdate s) a n b p q := by
  by_cases h : (!s.media.worn && decide (spareBytes s < spareFloor s)) = true
  · have e : wornUpdate s = _ := if_pos h
    have e' : wornUpdate (admitted s a n b p q) = _ := if_pos h
    rw [e, e']
    rfl
  · by_cases h' : (s.media.worn && decide ((spareFloor s : Int) + 2 ^ 40 ≤ spareBytes s)) = true
    · have e : wornUpdate s = _ := (if_neg h).trans (if_pos h')
      have e' : wornUpdate (admitted s a n b p q) = _ := (if_neg h).trans (if_pos h')
      rw [e, e']
      rfl
    · have e : wornUpdate s = _ := (if_neg h).trans (if_neg h')
      have e' : wornUpdate (admitted s a n b p q) = _ := (if_neg h).trans (if_neg h')
      rw [e, e']

theorem wornUpdate_frame (s : State) : wornUpdate s = { s with media := (wornUpdate s).media, indexes := (wornUpdate s).indexes, eng := (wornUpdate s).eng } := by
  unfold wornUpdate
  split
  · rfl
  · split <;> rfl

theorem repliesAs_wornUpdate (h : RepliesAs s w) : RepliesAs s (wornUpdate w) := by
  obtain ⟨h1, h2, h3, h4, h5, h6⟩ := h
  constructor <;> rw [wornUpdate_frame] <;> assumption

end

/-- A command whose work leaves places alone and is done as well in the state after admission. -/
theorem answers_apart {t : Nat} {f : Frame} {s w : State} {o : WorkOut} (sp : CmdSpec) (row : Nat → Frame → Instr) (hs : Starts sp t f s) (hd : s.dev.drain = none)
    (hw : ∀ b p q a, a.frame = f → (a.id = s.cmds.nextId ∧ a.opcode = sp.opcode) →
      sp.work (admitted s a (max s.now t) b p q) a = (admitted w a (max s.now t) b p q, o))
    (hrep : RepliesAs s w := by exact {}) (hb : w.berths = s.berths := by rfl) (hq : w.net.queues = s.net.queues := by rfl)
    (hr : (⟨sp, row, id⟩ : CmdRow) ∈ quickRows := by simp [quickRows])
    (hn : Unhurt sp t f s := by exact unhurt_of_norefs (fun _ _ => rfl) (fun _ _ => rfl))
    (hu : o.status ≠ stMediaUe := by exact ne_of_beq_false rfl) : Answers sp (row t f) f s o w :=
  answers_now sp row hs hd (fun b p q a ha hi _ hp => ⟨_, hw b p q a ha hi, workIs_admitted hp hb hrep.ports hq⟩) hr hn hu hrep

theorem planEstimate_work {s : State} {a : Active} {p : Plan} (h : planNamed s a.frame = some p) :
    ∃ terms, cmdPlanEstimate.work s a = (useFresh s, okOut (estBody terms (par a.frame 8 4)) []) := by
  simp only [cmdPlanEstimate, h]
  exact ⟨_, rfl⟩

/-- Settles O16: each command works on the plan it names, and admission leaves the plans alone. -/
theorem planCommandsComplete : Obligations.PlanCommandsComplete := by
  intro t f s hd
  refine ⟨fun h => ?_, fun h => ?_, fun p h hp => ?_, fun p h hp => ?_, fun h => ?_, fun h => ?_⟩
  · exact answers_now cmdPlanUnbind .planUnbind h hd (fun b p q a ha _ _ hk =>
      ⟨_, rfl, by subst ha; exact ⟨rfl, hk⟩⟩)
  · exact answers_apart cmdPlanDelete .planDelete h hd (fun b p q a ha _ => by subst ha; rfl)
  · refine (answers_query_of (Q := fun _ => True) cmdPlanInfo .planInfo h hd (fun b n q a ha _ _ => ?_)).imp (fun _ h => h.2)
    subst ha
    refine ⟨toLE 4 (planActive (admitted s a (max s.now t) b n q) p.id a.id) ++ toLE 8 (imgSram p.image) ++ toLE 8 p.steps ++ setId p.image, trivial, ?_⟩
    have hp' : planNamed (admitted s a (max s.now t) b n q) a.frame = some p := hp
    simp only [cmdPlanInfo, hp', List.append_assoc]
  · obtain ⟨_, _, ⟨terms, rfl, rfl⟩, hans⟩ := answers_of_running (P := fun o w => ∃ terms, o = okOut (estBody terms (par f 8 4)) [] ∧ w = s)
      cmdPlanEstimate .planEstimate h hd (fun b n q a ha _ _ hk => by
        subst ha
        have hp' : planNamed (admitted s a (max s.now t) b n q) a.frame = some p := hp
        obtain ⟨terms, hw⟩ := planEstimate_work hp'
        exact ⟨s, _, _, hw, (show WorkIs a.frame a s _ from ⟨rfl, hk⟩).useFresh, ne_of_beq_false rfl, {}, terms, rfl, rfl⟩)
    exact ⟨terms, hans⟩
  · exact answers_apart cmdContextClear .contextClear h hd (fun b p q a ha _ => by subst ha; rfl)
  · exact answers_apart cmdAdaptReset .adaptReset h hd (fun b p q a ha _ => by subst ha; rfl)

theorem oldestPin_admitted (s : State) (a : Active) (n : Nat) (b : List Berth) (p : List HostPort) (q : List Queue) (h : a.opcode ≠ 0x0405) (x : VIndex) :
    oldestPin (admitted s a n b p q) x = oldestPin s x := by
  have hf : (s.cmds.active ++ [a]).filter (fun a => a.opcode == 0x0405 && a.objs.contains (kIndex, x.id)) =
      s.cmds.active.filter (fun a => a.opcode == 0x0405 && a.objs.contains (kIndex, x.id)) := by
    rw [List.filter_append, List.filter_cons_of_neg (by simp [h]), List.filter_nil, List.append_nil]
  exact congrArg (fun l : List Active => (l.map (fun a => a.pin)).foldl min x.epoch) hf

theorem settleIndex_admitted (s : State) (a : Active) (n : Nat) (b : List Berth) (p : List HostPort) (q : List Queue) (h : a.opcode ≠ 0x0405) (i : Nat) :
    settleIndex i (admitted s a n b p q) = admitted (settleIndex i s) a n b p q := by
  cases hx : getIndex s i with
  | none =>
    have hx' : getIndex (admitted s a n b p q) i = none := hx
    simp only [settleIndex, hx, hx']
  | some x =>
    have hx' : getIndex (admitted s a n b p q) i = some x := hx
    simp only [settleIndex, hx, hx', oldestPin_admitted s a n b p q h]
    rfl

theorem settleIndex_frame (i : Nat) (s : State) : settleIndex i s = { s with indexes := (settleIndex i s).indexes } := by
  unfold settleIndex
  split <;> rfl

theorem indexInfo_work {s : State} {a : Active} {x : VIndex} (h : indexNamed (settleIndex (par a.frame 0 4) s) a.frame = some x) :
    ∃ rest, cmdIndexInfo.work s a = (settleIndex (par a.frame 0 4) s,
      okOut (toLE 2 x.state.code ++ toLE 1 x.metric ++ toLE 1 x.codeBits ++ toLE 4 x.dim
        ++ toLE 4 (x.nodes.filter (fun n => n.state == .live)).length ++ toLE 4 (x.nodes.filter (fun n => n.state == .retired)).length
        ++ toLE 8 (x.items.filter (fun i => i.visible x.epoch)).length ++ toLE 8 x.epoch ++ rest) []) := by
  simp only [cmdIndexInfo, h, List.append_assoc]
  exact ⟨_, rfl⟩

/-- Settles O17: INDEX_INFO settles the index first, and its own entry among the accepted commands pins none. -/
theorem indexObjectCommandsComplete : Obligations.IndexObjectCommandsComplete := by
  intro t f s hd
  refine ⟨fun h => ?_, fun x h hx => ?_⟩
  · refine answers_apart cmdIndexDelete .indexDelete h hd (fun b p q a ha _ => ?_) (repliesAs_wornUpdate {}) (by rw [wornUpdate_frame]) (by rw [wornUpdate_frame])
    subst ha
    exact congrArg (·, okOut [] []) (wornUpdate_admitted { s with indexes := s.indexes.filter (fun x => x.id != par a.frame 0 4) } a _ b p q)
  · obtain ⟨_, _, ⟨rest, rfl, rfl⟩, hans⟩ := answers_of_running
      (P := fun o w => ∃ rest, o = okOut (toLE 2 x.state.code ++ toLE 1 x.metric ++ toLE 1 x.codeBits ++ toLE 4 x.dim
          ++ toLE 4 (x.nodes.filter (fun n => n.state == .live)).length ++ toLE 4 (x.nodes.filter (fun n => n.state == .retired)).length
          ++ toLE 8 (x.items.filter (fun i => i.visible x.epoch)).length ++ toLE 8 x.epoch ++ rest) [] ∧ w = settleIndex (par f 0 4) s)
      cmdIndexInfo .indexInfo h hd (fun b n q a ha hi _ hk => by
        subst ha
        have hs : settleIndex (par a.frame 0 4) (admitted s a (max s.now t) b n q) = admitted (settleIndex (par a.frame 0 4) s) a (max s.now t) b n q :=
          settleIndex_admitted s a _ b n q (by rw [hi.2]; decide) _
        obtain ⟨rest, hw⟩ := indexInfo_work (s := admitted s a (max s.now t) b n q) (a := a) (x := x) (by rw [hs]; exact hx)
        rw [hs] at hw
        refine ⟨settleIndex (par a.frame 0 4) s, _, _, hw, workIs_admitted hk ?_ ?_ ?_, ne_of_beq_false rfl, ?_, rest, rfl, rfl⟩
        · rw [settleIndex_frame]
        · rw [settleIndex_frame]
        · rw [settleIndex_frame]
        · constructor <;> rw [settleIndex_frame])
    exact ⟨rest, hans⟩

end Sys2Proof.Machine

namespace Sys2Proof.Machine

/-! ### Refutations -/

/-- A PLAN_LOAD whose image lies in its payload. -/
def loadFrame : Frame := tstFrame (tstRef 0 256) (zeros 256)

theorem loadFrame_starts : Starts cmdPlanLoad 0 loadFrame tstReady :=
  test_slow_rows_start (cmdPlanLoad, loadFrame) (by simp [tstSlow, loadFrame])

theorem loadFrame_ends : ∀ u, exec (.planLoad 0 loadFrame) tstReady = .next u → u.cmds.active = [] := by
  have h : (match exec (.planLoad 0 loadFrame) tstReady with | .next u => u.cmds.active.isEmpty | _ => true) = true := by decide +kernel
  intro u hu
  rw [hu] at h
  exact List.isEmpty_iff.mp h

/-- Refutes O10: a PLAN_LOAD whose image lies in its payload fetches nothing and its work takes no time, so it is answered in its step
and no accepted command is left. -/
theorem not_slowCommandsRun : ¬ Obligations.SlowCommandsRun := by
  intro h
  obtain ⟨u, hu, -, ⟨a, ha, -⟩, -⟩ := h ⟨cmdPlanLoad, .planLoad, id⟩ (by simp [slowRows]) 0 loadFrame tstReady loadFrame_starts
  rw [loadFrame_ends u hu] at ha
  exact absurd ha (List.not_mem_nil)

/-- A module whose vault has a CAPTURED checkpoint with the key of a region that is still registered. -/
def keyedVault : State := { tstOldVault with rdma := { tstOldVault.rdma with regions := [{ tstRegion with rkey := 0x203 }] } }

def deleteVaultFrame : Frame := tstFrame (zeros 8) []

theorem deleteVault_drops_region : ∀ u, exec (.vaultDelete 0 deleteVaultFrame) keyedVault = .next u → u.rdma.regions = [] := by
  have h : (match exec (.vaultDelete 0 deleteVaultFrame) keyedVault with | .next u => u.rdma.regions.isEmpty | _ => true) = true := by decide +kernel
  intro u hu
  rw [hu] at h
  exact List.isEmpty_iff.mp h

/-- Refutes O18: VAULT_DELETE drops the regions whose keys the vault's checkpoints bear, also those of checkpoints that are not OPEN,
so that it does more than remove the vault. -/
theorem not_vaultCommandsComplete : ¬ Obligations.VaultCommandsComplete := by
  intro h
  have hstarts : Starts cmdVaultDelete 0 deleteVaultFrame keyedVault := tst_starts (by decide +kernel)
  obtain ⟨-, hdelete, -⟩ := h 0 deleteVaultFrame keyedVault rfl
  obtain ⟨u, hx, -, hu, -⟩ := hdelete hstarts
  have hregions : u.rdma.regions = keyedVault.rdma.regions := by
    rw [hu, wornUpdate_frame]
    rfl
  rw [deleteVault_drops_region u hx] at hregions
  exact absurd hregions (by decide +kernel)

end Sys2Proof.Machine

namespace Sys2Proof.Machine

/-! ### Acceptance and start of any command -/

/-- Taking the command leaves the accepted commands, the berths' states and the power state as acceptance has them. -/
structure TakesLightly (sp : CmdSpec) (t : Nat) (f : Frame) (s : State) : Prop where
  active : (taken sp t f s).cmds.active = s.cmds.active ++ [newActive sp f (sequenced t f s) (atAdmission t f s)]
  berths : ∀ b, (getBerth (taken sp t f s) b).state = (getBerth s b).state
  power : (taken sp t f s).power = s.power

theorem taken_of_take_id {sp : CmdSpec} (h : ∀ s a, sp.take s a = s) (t : Nat) (f : Frame) (s : State) : taken sp t f s =
    if sp.result then answer sp.opcode f (sequenced t f s) stOk
        (.accepted (freeSlotIndex (atAdmission t f s) f.berth) (32 + sp.size (atAdmission t f s) f) (ptpNow (atAdmission t f s))) [] []
        (enter sp f (sequenced t f s) (atAdmission t f s))
      else enter sp f (sequenced t f s) (atAdmission t f s) := h ..

theorem answer_berths (op : Nat) (f : Frame) (c : Bool) (st : Nat) (d : Detail) (fl pl : Bytes) (s : State) : (answer op f c st d fl pl s).berths = s.berths := by
  rw [answer_frame]

theorem answer_cmds (op : Nat) (f : Frame) (c : Bool) (st : Nat) (d : Detail) (fl pl : Bytes) (s : State) : (answer op f c st d fl pl s).cmds = s.cmds := by
  rw [answer_frame]

theorem answer_power (op : Nat) (f : Frame) (c : Bool) (st : Nat) (d : Detail) (fl pl : Bytes) (s : State) : (answer op f c st d fl pl s).power = s.power := by
  rw [answer_frame]

theorem takesLightly_of_take_id {sp : CmdSpec} (h : ∀ s a, sp.take s a = s) (t : Nat) (f : Frame) (s : State) : TakesLightly sp t f s := by
  have hc : (taken sp t f s).cmds = (enter sp f (sequenced t f s) (atAdmission t f s)).cmds := by
    rw [taken_of_take_id h]; split
    · exact answer_cmds ..
    · rfl
  have hb : (taken sp t f s).berths = (atAdmission t f s).berths := by
    rw [taken_of_take_id h]; split
    · rw [answer_berths, enter_berths]
    · rw [enter_berths]
  refine ⟨?_, fun b => ?_, ?_⟩
  · rw [hc, enter_cmds, atAdmission_cmds]
  · rw [← (atAdmission_places t f s).berthState b]
    simp only [getBerth, hb]
  · rw [taken_of_take_id h]; split
    · rw [answer_power, enter_power, atAdmission_power]
    · rw [enter_power, atAdmission_power]

section
variable {sp : CmdSpec} {t : Nat} {f : Frame} {s : State}

theorem ids_below (h : Accepted sp t f s) : ∀ x ∈ s.cmds.active, x.id < s.cmds.nextId := h.1.2.1

/-- The command just accepted. -/
theorem getActive_taken (h : Accepted sp t f s) (hT : TakesLightly sp t f s) :
    getActive (taken sp t f s) s.cmds.nextId = some (newActive sp f (sequenced t f s) (atAdmission t f s)) := by
  simp only [getActive, hT.active]
  exact find_append_new (ids_below h) (by simp [newActive])

/-- Nothing holds back a command that starts. -/
theorem phaseOf_taken (h : Starts sp t f s) (hT : TakesLightly sp t f s) :
    phaseOf sp (taken sp t f s) (newActive sp f (sequenced t f s) (atAdmission t f s)) = 3 := by
  obtain ⟨hacc, hprev, hsus, hdep, hwait⟩ := h
  unfold phaseOf
  rw [if_neg, if_neg, if_neg (by rw [hwait]; simp), if_neg]
  · rw [hT.power]
    exact not_lt.mpr hdep
  · rintro ⟨hq, hst⟩
    have hst' : (getBerth s f.berth).state = .suspended := (hT.berths _).symm.trans hst
    rcases hsus with hsus | hsus
    · rcases hq with hq | hq
      · exact hq hsus
      · simp [newActive] at hq
    · exact hsus hst'
  · simp only [Bool.and_eq_true, hT.active, List.any_eq_true, decide_eq_true_eq, beq_iff_eq, not_and, not_exists]
    intro _ x hx hh
    rcases List.mem_append.mp hx with hx | hx
    · exact not_lt.mpr (hprev x hx hh.1.1.2 hh.1.2 hh.2)
    · rw [List.mem_singleton] at hx
      subst hx
      exact absurd hh.1.1.1 (lt_irrefl _)

end

/-- The part of `tryStart` for a command that nothing holds back: it is in PHASE 3, fetches its host data, and ends at once where there is
none and its work takes no time. -/
def beginWork (sp : CmdSpec) (a : Active) (s : State) : State :=
  let fetch := (sp.uses s a.frame).fetch
  let s1 := sp.start (fetchAll a.id fetch (modActive a.id (fun x => { x with phase := 3 }) s)) { a with phase := 3 }
  let s2 := modActive a.id (fun x => { x with awaiting := fetch.map (fun y => y.1) }) s1
  match getActive s2 a.id with
  | some b => if fetch.isEmpty && !sp.slow s2 b then endWork sp none b s2 else s2
  | none => s2

section
variable {sp : CmdSpec} {t : Nat} {f : Frame} {s : State}

theorem accept_eq_tryStart (sp : CmdSpec) (t : Nat) (f : Frame) (s : State) :
    accept sp f (sequenced t f s) (atAdmission t f s) = tryStart sp s.cmds.nextId (taken sp t f s) := by
  have : (atAdmission t f s).cmds.nextId = s.cmds.nextId := by rw [atAdmission_cmds]
  rw [← this]
  rfl

theorem accept_begins (h : Starts sp t f s) (hT : TakesLightly sp t f s) : accept sp f (sequenced t f s) (atAdmission t f s) =
    beginWork sp (newActive sp f (sequenced t f s) (atAdmission t f s)) (taken sp t f s) := by
  have hid : (newActive sp f (sequenced t f s) (atAdmission t f s)).id = s.cmds.nextId := by simp [newActive]
  rw [accept_eq_tryStart]
  unfold tryStart
  rw [getActive_taken h.1 hT]
  dsimp only
  rw [if_neg (by simp [newActive]), phaseOf_taken h hT, if_neg (by omega), ← hid]
  rfl

/-- A command that fetches nothing and only starts: it runs on where its work takes time, and else its work is done in `running`. -/
theorem accept_runs (h : Starts sp t f s) (hT : TakesLightly sp t f s) (hfetch : (sp.uses (taken sp t f s) f).fetch = []) (hstart : ∀ s a, sp.start s a = s) :
    accept sp f (sequenced t f s) (atAdmission t f s) =
      if sp.slow (running sp t f s) (startedCmd sp t f s) then running sp t f s else endWork sp none (startedCmd sp t f s) (running sp t f s) := by
  rw [accept_begins h hT]
  set a := newActive sp f (sequenced t f s) (atAdmission t f s) with ha
  have hid : a.id = s.cmds.nextId := by simp [ha, newActive]
  have hfetch' : (sp.uses (taken sp t f s) a.frame).fetch = [] := hfetch
  have hmods : modActive a.id (fun x => { x with awaiting := [] }) (modActive a.id (fun x => { x with phase := 3 }) (taken sp t f s)) = running sp t f s := by
    have hmap (g : Active → Active) (b : Active) (hb : b.id = s.cmds.nextId) :
        (s.cmds.active ++ [b]).map (fun x => if x.id == s.cmds.nextId then g x else x) = s.cmds.active ++ [g b] := map_append_new g (ids_below h.1) hb
    unfold running modActive
    simp only [hT.active, hid, atAdmission_cmds]
    rw [hmap _ a hid, hmap _ { a with phase := 3 } hid]
    rfl
  have hget : getActive (running sp t f s) a.id = some (startedCmd sp t f s) := by
    simp only [getActive, running, atAdmission_cmds, hid]
    exact find_append_new (ids_below h.1) hid
  simp only [beginWork, hfetch', fetchAll, List.map_nil, hstart, hmods, hget, List.isEmpty_nil, Bool.true_and]
  cases sp.slow (running sp t f s) (startedCmd sp t f s) <;> rfl

end

end Sys2Proof.Machine

namespace Sys2Proof.Machine

/-! ### Namespaces and holds -/

section
variable {sp : CmdSpec} {t : Nat} {f : Frame} {s : State} {i : Instr}

theorem endWork_unhurt {sp : CmdSpec} {a : Active} {s : State} (hq : failedQp s a = none) (hp : poisonedRef (sp.uses s a.frame) s a = none) :
    endWork sp none a s = sp.after (complete a (sp.work s a).2 (sp.work s a).1) a := by
  unfold endWork
  simp only [hq, hp]

/-- A row that is a command which takes no time here and changes nothing: it is answered with the outcome of its work. -/
theorem answers_idle (hx : exec i s = .next (runCommand sp.opcode t f s)) (hop : specOf sp.opcode = some sp)
    (hp : Plain { sp with slow := fun _ _ => false }) (hs : Starts sp t f s) (hn : Unhurt sp t f s) (hslow : sp.slow (running sp t f s) (startedCmd sp t f s) = false)
    (hafter : ∀ s a, sp.after s a = s) {o : WorkOut} (hw : sp.work (running sp t f s) (startedCmd sp t f s) = (running sp t f s, o))
    (hd : s.dev.drain = none) (hu : o.status ≠ stMediaUe) : Answers sp i f s o s := by
  have hadm : Admitted f (startedCmd sp t f s) s (running sp t f s) := running_admitted (sp := { sp with slow := fun _ _ => false }) hp
  have hfresh : (running sp t f s).fresh = s.fresh := by
    have e := congrArg State.fresh hadm.eq
    exact e
  have hfin : exec i s = .next (finish sp t f s (running sp t f s) o) := by
    rw [hx, runCommand_accept hop hs.1, accept_runs hs (takesLightly_of_take_id (sp := sp) hp.take t f s) (hp.fetch _ _) hp.start, hslow, if_neg (by simp),
      endWork_unhurt hn.1 hn.2, hafter, hw]
    rfl
  refine answers_of_finish hfin hp.result ?_ ⟨hadm.eq.trans (by rw [hfresh]), hadm.places⟩ hd hu ?_ hadm.id rfl rfl
  · have hlink : (hostPort (running sp t f s) f.port).linkUp = (hostPort s f.port).linkUp := by rw [hadm.places.2.1 f.port]
    have hup : portUp (setNow t s) f.port = true := hs.1.2.1.1
    unfold portUp at hup ⊢
    rw [hlink, hadm.eq]
    exact hup
  · intro x hx
    have := ids_below hs.1 x hx
    rw [hadm.id]
    omega

end

/-- Settles O13. -/
theorem namespaceCommandsComplete : Obligations.NamespaceCommandsComplete := by
  intro t f s hd
  refine ⟨fun h => ?_, fun h => ?_, fun n h hn => ?_, fun h hbuf hlock => ?_⟩
  · refine ⟨{ nsid := newId s s.media.lastNsid, berth := f.berth, blocks := par f 0 8, forward := par f 8 1 == 1 }, ?_, rfl, rfl, rfl, rfl, rfl, ?_⟩
    · simp only [newId]; omega
    · refine answers_now cmdNsCreate .nsCreate h hd (fun b p q a ha _ _ hk => ⟨_, rfl, ?_⟩)
      subst ha
      exact workIs_of_places hk rfl rfl rfl rfl rfl rfl rfl
  · refine answers_apart cmdNsDelete .nsDelete h hd (fun b p q a ha _ => ?_) (repliesAs_wornUpdate {}) (by rw [wornUpdate_frame]) (by rw [wornUpdate_frame])
    subst ha
    exact congrArg (·, okOut [] []) (wornUpdate_admitted
      { s with media := { s.media with nss := s.media.nss.filter (fun n => n.nsid != par a.frame 0 4) }
               eng := { s.eng with wbuf := s.eng.wbuf.filter (fun e => e.nsid != par a.frame 0 4) } } a _ b p q)
  · refine answers_query cmdNsInfo .nsInfo h hd (fun b p q a ha _ _ => ?_)
    subst ha
    have hn' : nsNamed (admitted s a (max s.now t) b p q) a.frame = some n := hn
    simp only [cmdNsInfo, hn']
    rfl
  · refine answers_idle (i := .nsFlush t f) rfl rfl ⟨rfl, fun _ _ => rfl, fun _ _ => rfl, fun _ _ => rfl, fun _ _ => rfl⟩ h
      (unhurt_of_norefs (fun _ _ => rfl) (fun _ _ => rfl)) ?_ (fun _ _ => rfl) rfl hd (by decide)
    have hadm : Admitted f (startedCmd cmdNsFlush t f s) s (running cmdNsFlush t f s) :=
      running_admitted (sp := { cmdNsFlush with slow := fun _ _ => false }) ⟨rfl, fun _ _ => rfl, fun _ _ => rfl, fun _ _ => rfl, fun _ _ => rfl⟩
    have heng : (running cmdNsFlush t f s).eng = s.eng := by
      have e := congrArg State.eng hadm.eq
      exact e
    have hact : (running cmdNsFlush t f s).cmds.active = s.cmds.active ++ [startedCmd cmdNsFlush t f s] := by
      have e := congrArg (fun x : State => x.cmds.active) hadm.eq
      exact e
    show nsPending _ (par f 0 4) _ = false
    rw [nsPending, heng, hact, Bool.or_eq_false_iff, List.any_eq_false, List.any_eq_false]
    refine ⟨fun e he => by simp [hbuf e he], fun x hx => ?_⟩
    rcases List.mem_append.mp hx with hx | hx
    · simp [hlock x hx]
    · rw [List.mem_singleton] at hx
      simp [hx]

theorem placeRun_admitted (q off n len : Nat) (whole : Bool) (s : State) (a : Active) (m : Nat) (b : List Berth) (p : List HostPort) (k : List Queue) :
    placeRun q off n len whole (admitted s a m b p k) = ((placeRun q off n len whole s).1, admitted (placeRun q off n len whole s).2 a m b p k) := rfl

theorem placeRun_frame (q off n len : Nat) (whole : Bool) (s : State) : (placeRun q off n len whole s).2 =
    { s with fresh := (placeRun q off n len whole s).2.fresh, media := { s.media with quays := (placeRun q off n len whole s).2.media.quays } } := rfl

theorem placeRuns_admitted (q size k off left : Nat) (s : State) (a : Active) (m : Nat) (b : List Berth) (p : List HostPort) (l : List Queue) :
    placeRuns q size k off left (admitted s a m b p l) = ((placeRuns q size k off left s).1, admitted (placeRuns q size k off left s).2 a m b p l) := by
  induction k generalizing off left s with
  | zero => rfl
  | succ k ih =>
    unfold placeRuns
    split
    · rfl
    · have hn : quayNarrow (admitted s a m b p l) q = quayNarrow s q := rfl
      simp only [hn, placeRun_admitted, ih]

theorem placeRuns_frame (q size k off left : Nat) (s : State) : (placeRuns q size k off left s).2 =
    { s with fresh := (placeRuns q size k off left s).2.fresh, media := { s.media with quays := (placeRuns q size k off left s).2.media.quays } } := by
  induction k generalizing off left s with
  | zero => rfl
  | succ k ih =>
    unfold placeRuns
    split
    · rfl
    · dsimp only
      rw [ih]
      rfl

/-- The places HOLD_CREATE gives a hold, and the state with them taken. -/
def newHoldRuns (f : Frame) (s : State) : List Run × State :=
  placeRuns (par f 8 1) (par f 0 8) (holdStripes s (par f 8 1) (par f 0 8) / 9216 + 1) 0 (holdStripes s (par f 8 1) (par f 0 8)) (useFresh s)

/-- The hold that HOLD_CREATE adds. -/
def newHold (f : Frame) (s : State) : Hold :=
  { id := newId s s.media.lastHold, berth := f.berth, quay := par f 8 1, size := par f 0 8
    alloc := holdStripes s (par f 8 1) (par f 0 8) * stripeBytes (quayNarrow s (par f 8 1)), runs := (newHoldRuns f s).1 }

theorem holdCreate_work (s : State) (a : Active) (m : Nat) (b : List Berth) (p : List HostPort) (q : List Queue) :
    cmdHoldCreate.work (admitted s a m b p q) a =
      ({ admitted (newHoldRuns a.frame s).2 a m b p q with
          media := { (newHoldRuns a.frame s).2.media with holds := (newHoldRuns a.frame s).2.media.holds ++ [newHold a.frame s], lastHold := newId s s.media.lastHold } },
        okOut (toLE 4 (newHold a.frame s).id) []) := by
  have hruns := placeRuns_admitted (par a.frame 8 1) (par a.frame 0 8) (holdStripes s (par a.frame 8 1) (par a.frame 0 8) / 9216 + 1) 0
    (holdStripes s (par a.frame 8 1) (par a.frame 0 8)) (useFresh s) a m b p q
  have hstripes : holdStripes (admitted s a m b p q) (par a.frame 8 1) (par a.frame 0 8) = holdStripes s (par a.frame 8 1) (par a.frame 0 8) := rfl
  have hfresh : useFresh (admitted s a m b p q) = admitted (useFresh s) a m b p q := rfl
  simp only [cmdHoldCreate, hstripes, hfresh, hruns]
  rfl

theorem markDeleted_admitted (q : Nat) (l : List Run) (s : State) (a : Active) (m : Nat) (b : List Berth) (p : List HostPort) (k : List Queue) :
    markDeleted q l (admitted s a m b p k) = admitted (markDeleted q l s) a m b p k := by
  induction l generalizing s with
  | nil => rfl
  | cons r l ih => exact ih (setSb q { sbOf (getQuayMedia s q) r.sb with hadDeleted := true } s)

theorem markDeleted_frame (q : Nat) (l : List Run) (s : State) :
    markDeleted q l s = { s with media := { s.media with quays := (markDeleted q l s).media.quays } } := by
  induction l generalizing s with
  | nil => rfl
  | cons r l ih =>
    rw [markDeleted, ih]
    rfl

/-- Settles O15. -/
theorem holdCommandsComplete : Obligations.HoldCommandsComplete := by
  intro t f s hd
  refine ⟨fun h => ?_, fun x h hx => ?_, fun x h hx => ?_, fun h => ?_⟩
  · refine ⟨newHold f s, (newHoldRuns f s).2.media.quays, by simp only [newHold, newId]; omega, rfl, rfl, rfl, rfl, rfl, rfl, ?_⟩
    refine answers_now cmdHoldCreate .holdCreate h hd (fun b p q a ha _ _ hk => ?_)
    subst ha
    refine ⟨_, holdCreate_work s a (max s.now t) b p q, ?_⟩
    rw [newHoldRuns, placeRuns_frame]
    exact workIs_of_places hk rfl rfl rfl rfl rfl rfl rfl
  · refine answers_apart cmdHoldDelete .holdDelete h hd (fun b p q a ha _ => ?_) (repliesAs_wornUpdate {}) (by rw [wornUpdate_frame]) (by rw [wornUpdate_frame])
    subst ha
    have hx' : holdNamed (admitted s a (max s.now t) b p q) a.frame = some x := hx
    simp only [cmdHoldDelete, hx', markDeleted_admitted]
    refine congrArg (·, okOut [] []) (Eq.trans ?_ (wornUpdate_admitted _ a _ b p q))
    conv_lhs => rw [markDeleted_frame]
    rfl
  · refine answers_query cmdHoldInfo .holdInfo h hd (fun b p q a ha _ _ => ?_)
    subst ha
    have hx' : holdNamed (admitted s a (max s.now t) b p q) a.frame = some x := hx
    simp only [cmdHoldInfo, hx']
  · refine answers_apart cmdRelocAck .relocAck h hd (fun b p q a ha _ => ?_)
    subst ha
    rfl

end Sys2Proof.Machine

namespace Sys2Proof.Machine

/-! ### The sideband -/

/-- A reply on the sideband, with the register's value as `s` has it and the CRC over both. -/
def sbAnswer (s : State) (result reg : Nat) : Output :=
  .sideband (BitVec.ofNat 8 result) (BitVec.ofNat 8 (sbValue s reg)) (BitVec.ofNat 8 (crc8 [BitVec.ofNat 8 result, BitVec.ofNat 8 (sbValue s reg)]))

theorem sbReply_eq (result reg : Nat) (s : State) : sbReply result reg s = { s with out := sbAnswer s result reg :: s.out } := rfl

/-- The fields of a frame's first byte, read from the frame itself. -/
theorem sbTransaction_eq (w : Nat) (s : State) : sbTransaction w s =
    if ¬ (bits w 20 4 = 0xA ∧ crc8 [BitVec.ofNat 8 (bits w 16 8), BitVec.ofNat 8 (bits w 8 8)] = bits w 0 8) then sbReply sbBadFrame (bits w 16 3) s
    else if bits w 19 1 = 0 then sbReply sbOk (bits w 16 3) s
    else if bits w 16 3 ≠ 3 then sbReply sbRefused (bits w 16 3) s
    else sbReply (sbRequest (bits w 8 8) s).2 3 (sbRequest (bits w 8 8) s).1 := by
  have hreg : bits (bits w 16 8) 0 3 = bits w 16 3 := by simp only [bits]; omega
  have hstart : bits (bits w 16 8) 4 4 = bits w 20 4 := by simp only [bits]; omega
  have hwrite : bits (bits w 16 8) 3 1 = bits w 19 1 := by simp only [bits]; omega
  rw [sbTransaction, hreg, hstart, hwrite]
  refine if_congr ?_ rfl rfl
  rw [not_and_or]

/-- Settles O45. -/
theorem sidebandAnswersTransactions : Obligations.SidebandAnswersTransactions := by
  intro t w s
  have run : exec (.sidebandTransaction t w) s = .next (sbTransaction w.toNat (setNow t s)) := rfl
  refine ⟨fun hb => ?_, fun hg hr => ?_, fun hg hw hr => ?_, fun hg hw hr hc => ?_, fun hg hw hr hc => ?_, fun hg hw hr hc => ?_, fun hg hw hr hc => ?_, rfl⟩
  · rw [run, sbTransaction_eq, if_pos hb]
    rfl
  · rw [run, sbTransaction_eq, if_neg (not_not.mpr hg), if_pos hr]
    rfl
  · rw [run, sbTransaction_eq, if_neg (not_not.mpr hg), if_neg (by omega), if_pos hr]
    rfl
  all_goals
    rw [run, sbTransaction_eq, if_neg (not_not.mpr hg), if_neg (by omega), if_neg (not_not.mpr hr), hc]
    rfl

/-- A request that is refused or finds an earlier one running: only the reply goes out. -/
theorem sbWrite_only {code t : Nat} {s : State} {result : Nat} (h : sbRequest code (setNow t s) = (setNow t s, result)) :
    ∃ v c, sbWrite code t s = { s with now := max s.now t, out := Output.sideband (BitVec.ofNat 8 result) v c :: s.out } := by
  have e : sbWrite code t s = sbReply result 3 (setNow t s) := by rw [sbWrite, h]
  exact ⟨_, _, e⟩

theorem sbRequest_busy {code : Nat} {s : State} (h1 : 1 ≤ code) (h4 : code ≤ 4) (h : sbIsBusy s = true) : sbRequest code s = (s, sbBusy) := by
  unfold sbRequest
  rw [if_neg (by omega), if_pos h]

section
variable {s : State} (h : sbIsBusy s = false)
include h

theorem sbRequest_reset : sbRequest 1 s = requestReset s := by simp [sbRequest, h]
theorem sbRequest_down : sbRequest 2 s = requestDown s := by simp [sbRequest, h]
theorem sbRequest_up : sbRequest 3 s = requestUp s := by simp [sbRequest, h]
theorem sbRequest_cancel : sbRequest 4 s = requestCancel s := by simp [sbRequest, h]

end

/-- What the end of a drain's running time leaves alone. -/
theorem drainIdle_keeps (s : State) : (drainIdle s).dev.state = s.dev.state ∧ (drainIdle s).side = s.side ∧ (drainIdle s).out = s.out := by
  unfold drainIdle
  split
  · split <;> exact ⟨rfl, rfl, rfl⟩
  · exact ⟨rfl, rfl, rfl⟩

/-- A drain that began keeps its end, its time and its origin, whether or not it goes on at once to the time for results. -/
theorem drainIdle_drain {s : State} {d : Drain} (hd : s.dev.drain = some d) :
    ∃ d', (drainIdle s).dev.drain = some d' ∧ d'.thenReset = d.thenReset ∧ d'.holdNs = d.holdNs ∧ d'.fromSideband = d.fromSideband := by
  unfold drainIdle
  rw [hd]
  dsimp only
  split
  · exact ⟨_, rfl, rfl, rfl, rfl⟩
  · exact ⟨d, hd, rfl, rfl, rfl⟩

theorem wakeAll_keeps (s : State) : (wakeAll s).dev = s.dev ∧ (wakeAll s).side = s.side ∧ (wakeAll s).out = s.out := by
  unfold wakeAll
  split <;> exact ⟨rfl, rfl, rfl⟩

theorem closeEvent_frame (s : State) : closeEvent s = { s with storm := { s.storm with openEvent := false }, motionLog := (closeEvent s).motionLog } := by
  unfold closeEvent modOpenEvent modStorm
  split
  · rfl
  · have : s.storm.openEvent = false := by simpa using ‹¬ s.storm.openEvent = true›
    rw [← this]

theorem powerOff_now (s : State) : (powerOff s).now = s.now := by
  rw [powerOff, closeEvent_frame]
  rfl

theorem powerOff_state (s : State) : (powerOff s).dev.state = .powered := rfl

theorem powerOff_prev (s : State) : (powerOff s).dev.prev = s.dev.state := by
  rw [powerOff, closeEvent_frame]
  rfl

theorem powerOff_side (s : State) : (powerOff s).side = { s.side with railsOn := false, pdPending := false } := by
  rw [powerOff, closeEvent_frame]
  rfl

/-- A drain begun in a device state other than BRACED. -/
theorem startDrain_eq {s : State} (h : s.dev.state ≠ .braced) (r : Bool) (n : Nat) (b : Bool) : (startDrain r n b s).dev.state = .draining ∧
    (startDrain r n b s).side = s.side ∧ (startDrain r n b s).out = s.out ∧
    ∃ d, (startDrain r n b s).dev.drain = some d ∧ d.thenReset = r ∧ d.holdNs = n ∧ d.fromSideband = b := by
  obtain ⟨hdev, hside, hout⟩ := wakeAll_keeps (enterState .draining s)
  unfold startDrain
  simp only [if_neg h]
  obtain ⟨hst, hs, ho⟩ := drainIdle_keeps { wakeAll (enterState .draining s) with dev := { (wakeAll (enterState .draining s)).dev with
    drain := some { thenReset := r, holdNs := n, stage := .running, since := (wakeAll (enterState .draining s)).now, fromSideband := b } } }
  obtain ⟨d, hd, hr, hn, hb⟩ := drainIdle_drain (s := { wakeAll (enterState .draining s) with dev := { (wakeAll (enterState .draining s)).dev with
    drain := some { thenReset := r, holdNs := n, stage := .running, since := (wakeAll (enterState .draining s)).now, fromSideband := b } } }) rfl
  exact ⟨hst.trans (congrArg Device.state hdev), hs.trans hside, ho.trans hout, d, hd, hr, hn, hb⟩

theorem requestReset_off {s : State} (h : s.dev.state = .trial ∨ s.dev.state = .mounting ∨ s.dev.state = .dryDock) : requestReset s =
    ({ railsOff 3 (sbAccept 1 s) with side := { (railsOff 3 (sbAccept 1 s)).side with busy := true } }, sbOk) := by
  unfold requestReset
  rcases h with h | h | h <;> rw [h]

theorem requestReset_seal {s : State} (h : s.dev.state = .ready ∨ s.dev.state = .braced ∨ s.dev.state = .draining) : requestReset s =
    ({ sbAccept 1 s with dev := { (sbAccept 1 s).dev with resetSeal := some 3 }, side := { (sbAccept 1 s).side with busy := true } }, sbOk) := by
  unfold requestReset
  rcases h with h | h | h <;> rw [h]

/-- Settles O46. -/
theorem sidebandRequestsAct : Obligations.SidebandRequestsAct := by
  intro t s
  dsimp only
  have only {code result : Nat} {i : Instr} (hi : exec i s = .next (sbWrite code t s)) (h : sbRequest code (setNow t s) = (setNow t s, result)) :
      ∃ v c, exec i s = .next { s with now := max s.now t, out := Output.sideband (BitVec.ofNat 8 result) v c :: s.out } := by
    obtain ⟨v, c, e⟩ := sbWrite_only h
    exact ⟨v, c, by rw [hi, e]⟩
  refine ⟨fun hb => ?_, fun hb => ⟨fun hs => ?_, fun hs => ?_, fun hs => ?_, fun hs => ?_, fun hs => ?_, fun hs => ?_, fun hs hp => ?_, fun hs => ?_, fun hs hd ht hl => ?_, fun hs => ?_⟩⟩
  · have hb' : sbIsBusy (setNow t s) = true := hb
    exact ⟨only rfl (sbRequest_busy (by omega) (by omega) hb'), only rfl (sbRequest_busy (by omega) (by omega) hb'),
      only rfl (sbRequest_busy (by omega) (by omega) hb'), only rfl (sbRequest_busy (by omega) (by omega) hb')⟩
  all_goals have hb' : sbIsBusy (setNow t s) = false := hb
  · refine ⟨sbWrite 1 t s, rfl, ?_⟩
    rw [sbWrite, sbRequest_reset hb', requestReset_off (s := setNow t s) hs]
    refine ⟨⟨_, _, _, rfl⟩, rfl, rfl, congrArg some (powerOff_now _), rfl, ?_⟩
    exact congrArg Sideband.request (powerOff_side (sbAccept 1 (setNow t s)))
  · refine ⟨sbWrite 1 t s, rfl, ?_⟩
    rw [sbWrite, sbRequest_reset hb', requestReset_seal (s := setNow t s) hs]
    exact ⟨⟨_, _, _, rfl⟩, rfl⟩
  · refine only rfl (sbRequest_reset hb' |>.trans ?_)
    have : (setNow t s).dev.state = .powered := hs
    simp only [requestReset, this]
    rfl
  · refine ⟨sbWrite 2 t s, rfl, ?_⟩
    have : (setNow t s).dev.state = .ready := hs
    obtain ⟨hst, hside, hout, hd⟩ := startDrain_eq (s := sbAccept 2 { setNow t s with side := { s.side with busy := true } }) (by simp [sbAccept, setNow, hs]) false 0 true
    rw [sbWrite, sbRequest_down hb']
    simp only [requestDown, this, sbReply_eq]
    exact ⟨⟨_, _, _, rfl⟩, hst, congrArg Sideband.request hside, congrArg Sideband.busy hside, hd⟩
  · refine ⟨sbWrite 2 t s, rfl, ?_⟩
    have : (setNow t s).dev.state = .braced := hs
    rw [sbWrite, sbRequest_down hb']
    simp only [requestDown, this]
    exact ⟨⟨_, _, _, rfl⟩, rfl⟩
  · refine only rfl (sbRequest_down hb' |>.trans ?_)
    have : (setNow t s).dev.state = s.dev.state := rfl
    rcases hs with h | h | h | h <;> simp only [requestDown, this, h] <;> rfl
  · refine ⟨sbWrite 4 t s, rfl, ?_⟩
    have hc : ((setNow t s).dev.state == .braced && (setNow t s).side.pdPending) = true := by simp [setNow, hs, hp]
    rw [sbWrite, sbRequest_cancel hb', requestCancel, if_pos hc]
    exact ⟨⟨_, _, _, rfl⟩, rfl⟩
  · refine only rfl (sbRequest_cancel hb' |>.trans ?_)
    rw [requestCancel, if_neg]
    · rfl
    · rcases hs with h | h <;> simp [setNow, h]
  · refine ⟨sbWrite 3 t s, rfl, ?_⟩
    have hc : ((setNow t s).dev.state == .powered && (setNow t s).side.drained && (setNow t s).side.tripped == 0 && !(setNow t s).side.lockout) = true := by
      simp [setNow, hs, hd, ht, hl]
    rw [sbWrite, sbRequest_up hb', requestUp, if_pos hc]
    exact ⟨⟨_, _, _, rfl⟩, rfl⟩
  · refine only rfl (sbRequest_up hb' |>.trans ?_)
    rw [requestUp, if_neg]
    · rfl
    · rcases hs with h | h <;> simp [setNow, h]

end Sys2Proof.Machine

namespace Sys2Proof.Machine

/-! ### Heat and input power -/

theorem trackSteps_frame (s : State) : trackSteps s =
    modThermal (fun t => { t with stepFrom := (trackSteps s).thermal.stepFrom, throttleMs := (trackSteps s).thermal.throttleMs }) s := by
  unfold trackSteps
  split <;> rfl

theorem sensorState_trackSteps (s : State) (x : Sensor) : sensorState (trackSteps s) x = sensorState s x := by
  rw [trackSteps_frame]
  rfl

theorem sensorState_congr {s u : State} (h : u.thermal.sensors = s.thermal.sensors) (x : Sensor) : sensorState u x = sensorState s x := by
  rw [sensorState, sensorState, h]

theorem sensorState_sensor (s : State) (x : Sensor) : (sensorState s x).sensor = x := by
  unfold sensorState
  cases h : s.thermal.sensors.find? (fun y => y.sensor == x) with
  | none => rfl
  | some y => simpa using List.find?_some h

theorem sensorState_modSensor (x : Sensor) (g : SensorState → SensorState) (s : State) (hg : ∀ y, (g y).sensor = y.sensor) :
    sensorState (modSensor x g s) x = g (sensorState s x) := by
  have h : ((g (sensorState s x)).sensor == x) = true := by rw [hg, sensorState_sensor, beq_self_eq_true]
  show ((g (sensorState s x) :: s.thermal.sensors.filter (fun y => y.sensor != x)).find? (fun y => y.sensor == x)).getD _ = _
  rw [List.find?_cons, h]
  rfl

/-- A state that differs from `s` in heat and input power only. -/
def HeatOnly (s u : State) : Prop := u = { s with thermal := u.thermal }

theorem HeatOnly.modThermal (g : Thermal → Thermal) {s u : State} (h : HeatOnly s u) : HeatOnly s (modThermal g u) := by
  rw [HeatOnly] at h ⊢
  rw [h]
  rfl

theorem HeatOnly.trackSteps {s u : State} (h : HeatOnly s u) : HeatOnly s (trackSteps u) := by
  rw [trackSteps_frame]
  exact h.modThermal _

theorem powered_of {s : State} (t : Nat) (h : s.dev.state ≠ .powered) : powered (setNow t s) = true := by
  simp [powered, setNow, h]

/-- A state that differs from `s` in heat and in the temperature extremes and minutes of the logbook only. -/
def HeatAndLog (s u : State) : Prop := u = { s with thermal := u.thermal, lb := { s.lb with
  quayTempMax := u.lb.quayTempMax, quayTempMin := u.lb.quayTempMin, minAbove70 := u.lb.minAbove70, minAbove85 := u.lb.minAbove85 } }

theorem HeatOnly.log {s u : State} (h : HeatOnly s u) : HeatAndLog s u := by
  rw [HeatOnly] at h
  rw [HeatAndLog, h]

theorem HeatAndLog.modThermal (g : Thermal → Thermal) {s u : State} (h : HeatAndLog s u) : HeatAndLog s (modThermal g u) := by
  rw [HeatAndLog] at h ⊢
  rw [h]
  rfl

theorem HeatAndLog.trackSteps {s u : State} (h : HeatAndLog s u) : HeatAndLog s (trackSteps u) := by
  rw [trackSteps_frame]
  exact h.modThermal _

theorem thermalEvent_heatOnly (b : BitVec 4) {s u : State} (h : HeatOnly s u) : HeatOnly s (thermalEvent b u) := h.modThermal _

theorem quayHeat_heatAndLog (q : Nat) (v : Int) {s u : State} (h : HeatOnly s u) : HeatAndLog s (quayHeat q v u) := by
  rw [HeatOnly] at h
  rw [HeatAndLog, quayHeat, h]
  rfl

theorem quayHeat_samples (q : Nat) (v : Int) (s : State) (x : Sensor) (h : x = .quay q) :
    (sensorState (quayHeat q v s) x).samples = (sensorState s x).samples ∧ (sensorState (quayHeat q v s) x).lastAt = (sensorState s x).lastAt := by
  subst h
  have e : sensorState (quayHeat q v s) (.quay q) = _ := sensorState_modSensor (.quay q)
    (fun y => { y with above70 := ((sensorState s (.quay q)).above70 + (if 1120 < v then 1 else 0)) % 60000
                       above85 := ((sensorState s (.quay q)).above85 + (if 1360 < v then 1 else 0)) % 60000 }) s (fun _ => rfl)
  rw [e]
  exact ⟨rfl, rfl⟩

/-- The sensor with its step and the times since when it has been cool. -/
def stepSensor (x : Sensor) (v : Int) (s : State) : State :=
  let th := stepsOf x
  let y := sensorState s x
  let n := max y.step (th.filter (fun a => decide (a ≤ v))).length
  let cool := (List.range th.length).map (fun i => if v ≤ th.getD i 0 - 48 then some (((y.cool.getD i none)).getD s.now) else none)
  modSensor x (fun y => { y with step := n, cool := cool }) s

/-- The sensor's step with the events that it raises. -/
def stepTemp (x : Sensor) (v : Int) (s : State) : State :=
  let s1 := stepSensor x v s
  let s2 := if (sensorState s x).step < max (sensorState s x).step ((stepsOf x).filter (fun a => decide (a ≤ v))).length then thermalEvent 1 s1 else s1
  if x = .inlet ∧ 640 ≤ v then thermalEvent 8 s2 else s2

theorem applyTemp_quay (q : Nat) (v : Int) (s : State) : applyTemp (.quay q) v s = quayHeat q v (stepTemp (.quay q) v s) := rfl

theorem applyTemp_other {x : Sensor} (h : ∀ q, x ≠ .quay q) (v : Int) (s : State) : applyTemp x v s = stepTemp x v s := by
  cases x with
  | quay q => exact absurd rfl (h q)
  | compute | ioDie | regulator | inlet | outlet => rfl

theorem stepTemp_heatOnly (x : Sensor) (v : Int) (s : State) : HeatOnly s (stepTemp x v s) := by
  unfold stepTemp
  dsimp only
  split <;> split <;> rfl

theorem stepTemp_sensors (x : Sensor) (v : Int) (s : State) : (stepTemp x v s).thermal.sensors = (stepSensor x v s).thermal.sensors := by
  unfold stepTemp
  dsimp only
  split <;> split <;> rfl

theorem stepTemp_samples (x : Sensor) (v : Int) (s : State) :
    (sensorState (stepTemp x v s) x).samples = (sensorState s x).samples ∧ (sensorState (stepTemp x v s) x).lastAt = (sensorState s x).lastAt := by
  rw [sensorState_congr (stepTemp_sensors x v s) x, stepSensor, sensorState_modSensor]
  · exact ⟨rfl, rfl⟩
  · exact fun _ => rfl

/-- A temperature moves its sensor's step and no sample. -/
theorem applyTemp_samples (x : Sensor) (v : Int) (s : State) :
    (sensorState (applyTemp x v s) x).samples = (sensorState s x).samples ∧ (sensorState (applyTemp x v s) x).lastAt = (sensorState s x).lastAt := by
  obtain ⟨hs, hl⟩ := stepTemp_samples x v s
  by_cases h : ∃ q, x = .quay q
  · obtain ⟨q, rfl⟩ := h
    obtain ⟨hs', hl'⟩ := quayHeat_samples q v (stepTemp (.quay q) v s) _ rfl
    exact ⟨hs'.trans hs, hl'.trans hl⟩
  · rw [applyTemp_other (fun q hq => h ⟨q, hq⟩)]
    exact ⟨hs, hl⟩

theorem applyTemp_heatAndLog (x : Sensor) (v : Int) {s u : State} (hu : HeatOnly s u) : HeatAndLog s (applyTemp x v u) := by
  have h : HeatOnly s (stepTemp x v u) := by
    rw [HeatOnly] at hu ⊢
    rw [stepTemp_heatOnly x v u, hu]
  cases x with
  | quay q => exact quayHeat_heatAndLog q v h
  | compute | ioDie | regulator | inlet | outlet => exact h.log

theorem validTemp_heatAndLog (x : Sensor) (v : Int) (s : State) : HeatAndLog s (validTemp x v s) := by
  unfold validTemp
  dsimp only
  split
  · exact applyTemp_heatAndLog x _ rfl
  · rfl

theorem validTemp_samples (x : Sensor) (v : Int) (s : State) :
    (sensorState (validTemp x v s) x).samples = (v :: (sensorState s x).samples).take 5 ∧ (sensorState (validTemp x v s) x).lastAt = s.now := by
  unfold validTemp
  dsimp only
  split
  · obtain ⟨hs, hl⟩ := applyTemp_samples x _ _
    rw [hs, hl, sensorState_modSensor]
    · exact ⟨rfl, rfl⟩
    · exact fun _ => rfl
  · rw [sensorState_modSensor]
    · exact ⟨rfl, rfl⟩
    · exact fun _ => rfl

/-- Settles O47. -/
theorem temperaturesAndTrips : Obligations.TemperaturesAndTrips := by
  intro t x s
  refine ⟨fun v hp hx h1 h2 => ?_, fun v hp hx hv => ?_, fun v h => ?_, fun hp hx hf hd => ?_, fun hd => ?_, fun c hst hc hd => ?_, fun hst => ?_,
    fun th c v ht hv hp hle h0 hsw hfl => ?_, fun th c v ht hv hlt => ?_, fun ht => ?_⟩
  · obtain ⟨hs, hl⟩ := validTemp_samples x v (setNow t s)
    have e : exec (.temperatureSample t x v) s = .next (trackSteps (validTemp x v (setNow t s))) := by
      show execTemperatureSample t x v s = _
      simp [execTemperatureSample, powered_of t hp, hx, not_lt.mpr h1, not_lt.mpr h2]
    refine ⟨_, e, ?_, ?_, (validTemp_heatAndLog x v (setNow t s)).trackSteps⟩
    · rw [sensorState_trackSteps, hs]
      rfl
    · rw [sensorState_trackSteps, hl]
      rfl
  · have e : exec (.temperatureSample t x v) s = .next (trackSteps (modSensor x (fun y => { y with run := 0 }) (setNow t s))) := by
      show execTemperatureSample t x v s = _
      simp [execTemperatureSample, powered_of t hp, hx, hv]
    have h : sensorState (trackSteps (modSensor x (fun y => { y with run := 0 }) (setNow t s))) x = { sensorState s x with run := 0 } := by
      rw [sensorState_trackSteps, sensorState_modSensor]
      · rfl
      · exact fun _ => rfl
    exact ⟨_, e, by rw [h], by rw [h], HeatOnly.trackSteps (s := setNow t s) rfl⟩
  · show execTemperatureSample t x v s = _
    rw [execTemperatureSample]
    rcases h with h | h <;> simp [powered, setNow, h]
  · have hc : powered (setNow t s) ∧ sensorExists x ∧ !(sensorState (setNow t s) x).fault ∧
        max (sensorState (setNow t s) x).lastAt (setNow t s).dev.trialAt + 10000000 ≤ (setNow t s).now :=
      ⟨powered_of t hp, hx, by rw [show (sensorState (setNow t s) x).fault = false from hf]; rfl, hd⟩
    refine ⟨_, if_pos hc, ?_, ?_, HeatOnly.trackSteps (s := setNow t s) rfl⟩
    · rw [sensorState_trackSteps]
      refine (congrArg SensorState.fault (sensorState_congr (s := modSensor x (fun y => { y with fault := true, run := 0 }) (setNow t s)) rfl x)).trans ?_
      rw [sensorState_modSensor]
      exact fun _ => rfl
    · rw [trackSteps_frame]
      rfl
  · exact if_neg (fun h => by have := h.2.2.2; change _ ≤ max s.now t at this; change max (sensorState s x).lastAt s.dev.trialAt + 10000000 ≤ _ at this; omega)
  · have e : exec (.thermalStepExit t x) s = .next (trackSteps (modSensor x (fun y => { y with step := y.step - 1 }) (setNow t s))) := by
      show execThermalStepExit t x s = _
      have h : sensorState (setNow t s) x = sensorState s x := rfl
      have hd' : c + 1000000000 ≤ (setNow t s).now := hd
      simp only [execThermalStepExit, h, if_neg hst, hc, if_pos hd']
    refine ⟨_, e, ?_, HeatOnly.trackSteps (s := setNow t s) rfl⟩
    rw [sensorState_trackSteps, sensorState_modSensor]
    · rfl
    · exact fun _ => rfl
  · show execThermalStepExit t x s = _
    have h : sensorState (setNow t s) x = sensorState s x := rfl
    simp only [execThermalStepExit, h, hst, if_true]
  · show execThermalTrip t x s = _
    have h : filtered (setNow t s) x = some v := hv
    have hc : powered (setNow t s) ∧ th ≤ v ∧ (setNow t s).side.tripped = 0 := ⟨powered_of t hp, hle, h0⟩
    have ho : openSwitch c (setNow t s) = _ := if_pos ⟨hsw, hfl⟩
    simp only [execThermalTrip, ht, h, if_pos hc, ho]
    rfl
  · show execThermalTrip t x s = _
    have h : filtered (setNow t s) x = some v := hv
    simp only [execThermalTrip, ht, h]
    exact if_neg (fun h => by have := h.2.1; omega)
  · show execThermalTrip t x s = _
    simp only [execThermalTrip, ht]

/-! ### Input power -/

/-- A valid sample taken while the monitor has not failed. -/
def powerTaken (w : Int) (s : State) : State :=
  modThermal (fun x => { x with samples := (w.toNat :: x.samples).take 10, lastPower := s.now, validFrom := none }) s

/-- The power step after a sample (R447). -/
def powerRaised (s : State) : State :=
  if avgAbove s (powerLimit s - 40) && decide (s.thermal.powerStep < 3 ∧ (s.thermal.powerStep = 0 ∨ s.thermal.stepAt + 1000000 ≤ s.now)) then
    thermalEvent 1 (modThermal (fun x => { x with powerStep := x.powerStep + 1, stepAt := s.now }) s)
  else s

/-- The time since when the average has been low. -/
def lowTracked (l : Nat) (s : State) : State :=
  modThermal (fun x => { x with lowFrom := if avgBelow s (l - 150) then some (x.lowFrom.getD s.now) else none }) s

theorem execPowerSample_valid {t : Nat} {w : Int} {s : State} (hp : s.dev.state ≠ .powered) (h0 : 0 ≤ w) (h1 : w ≤ 3000) (hf : s.thermal.powerFault = false) :
    execPowerSample t w s = .next (trackSteps (lowTracked (powerLimit (powerTaken w (setNow t s))) (powerRaised (powerTaken w (setNow t s))))) := by
  have hsample : modThermal (fun x => { x with
      samples := (w.toNat :: x.samples).take 10, lastPower := (setNow t s).now,
      validFrom := (if x.powerFault then some (x.validFrom.getD (setNow t s).now) else none) }) (setNow t s) = powerTaken w (setNow t s) := by
    simp [modThermal, powerTaken, setNow, hf]
  have hf' : (powerTaken w (setNow t s)).thermal.powerFault = false := hf
  unfold execPowerSample
  dsimp only
  rw [hsample, powered_of t hp, if_neg (by simp), if_neg (by omega)]
  simp only [hf', Bool.false_eq_true, false_and, if_false]
  rfl

theorem powerRaised_eq (s : State) : HeatOnly s (powerRaised s) ∧ (powerRaised s).thermal.samples = s.thermal.samples ∧
    (powerRaised s).thermal.lastPower = s.thermal.lastPower ∧ (powerRaised s).thermal.powerStep =
      if (powerLimit s - 40) * s.thermal.samples.length < sumNat s.thermal.samples ∧ s.thermal.powerStep < 3 ∧
        (s.thermal.powerStep = 0 ∨ s.thermal.stepAt + 1000000 ≤ s.now) then s.thermal.powerStep + 1 else s.thermal.powerStep := by
  unfold powerRaised
  rw [avgAbove, ← Bool.decide_and]
  simp only [decide_eq_true_eq]
  split <;> exact ⟨rfl, rfl, rfl, rfl⟩

/-- Settles O48. -/
theorem inputPowerSteps : Obligations.InputPowerSteps := by
  intro t s
  refine ⟨fun w hp h0 h1 hf => ?_, fun w hp hw => ?_, fun w hp => ?_, fun hp hd => ?_, fun hd => ?_, fun x hx hd hst hf => ?_, fun h => ?_⟩
  · obtain ⟨hh, hs, hl, hst⟩ := powerRaised_eq (powerTaken w (setNow t s))
    refine ⟨_, execPowerSample_valid hp h0 h1 hf, ?_, ?_, ?_, HeatOnly.trackSteps (HeatOnly.modThermal _ (s := setNow t s) ?_)⟩
    · rw [trackSteps_frame]
      exact hs
    · rw [trackSteps_frame]
      exact hl
    · rw [trackSteps_frame]
      exact hst
    · rw [HeatOnly] at hh ⊢
      rw [hh]
      rfl
  · show execPowerSample t w s = _
    unfold execPowerSample
    simp only [powered_of t hp, hw, if_true, Bool.not_true, Bool.false_eq_true, if_false]
    rfl
  · show execPowerSample t w s = _
    have : powered (setNow t s) = false := by simp [powered, setNow, hp]
    simp only [execPowerSample, this]
    rfl
  · have hc : powered (setNow t s) ∧ max (setNow t s).thermal.lastPower (setNow t s).dev.trialAt + 1000000 ≤ (setNow t s).now := ⟨powered_of t hp, hd⟩
    refine ⟨_, if_pos hc, ?_, ?_, ?_, HeatOnly.trackSteps (s := setNow t s) ?_⟩
    · rw [trackSteps_frame]
      rfl
    · rw [trackSteps_frame]
      rfl
    · rw [trackSteps_frame]
      rfl
    · split <;> rfl
  · exact if_neg (fun h => by have := h.2; change max s.thermal.lastPower s.dev.trialAt + 1000000 ≤ max s.now t at this; omega)
  · have hc : x + 10000000 ≤ (setNow t s).now ∧ 0 < (setNow t s).thermal.powerStep ∧ !(setNow t s).thermal.powerFault := ⟨hd, hst, by simp [setNow, hf]⟩
    have e : exec (.powerStepExit t) s = .next (trackSteps (modThermal (fun y => { y with powerStep := y.powerStep - 1, lowFrom := some (max s.now t), stepAt := max s.now t }) (setNow t s))) := by
      show execPowerStepExit t s = _
      have hx' : (setNow t s).thermal.lowFrom = some x := hx
      simp only [execPowerStepExit, hx', if_pos hc]
      rfl
    refine ⟨_, e, ?_, ?_, HeatOnly.trackSteps (s := setNow t s) rfl⟩
    · rw [trackSteps_frame]
      rfl
    · rw [trackSteps_frame]
      rfl
  · show execPowerStepExit t s = _
    unfold execPowerStepExit
    dsimp only
    split
    · next x hx =>
      have hx' : s.thermal.lowFrom = some x := hx
      refine if_neg (fun hc => ?_)
      obtain ⟨-, hst, hf⟩ := hc
      have hst' : 0 < s.thermal.powerStep := hst
      have hf' : (!s.thermal.powerFault) = true := hf
      rcases h with h | h | h
      · simp [hx'] at h
      · omega
      · simp [h] at hf'
    · rfl

end Sys2Proof.Machine

namespace Sys2Proof.Machine

/-! ### Power states -/

theorem idleRuns_setNow (t : Nat) (s : State) : idleRuns (setNow t s) = idleRuns s := rfl

/-- Settles O32. -/
theorem powerStatesFollowTheTimers : Obligations.PowerStatesFollowTheTimers := by
  intro t s
  refine ⟨fun hi hc hm hu hd => ?_, fun hi hc hm hu hd => ?_, fun hi hc hm hu hd => ?_, fun hi => ⟨?_, ?_, ?_⟩, fun p hp ha hw => ?_, fun hp => ?_⟩
  · have hu' : usesUpTo (setNow t s) 0 = false := hu
    refine if_pos ?_
    rw [idleRuns_setNow, hi, hu']
    simp [setNow, hc, hm, hd]
  · have hu' : usesUpTo (setNow t s) 1 = false := hu
    refine if_pos ?_
    rw [idleRuns_setNow, hi, hu']
    simp [setNow, hc, hm, hd]
  · have hu' : usesUpTo (setNow t s) 2 = false := hu
    refine if_pos ?_
    rw [idleRuns_setNow, hi, hu']
    simp [setNow, hc, hm, hd]
  · exact if_neg (by rw [idleRuns_setNow, hi]; simp)
  · exact if_neg (by rw [idleRuns_setNow, hi]; simp)
  · exact if_neg (by rw [idleRuns_setNow, hi]; simp)
  · show execPowerExitComplete t s = _
    have hp' : (setNow t s).power.exitTo = some p := hp
    have ha' : alive (setNow t s) = true := ha
    have hw' : waitingIds { setNow t s with power := { (setNow t s).power with
        current := p, exitTo := none, lastP0 := (setNow t s).now, lastNand := (setNow t s).now, lastSram := (setNow t s).now } } = [] := hw
    simp only [execPowerExitComplete, hp', ha', if_true, hw', startWaiting]
    rfl
  · show execPowerExitComplete t s = _
    have hp' : (setNow t s).power.exitTo = none := hp
    simp only [execPowerExitComplete, hp']

/-! ### Announcements, and the state that stays when a port is seen to -/

/-- The state whose announcement goes out: its number counted, its repeat begun. -/
def announceBegun (s : State) : State :=
  useFresh { s with lb := { s.lb with announceNo := satAdd 32 s.lb.announceNo 1 }, storm := { s.storm with repeatAt := s.now } }

theorem announce_sends (s : State) : Sends (announceBegun s) (announce s) := by
  unfold announce
  refine Sends.foldl (fun u p h => h.sendFrom _ _ _) _ ?_
  split <;> split
  · exact Sends.foldl (fun u p h => h.sendNotice _ _ _ _ _ _ _ _ _) _ (Sends.foldl (fun u d h => h.sendNotice _ _ _ _ _ _ _ _ _) _ (Sends.refl _))
  · exact Sends.foldl (fun u p h => h.sendNotice _ _ _ _ _ _ _ _ _) _ (Sends.refl _)
  · exact Sends.foldl (fun u d h => h.sendNotice _ _ _ _ _ _ _ _ _) _ (Sends.refl _)
  · exact Sends.refl _

theorem announce_eq (s : State) : announce s = { announceBegun s with
    out := (announce s).out, hawser := (announce s).hawser, net := { s.net with ports := (announce s).net.ports } } :=
  (announce_sends s).hawserOnly.eq

theorem portUp_announce (s : State) (n : Nat) : portUp (announce s) n = portUp s n := (announce_sends s).portUp n

theorem moveFrames_sends (p : Nat) (l : List Bytes) (peer : Nat) (s : State) : Sends s (moveFrames p l peer s) := by
  unfold moveFrames
  split
  · exact Sends.refl _
  · exact Sends.foldl (fun u x h => h.sendFrom _ _ _) _ (Sends.refl _)

theorem leaveLink_hawserOnly (p : Nat) (st : HawserState) (s : State) : HawserOnly s (leaveLink p st s) :=
  ((((HawserOnly.refl s).modHawserPort p _).modCredits p _).trans (enterPort_hawserOnly p st _)).trans (moveFrames_sends ..).hawserOnly

theorem portDown_hawserOnly (p : Nat) (s : State) : HawserOnly s (portDown p s) := leaveLink_hawserOnly p .down s

theorem refreshPort_hawserOnly (p : Nat) (s : State) : HawserOnly s (refreshPort p s) := by
  unfold refreshPort
  dsimp only
  have h1 : HawserOnly s (if (hawserPort s p).state = .absent then enterPort p .down s else s) := by
    split
    · exact enterPort_hawserOnly p .down s
    · exact HawserOnly.refl s
  generalize (if (hawserPort s p).state = .absent then enterPort p .down s else s) = s1 at h1 ⊢
  split
  · exact leaveLink_hawserOnly p .absent s
  · split
    · split
      · exact h1.trans (startAttempt_hawserOnly p _)
      · exact h1
    · split
      · exact h1
      · exact h1.trans (portDown_hawserOnly p _)

theorem refreshPorts_hawserOnly (s : State) : HawserOnly s (refreshPorts s) := by
  unfold refreshPorts
  generalize List.range 6 = l
  induction l generalizing s with
  | nil => exact HawserOnly.refl s
  | cons p l ih => exact (refreshPort_hawserOnly p s).trans (ih _)

/-! ### The end of a brace -/

/-- The state in which a calm module announces itself. -/
def calmBegun (s : State) : State :=
  closeEvent (enterState .ready { s with storm := { s.storm with state := .calm, since := ptpNow s } })

theorem calmBegun_eq (s : State) : calmBegun s = { s with
    storm := { s.storm with state := .calm, since := ptpNow s, openEvent := false }
    motionLog := (calmBegun s).motionLog
    media := { s.media with service := serviceNs s }
    dev := { s.dev with state := .ready, prev := s.dev.state, enteredAt := s.now } } := by
  rw [calmBegun, closeEvent_frame]
  rfl

theorem calmDown_eq {s : State} (h : s.side.pdPending = false) : calmDown s = freeKept (restartIdle (announce (calmBegun s))) := by
  have hs : (freeKept (restartIdle (announce (calmBegun s)))).side.pdPending = false := by
    rw [announce_eq, calmBegun_eq]
    exact h
  rw [calmDown]
  exact if_neg (by rw [show (freeKept (restartIdle (announce (closeEvent (enterState .ready { s with storm := { s.storm with state := .calm, since := ptpNow s } }))))).side.pdPending = false from hs]; simp)

/-- Settles O37. -/
theorem holdOffEndsTheBrace : Obligations.HoldOffEndsTheBrace := by
  intro t s
  refine ⟨fun ha hs hst hd hh hp => ?_, fun h => ?_⟩
  · have hc : (alive (setNow t s) && (setNow t s).dev.state == .braced && (setNow t s).storm.state == .settle && (setNow t s).dev.drain.isNone &&
        decide ((setNow t s).storm.holdAt + holdOffNs (setNow t s) ≤ (setNow t s).now)) = true := by
      have ha' : alive (setNow t s) = true := ha
      have hh' : (setNow t s).storm.holdAt + holdOffNs (setNow t s) ≤ (setNow t s).now := hh
      rw [ha', decide_eq_true hh']
      simp [setNow, hs, hst, hd]
    have e : exec (.holdOffExpiry t) s = .next (freeKept (restartIdle (announce (calmBegun (setNow t s))))) :=
      (if_pos hc).trans (congrArg _ (calmDown_eq (s := setNow t s) hp))
    refine ⟨_, e, ?_⟩
    rw [announce_eq, calmBegun_eq]
    exact ⟨rfl, hs, rfl, rfl, rfl, rfl, rfl, rfl⟩
  · refine if_neg (fun hc => ?_)
    simp only [Bool.and_eq_true, beq_iff_eq, decide_eq_true_eq, Option.isNone_iff_eq_none] at hc
    obtain ⟨⟨⟨⟨-, hs⟩, hst⟩, hd⟩, hh⟩ := hc
    have hh' : s.storm.holdAt + holdOffNs s ≤ max s.now t := hh
    rcases h with h | h | h | h
    · exact h hs
    · exact h hst
    · exact h hd
    · omega

/-! ### Holdup -/

/-- Settles O39. -/
theorem holdupMeasurementIsTheFormula : Obligations.HoldupMeasurementIsTheFormula := by
  intro t v1 v2 s ha hs
  refine ⟨fun hm h1 h2 => ?_, fun h1 => ?_⟩
  · have hc : (alive (setNow t s) && ((setNow t s).dev.state == .mounting || (setNow t s).dev.state == .ready) &&
        (!(setNow t s).pf.measured || ((setNow t s).dev.state == .ready && decide ((setNow t s).pf.measuredAt + 86400000000000 ≤ (setNow t s).now))) &&
        decide (79000 ≤ v1)) = true := by
      have ha' : alive (setNow t s) = true := ha
      have hm' : (setNow t s).pf.measured = false := hm
      have hs' : ((setNow t s).dev.state == .mounting || (setNow t s).dev.state == .ready) = true := by simpa [setNow] using hs
      rw [ha', hs', hm', decide_eq_true h1]
      rfl
    have he : holdupEnergy (setNow t s) v1 v2 = 240000000000 / (v1 * v1 - v2 * v2) := if_pos h2
    refine (if_pos hc).trans ?_
    rw [he]
    rfl
  · refine if_neg (fun hc => ?_)
    simp only [Bool.and_eq_true, decide_eq_true_eq] at hc
    omega

/-! ### Input and rails -/

theorem openSwitch_closed {cause : Nat} {s : State} (h : s.side.switchClosed = true) (hf : s.pf.flushAt = none) :
    openSwitch cause s = { s with side := { s.side with switchClosed := false, openCause := cause } } := if_pos ⟨h, hf⟩

theorem openSwitch_open {cause : Nat} {s : State} (h : s.side.switchClosed = false ∨ s.pf.flushAt ≠ none) : openSwitch cause s = s := by
  refine if_neg (fun hc => ?_)
  rcases h with h | h
  · simp [h] at hc
  · exact h hc.2

end Sys2Proof.Machine

namespace Sys2Proof.Machine

/-! ### The boot chain -/

/-- A state that differs from `s` in its device, boot and trust state only, and in the service time that a change of state counts. -/
structure BootOnly (s u : State) : Prop where
  eq : u = { s with dev := u.dev, boot := u.boot, trust := u.trust, media := { s.media with service := u.media.service } }
  kind : u.dev.record.resetKind = s.dev.record.resetKind
  state : u.dev.state = s.dev.state ∨ u.dev.state = .dryDock

theorem BootOnly.refl (s : State) : BootOnly s s := ⟨rfl, rfl, Or.inl rfl⟩

theorem BootOnly.trans {s u w : State} (h : BootOnly s u) (h' : BootOnly u w) : BootOnly s w := by
  refine ⟨?_, h'.kind.trans h.kind, ?_⟩
  · have e := h'.eq
    rw [h.eq] at e
    exact e
  · rcases h'.state with e | e
    · rw [e]
      exact h.state
    · exact Or.inr e

theorem bootDock_bootOnly (cause comp image reason : Nat) (s : State) : BootOnly s (bootDock cause comp image reason s) := ⟨rfl, rfl, Or.inr rfl⟩

theorem revert_bootOnly (k reason : Nat) (s : State) : BootOnly s (revert k reason s) := ⟨rfl, rfl, Or.inl rfl⟩

theorem loadImages_bootOnly (sel : BitVec 3) (trial : Bool) (s : State) : BootOnly s (loadImages sel trial s) := ⟨rfl, rfl, Or.inl rfl⟩

theorem bootPick_bootOnly (l : List Nat) (sel : BitVec 3) (s : State) (acc : BitVec 3 ⊕ State) (h : ∀ d, acc = .inr d → BootOnly s d) (d : State)
    (hd : bootPick l sel s acc = .inr d) : BootOnly s d := by
  induction l generalizing acc with
  | nil => exact h d hd
  | cons c l ih =>
    cases acc with
    | inr x => exact h d hd
    | inl now =>
      unfold bootPick at hd
      dsimp only at hd
      split at hd
      · exact ih _ h hd
      · split at hd
        · exact ih (.inl _) (fun _ e => by cases e) hd
        · cases hd
          exact bootDock_bootOnly ..

theorem bootGood_bootOnly (s : State) : BootOnly s (bootGood s) := by
  unfold bootGood
  dsimp only
  split
  · next d hd => exact bootPick_bootOnly _ _ _ _ (fun _ e => by cases e) d hd
  · next now _ =>
    have hload {s1 : State} (h1 : BootOnly s s1) : BootOnly s (if tested s1 now then loadImages now false s1 else bootDock 6 0 (selOf now 0) 0 s1) := by
      split
      · exact h1.trans (loadImages_bootOnly ..)
      · exact h1.trans (bootDock_bootOnly ..)
    refine hload ?_
    split
    · exact ⟨rfl, rfl, Or.inl rfl⟩
    · exact BootOnly.refl s

theorem pilotBoot_bootOnly (s0 : State) : BootOnly s0 (pilotBoot s0) := by
  unfold pilotBoot
  extract_lets b s tr s1 sel
  have h : BootOnly s0 s := ⟨rfl, rfl, Or.inl rfl⟩
  have h1 : BootOnly s0 s1 := ⟨rfl, rfl, Or.inl rfl⟩
  clear_value sel s1 tr
  have hrevert (k r : Nat) {u : State} (hu : BootOnly s0 u) : BootOnly s0 (bootGood (revert k r u)) := (hu.trans (revert_bootOnly ..)).trans (bootGood_bootOnly _)
  split
  · split
    · exact hrevert _ _ h1
    · split
      · exact h1.trans (loadImages_bootOnly ..)
      · exact hrevert _ _ h1
  · split
    · exact hrevert _ _ h
    · exact h.trans (bootGood_bootOnly _)

/-- A state that differs from `s` in what row repairs change: their records, the count of those applied, and memory events. -/
def Repaired (s u : State) : Prop :=
  u = { s with repairs := u.repairs, lb := { s.lb with repairsApplied := u.lb.repairsApplied }, mem := { s.mem with events := u.mem.events } }

theorem Repaired.trans {s u w : State} (h : Repaired s u) (h' : Repaired u w) : Repaired s w := by
  have e := h'
  rw [Repaired, h] at e
  exact e

theorem applyRepair_repaired (s : State) (r : RepairRecord) : Repaired s (applyRepair s r) := by
  unfold applyRepair
  dsimp only
  split
  · rfl
  · split
    · rfl
    · split <;> rfl

theorem applyRepairs_repaired (s : State) : Repaired s (applyRepairs s) := by
  have h : ∀ (l : List RepairRecord) (s : State), Repaired s (l.foldl applyRepair s) := by
    intro l
    induction l with
    | nil => exact fun _ => rfl
    | cons r l ih => exact fun s => (applyRepair_repaired s r).trans (ih _)
  exact Repaired.trans (u := { s with repairs := { s.repairs with failed := [] } }) rfl (h _ _)

theorem railsRising_setNow (t : Nat) (s : State) : railsRising (setNow t s) = railsRising s := rfl

theorem enterTrial_state (s : State) : (enterTrial s).dev.state = .trial := by
  rw [enterTrial, applyRepairs_repaired _]
  rfl

/-- Settles O40. -/
theorem inputAndRailsFollowTheirRules : Obligations.InputAndRailsFollowTheirRules := by
  intro t s
  refine ⟨fun hc hf => ?_, fun h => ?_, fun ms hms hs hf hp hr => ?_, fun ms hms ht => ?_, fun ms hms ht hl => ?_, fun h => if_pos h,
    fun hs hf hl hp hr => ?_, fun h => ?_, fun h => ?_, fun h => ⟨if_neg (by rw [railsRising_setNow, h]; simp), if_neg (by rw [railsRising_setNow, h]; simp)⟩⟩
  · have ho (c : Nat) := openSwitch_closed (cause := c) (s := setNow t s) hc hf
    constructor
    · show execSenseBreak t s = _
      rw [execSenseBreak, ho 6]
      rfl
    · show execOvervoltage t s = _
      rw [execOvervoltage, ho 5]
      rfl
  · have ho (c : Nat) := openSwitch_open (cause := c) (s := setNow t s) h
    constructor
    · show execSenseBreak t s = _
      rw [execSenseBreak, ho 6]
      rfl
    · show execOvervoltage t s = _
      rw [execOvervoltage, ho 5]
      rfl
  · show execInputSwitchClose t ms s = _
    simp [execInputSwitchClose, hms, inputRemoved, setNow, hs, hf, hp, hr]
  · show execInputSwitchClose t ms s = _
    simp [execInputSwitchClose, not_le.mpr hms, setNow, ht]
  · show execInputSwitchClose t ms s = _
    simp [execInputSwitchClose, not_le.mpr hms, setNow, ht, hl]
  · exact if_pos (by simp [setNow, hs, hf, hl, hp, hr])
  · exact if_neg (by simp [setNow, h])
  · have hb := pilotBoot_bootOnly (enterTrial (setNow t s))
    refine ⟨_, if_pos h, ?_⟩
    refine ⟨?_, ?_, ?_, ?_, ?_, ?_, ?_⟩
    · rw [← enterTrial_state (setNow t s)]
      exact hb.state
    · rw [hb.kind, enterTrial, applyRepairs_repaired _]
      rfl
    all_goals
      rw [hb.eq, enterTrial, applyRepairs_repaired _]
      rfl

end Sys2Proof.Machine

namespace Sys2Proof.Machine

/-! ### Components, sea trial, the ends of drains and resets -/

theorem starting_setNow (t : Nat) (s : State) : starting (setNow t s) = starting s := rfl

theorem componentStart_in {t c : Nat} {s : State} (hs : starting s = true) (h : max s.now t ≤ s.boot.releasedAt + startLimit c) :
    (starting (setNow t s) && decide ((setNow t s).now ≤ (setNow t s).boot.releasedAt + startLimit c)) = true := by
  have h' : (setNow t s).now ≤ (setNow t s).boot.releasedAt + startLimit c := h
  rw [starting_setNow, hs, decide_eq_true h']
  rfl

theorem startTimeout_in {t c : Nat} {s : State} (hs : starting s = true) (h : s.boot.releasedAt + startLimit c ≤ max s.now t) :
    (starting (setNow t s) && decide ((setNow t s).boot.releasedAt + startLimit c ≤ (setNow t s).now)) = true := by
  have h' : (setNow t s).boot.releasedAt + startLimit c ≤ (setNow t s).now := h
  rw [starting_setNow, hs, decide_eq_true h']
  rfl

theorem railsOff_keeps (k : Nat) (s : State) : (railsOff k s).dev.railsOffAt = some s.now ∧ (railsOff k s).trust.trial = s.trust.trial ∧
    (railsOff k s).trust.current = s.trust.current ∧ (railsOff k s).media.record = s.media.record := by
  rw [railsOff, powerOff, closeEvent_frame]
  exact ⟨rfl, rfl, rfl, rfl⟩

/-- Settles O41. -/
theorem componentsStartOrFail : Obligations.ComponentsStartOrFail := by
  intro t s hs
  refine ⟨fun n h hm => ?_, fun q h hq hu hf => ?_, fun c h hc hu hf => ?_, fun c n h => ?_, fun h hm => ?_, fun h hq => ?_, fun c h => ?_⟩
  · have hm' : (setNow t s).boot.mgmtUp = false := hm
    exact (if_pos (componentStart_in (c := 0) hs h)).trans (by rw [if_pos rfl, hm']; rfl)
  · refine (if_pos (componentStart_in (c := 1) hs h)).trans ?_
    have hc : 1 = 1 ∧ (unitsOf (setNow t s) 1).contains q ∧ !(setNow t s).boot.quaysUp.contains q ∧ !(setNow t s).boot.quayFail.contains q :=
      ⟨rfl, by simpa [unitsOf] using hq, by rw [show (setNow t s).boot.quaysUp.contains q = false from hu]; rfl,
        by rw [show (setNow t s).boot.quayFail.contains q = false from hf]; rfl⟩
    rw [if_neg (by omega), if_pos hc]
    rfl
  · refine (if_pos (componentStart_in (c := 2) hs h)).trans ?_
    have hc : 2 = 2 ∧ (unitsOf (setNow t s) 2).contains c ∧ !(setNow t s).boot.seqsUp.contains c ∧ !(setNow t s).boot.seqFail.contains c :=
      ⟨rfl, by simpa [unitsOf, setNow] using hc, by rw [show (setNow t s).boot.seqsUp.contains c = false from hu]; rfl,
        by rw [show (setNow t s).boot.seqFail.contains c = false from hf]; rfl⟩
    rw [if_neg (by omega), if_neg (by omega), if_pos hc]
    rfl
  · refine if_neg (fun hc => ?_)
    simp only [Bool.and_eq_true, decide_eq_true_eq] at hc
    have h2 : max s.now t ≤ s.boot.releasedAt + startLimit c := hc.2
    omega
  · have e : exec (.startTimeout t 0) s = .next (noStart 0 (setNow t s)) := by
      refine (if_pos (startTimeout_in (c := 0) hs h)).trans ?_
      rw [if_pos rfl, if_neg (by rw [show (setNow t s).boot.mgmtUp = false from hm]; simp)]
    refine ⟨_, e, fun hw => ?_, fun hw => ?_⟩
    · rw [noStart, if_neg (by rw [show (setNow t s).boot.wasTrial = false from hw]; simp)]
      exact ⟨rfl, rfl⟩
    · obtain ⟨hro, htr, hcur, -⟩ := railsOff_keeps 4 (revert 2 0 (setNow t s))
      rw [noStart, if_pos (show (setNow t s).boot.wasTrial = true from hw)]
      exact ⟨rfl, hro, rfl, htr, hcur⟩
  · refine (if_pos (startTimeout_in (c := 1) hs h)).trans ?_
    rw [if_neg (by omega), if_pos rfl, if_neg (by simpa [setNow] using hq)]
    rfl
  · refine if_neg (fun hc => ?_)
    simp only [Bool.and_eq_true, decide_eq_true_eq] at hc
    have h2 : s.boot.releasedAt + startLimit c ≤ max s.now t := hc.2
    omega

theorem dropPorts_frame (l : List Nat) (s : State) : dropPorts l s = { s with net := { s.net with ports := (dropPorts l s).net.ports } } := by
  unfold dropPorts
  induction l generalizing s with
  | nil => rfl
  | cons p l ih =>
    rw [List.foldl_cons, ih]
    rfl

/-- MOUNTING, once the holdup bank is full or late. -/
theorem mayMount_now {s : State} (hs : s.dev.state = .trial) (hp : s.dev.trialPassed = true) (hb : s.dev.bankFull = true ∨ s.dev.bankLate = true) :
    (mayMount s).dev.state = .mounting ∧ (mayMount s).dev.units = s.dev.units ∧ (mayMount s).dev.bankFull = s.dev.bankFull ∧
    (s.dev.bankFull = false → (mayMount s).pf.holdupLow = true) := by
  have hc : (s.dev.state == .trial && s.dev.trialPassed && (s.dev.bankFull || s.dev.bankLate)) = true := by
    rw [hs, hp]
    rcases hb with h | h <;> simp [h]
  rw [mayMount, if_pos hc, enterMounting]
  dsimp only
  split
  · next hf =>
    rw [(refreshPorts_hawserOnly _).eq]
    refine ⟨rfl, rfl, rfl, fun h => ?_⟩
    have hf' : s.dev.bankFull = true := hf
    rw [h] at hf'
    cases hf'
  · rw [(refreshPorts_hawserOnly _).eq]
    exact ⟨rfl, rfl, rfl, fun _ => rfl⟩

theorem mayMount_wait {s : State} (h : s.dev.trialPassed = false ∨ (s.dev.bankFull = false ∧ s.dev.bankLate = false)) : mayMount s = s := by
  refine if_neg (fun hc => ?_)
  simp only [Bool.and_eq_true, Bool.or_eq_true] at hc
  rcases h with h | ⟨h, h'⟩
  · rw [h] at hc
    cases hc.1.2
  · rw [h, h'] at hc
    rcases hc.2 with h | h <;> cases h

theorem dockOf_none {x : TrialFaults} (h : dockOf x = none) : x.ioDie = false := by
  unfold dockOf at h
  by_cases hx : x.ioDie = true
  · simp [hx] at h
  · simpa using hx

/-- The state of a trial that has passed its tests, before it mounts or docks. -/
def trialDone (t : Nat) (x : TrialFaults) (s : State) : State :=
  dropPorts (trialFaults s x).hosts { setNow t s with dev := { s.dev with
    units := BitVec.ofNat 64 (unitsWord s.fixed.variant (trialFaults s x)), record := trialRecord (setNow t s) (trialFaults s x), trialPassed := !(trialFaults s x).ioDie } }

theorem trialDone_dev (t : Nat) (x : TrialFaults) (s : State) : (trialDone t x s).dev = { s.dev with
    units := BitVec.ofNat 64 (unitsWord s.fixed.variant (trialFaults s x)), record := trialRecord (setNow t s) (trialFaults s x), trialPassed := !(trialFaults s x).ioDie } := by
  rw [trialDone, dropPorts_frame]

theorem starting_iff (s : State) : starting s = true ↔ alive s = true ∧ s.dev.state = .trial ∧ s.boot.loaded = true ∧ s.dev.trialPassed = false := by
  simp [starting, and_assoc]

theorem execSeaTrialComplete_eq {t : Nat} {x : TrialFaults} {s : State} (hs : starting s = true) (hr : allReported s = true) :
    execSeaTrialComplete t x s = match dockOf (trialFaults s x) with
      | none => .next (mayMount (trialDone t x s))
      | some (cause, stage, no) =>
        let s2 := enterState .dryDock (trialDone t x s)
        .next { s2 with
          dev := { s2.dev with record := { s2.dev.record with dockCause := cause, failStage := stage, failUnit := no, readyMs := clampTo 32 (msSince s2 s2.dev.trialAt) } }
          boot := { s2.boot with mgmtUp := false }
          clock := { s2.clock with state := .unsync } } := by
  have hc : (starting (setNow t s) && allReported (setNow t s)) = true := by
    rw [starting_setNow, hs, show allReported (setNow t s) = true from hr]
    rfl
  exact (if_pos hc).trans rfl

/-- Settles O42. -/
theorem seaTrialDecides : Obligations.SeaTrialDecides := by
  intro t s
  refine ⟨fun x hs hr => ?_, fun x h => ?_, fun ha hs hp => ?_, fun ha hs hp => ?_, fun ha hs hp hb hd => ?_, fun hd => ?_⟩
  · have he : exec (.seaTrialComplete t x) s = _ := execSeaTrialComplete_eq hs hr
    obtain ⟨-, hst, -, -⟩ := (starting_iff s).mp hs
    have hdev := trialDone_dev t x s
    cases hdock : dockOf (trialFaults s x) with
    | some r =>
      obtain ⟨c, st, no⟩ := r
      rw [hdock] at he
      refine ⟨_, he, congrArg Device.units hdev, fun c' st' no' h => ?_, nofun, nofun⟩
      cases h
      exact ⟨rfl, rfl, rfl, rfl, rfl, rfl⟩
    | none =>
      rw [hdock] at he
      have hst' : (trialDone t x s).dev.state = .trial := (congrArg Device.state hdev).trans hst
      have hpass : (trialDone t x s).dev.trialPassed = true := (congrArg Device.trialPassed hdev).trans (by rw [dockOf_none hdock]; rfl)
      have hfull : (trialDone t x s).dev.bankFull = s.dev.bankFull := by rw [hdev]
      have hlate : (trialDone t x s).dev.bankLate = s.dev.bankLate := by rw [hdev]
      by_cases hb : s.dev.bankFull = true ∨ s.dev.bankLate = true
      · obtain ⟨hm, hu, -, -⟩ := mayMount_now hst' hpass (by rwa [hfull, hlate])
        refine ⟨_, he, hu.trans (congrArg Device.units hdev), nofun, fun _ h1 h2 => ?_, fun _ _ => hm⟩
        rw [h1, h2] at hb
        simp at hb
      · simp only [not_or, Bool.not_eq_true] at hb
        refine ⟨_, he, ?_, nofun, fun _ _ _ => ?_, fun _ h => ?_⟩
        · rw [mayMount_wait (Or.inr (by rwa [hfull, hlate]))]
          exact congrArg Device.units hdev
        · rw [mayMount_wait (Or.inr (by rwa [hfull, hlate]))]
          exact ⟨hst', hpass⟩
        · rw [hb.1, hb.2] at h
          simp at h
  · refine if_neg (fun hc => ?_)
    rw [Bool.and_eq_true] at hc
    have h1 : starting s = true := hc.1
    have h2 : allReported s = true := hc.2
    rcases h with h | h
    · rw [h1] at h; cases h
    · rw [h2] at h; cases h
  · have hc : (alive (setNow t s) && (setNow t s).dev.state == .trial) = true := by
      rw [show alive (setNow t s) = true from ha, show (setNow t s).dev.state = .trial from hs]
      rfl
    exact (if_pos hc).trans (congrArg _ (mayMount_wait (Or.inl hp)))
  · have hc : (alive (setNow t s) && (setNow t s).dev.state == .trial) = true := by
      rw [show alive (setNow t s) = true from ha, show (setNow t s).dev.state = .trial from hs]
      rfl
    obtain ⟨hm, -, hb, -⟩ := mayMount_now (s := { setNow t s with dev := { s.dev with bankFull := true } }) hs hp (Or.inl rfl)
    exact ⟨_, if_pos hc, hm, hb⟩
  · have hc : (alive (setNow t s) && (setNow t s).dev.state == .trial && !(setNow t s).dev.bankFull && decide ((setNow t s).dev.trialAt + 2000000000 ≤ (setNow t s).now)) = true := by
      rw [show alive (setNow t s) = true from ha, show (setNow t s).dev.state = .trial from hs, show (setNow t s).dev.bankFull = false from hb,
        decide_eq_true (show (setNow t s).dev.trialAt + 2000000000 ≤ (setNow t s).now from hd)]
      rfl
    obtain ⟨hm, -, -, hl⟩ := mayMount_now (s := { setNow t s with dev := { s.dev with bankLate := true } }) hs hp (Or.inr rfl)
    exact ⟨_, if_pos hc, hm, hl hb⟩
  · refine if_neg (fun hc => ?_)
    simp only [Bool.and_eq_true, decide_eq_true_eq] at hc
    have h2 : s.dev.trialAt + 2000000000 ≤ max s.now t := hc.2
    omega

theorem programAll_frame (l : List BufEntry) (s : State) : programAll l s = { s with media := { s.media with nss := (programAll l s).media.nss } } := by
  induction l generalizing s with
  | nil => rfl
  | cons e l ih =>
    rw [programAll, ih]
    rfl

theorem flushBuffer_frame (s : State) : flushBuffer s =
    { s with media := { s.media with nss := (flushBuffer s).media.nss }, eng := { s.eng with wbuf := [] } } := by
  rw [flushBuffer, programAll_frame]

theorem sealDown_frame (s : State) : sealDown s = { s with lbSaved := (sealDown s).lbSaved, media := (sealDown s).media, eng := { s.eng with wbuf := [] } } := by
  rw [sealDown, mapCheckpoint, flushBuffer_frame]

theorem sealDown_record (s : State) : (sealDown s).media.record = .closing := rfl

/-- Settles O44. -/
theorem drainsAndResetsComplete : Obligations.DrainsAndResetsComplete := by
  intro t s
  refine ⟨fun d hd hst hf h => ?_, fun d hd h => ?_, fun d hd hst hf => ?_, fun hd => ?_, fun k hk hf => ?_, fun hk => ?_, fun x hx h => ?_, fun x hx h => ?_⟩
  · show execHoldSExpiry t s = _
    have hd' : (setNow t s).dev.drain = some d := hd
    have hc : d.stage = .holding ∧ (setNow t s).pf.flushAt = none ∧ (d.since + d.holdNs ≤ (setNow t s).now ∨ (setNow t s).cmds.slots.isEmpty) :=
      ⟨hst, hf, h.imp id (fun e => by rw [List.isEmpty_iff]; exact e)⟩
    simp only [execHoldSExpiry, hd']
    rw [if_pos hc]
    rfl
  · show execHoldSExpiry t s = _
    have hd' : (setNow t s).dev.drain = some d := hd
    simp only [execHoldSExpiry, hd']
    refine if_neg (fun hc => ?_)
    obtain ⟨hst, -, hr⟩ := hc
    rw [List.isEmpty_iff] at hr
    rcases h with h | ⟨h, h'⟩
    · exact h hst
    · rcases hr with hr | hr
      · have hr' : d.since + d.holdNs ≤ max s.now t := hr
        omega
      · exact h' hr
  · have hd' : (setNow t s).dev.drain = some d := hd
    have hc : d.stage = .sealing ∧ (setNow t s).pf.flushAt = none := ⟨hst, hf⟩
    obtain ⟨hro, -, -, hrec⟩ := railsOff_keeps 2 (sealDown (setNow t s))
    have hnow : (sealDown (setNow t s)).now = max s.now t := by rw [sealDown_frame]; rfl
    cases hr : d.thenReset with
    | true =>
      have e : exec (.drainComplete t) s = .next (railsOff 2 (sealDown (setNow t s))) := by
        show execDrainComplete t s = _
        simp only [execDrainComplete, hd', hr, if_pos hc, if_true]
      exact ⟨_, e, rfl, rfl, hrec.trans (sealDown_record _), rfl, rfl, rfl, fun _ => ⟨rfl, hro.trans (congrArg some hnow), rfl⟩, nofun⟩
    | false =>
      have e : exec (.drainComplete t) s = .next { powerOff (sealDown (setNow t s)) with
          side := { (powerOff (sealDown (setNow t s))).side with drained := true, busy := false } } := by
        show execDrainComplete t s = _
        simp only [execDrainComplete, hd', hr, if_pos hc, Bool.false_eq_true, if_false]
      refine ⟨_, e, rfl, rfl, hrec.trans (sealDown_record _), rfl, rfl, rfl, nofun, fun _ => ⟨rfl, ?_⟩⟩
      show (powerOff (sealDown (setNow t s))).dev.railsOffAt = _
      rw [powerOff, closeEvent_frame, sealDown_frame]
      rfl
  · have hd' : (setNow t s).dev.drain = none := hd
    constructor
    · show execDrainComplete t s = _
      simp only [execDrainComplete, hd']
    · show execHoldSExpiry t s = _
      simp only [execHoldSExpiry, hd']
  · have hk' : (setNow t s).dev.resetSeal = some k := hk
    have hf' : (setNow t s).pf.flushAt = none := hf
    have e : exec (.resetSealComplete t) s = .next (railsOff k (if (setNow t s).dev.state == .ready || (setNow t s).dev.state == .braced || (setNow t s).dev.state == .draining
        then sealDown (setNow t s) else setNow t s)) := by
      show execResetSealComplete t s = _
      simp only [execResetSealComplete, hk', hf', Option.isSome_none, Bool.false_eq_true, if_false]
    refine ⟨_, e, rfl, rfl, ?_, fun h => ?_⟩
    · rw [(railsOff_keeps k _).1]
      split
      · rw [sealDown_frame]
        rfl
      · rfl
    · rw [(railsOff_keeps k _).2.2.2, if_pos]
      · rfl
      · rcases h with h | h | h <;> simp [setNow, h]
  · have hk' : (setNow t s).dev.resetSeal = none := hk
    show execResetSealComplete t s = _
    simp only [execResetSealComplete, hk']
  · show execRailsOffExpiry t s = _
    have hx' : (setNow t s).dev.railsOffAt = some x := hx
    simp only [execRailsOffExpiry, hx']
    exact if_pos h
  · show execRailsOffExpiry t s = _
    have hx' : (setNow t s).dev.railsOffAt = some x := hx
    simp only [execRailsOffExpiry, hx']
    exact if_neg (not_le.mpr h)

end Sys2Proof.Machine

namespace Sys2Proof.Machine

/-! ### Power failure -/

theorem logPowerFail_frame (s : State) : logPowerFail s = { s with logbook := (logPowerFail s).logbook, logLive := {} } := by
  have h : ∀ (l : List Nat) (g : State → Nat → State), (∀ u k, g u k = { u with logbook := (g u k).logbook }) →
      l.foldl g s = { s with logbook := (l.foldl g s).logbook } := by
    intro l g hg
    refine List.foldlRecOn (motive := fun u => u = { s with logbook := u.logbook }) l g (b := s) rfl (fun u hu k _ => ?_)
    rw [hg, hu]
  rw [logPowerFail]
  dsimp only
  rw [h]
  intro s k
  split
  · split <;> rfl
  · rfl

theorem modOpenEvent_frame (g : MotionEvent → MotionEvent) (s : State) : modOpenEvent g s = { s with motionLog := (modOpenEvent g s).motionLog } := by
  unfold modOpenEvent
  split <;> rfl

/-- What the loss of input power takes from the module before anything is announced. -/
theorem powerLost_frame (s : State) : ∃ m l, powerLost s = { s with
    motionLog := m
    lb := { s.lb with pfEvents := satAdd 32 s.lb.pfEvents 1 }
    lbSaved := { s.lbSaved with pfEvents := satAdd 32 s.lb.pfEvents 1 }
    pf := { s.pf with armed := false }
    storm := { s.storm with power := true, openEvent := false }
    dev := { s.dev with drain := none, resetSeal := none, resetAsked := false }
    side := { s.side with pdPending := false, busy := false }
    hawser := { s.hawser with works := [] }
    cmds := { s.cmds with active := [] }
    logbook := l, logLive := {} } := by
  obtain ⟨m, hm⟩ : ∃ m, closeEvent (modOpenEvent (fun e => { e with cause := e.cause ||| 16 }) s) = { s with storm := { s.storm with openEvent := false }, motionLog := m } :=
    ⟨_, by rw [closeEvent_frame, modOpenEvent_frame]⟩
  unfold powerLost
  rw [hm]
  dsimp only
  exact ⟨m, _, logPowerFail_frame _⟩

theorem portUp_flushing {s : State} {x : Nat} (h : s.pf.flushAt = some x) (n : Nat) : portUp s n = false := by
  simp [portUp, h]

theorem vaultFlush_frame (s : State) : vaultFlush s = { s with vaults := (vaultFlush s).vaults } := by
  refine List.foldlRecOn (motive := fun u : State => u = { s with vaults := u.vaults }) _ _ rfl (fun u hu v _ => ?_)
  refine List.foldlRecOn (motive := fun u : State => u = { s with vaults := u.vaults }) _ _ hu (fun u hu c _ => ?_)
  split
  · exact hu
  · split
    · rw [hu]
      rfl
    · exact hu

theorem flushMedia_frame (b : Nat) (s : State) : flushMedia b s = { s with media := (flushMedia b s).media, eng := { s.eng with wbuf := [] }, vaults := (flushMedia b s).vaults } := by
  rw [flushMedia, vaultFlush_frame, flushBuffer_frame]

theorem powerOff_media (s : State) : (powerOff s).media.record = s.media.record := by
  rw [powerOff, closeEvent_frame]
  rfl

theorem powerOff_portClass (s : State) : (powerOff s).regs.portClass = s.regs.portClass := by
  rw [powerOff, closeEvent_frame]
  rfl

/-- Settles O38. -/
theorem powerFailureFlushesAndPowersOff : Obligations.PowerFailureFlushesAndPowersOff := by
  intro t s
  refine ⟨fun ha hp => ?_, fun h => ?_, fun b ok hb => ?_, fun ok hb => ?_, fun hs hf hc => ?_, fun hf => ?_, fun hc => ?_, fun ha => ?_⟩
  · have hc : (alive (setNow t s) && (setNow t s).pf.armed) = true := by
      rw [show alive (setNow t s) = true from ha, show (setNow t s).pf.armed = true from hp]
      rfl
    obtain ⟨m, l, hl⟩ := powerLost_frame (setNow t s)
    refine ⟨_, if_pos hc, rfl, ?_⟩
    by_cases hfl : flushes (setNow t s) = true
    · rw [if_pos hfl, hl, announce_eq]
      exact ⟨rfl, rfl, rfl, rfl, rfl, rfl, rfl, fun _ => rfl, portUp_flushing rfl⟩
    · rw [if_neg hfl, hl]
      exact ⟨rfl, rfl, rfl, rfl, rfl, rfl, rfl, fun h => absurd h hfl, portUp_flushing rfl⟩
  · refine if_neg (fun hc => ?_)
    rw [Bool.and_eq_true] at hc
    have h1 : alive s = true := hc.1
    have h2 : s.pf.armed = true := hc.2
    rcases h with h | h
    · rw [h1] at h; cases h
    · rw [h2] at h; cases h
  · have hb' : (setNow t s).pf.flushAt = some b := hb
    have e : exec (.flushComplete t ok) s = .next { powerOff (if flushes (setNow t s) && ok then flushMedia b (setNow t s) else setNow t s) with
        pf := { (powerOff (if flushes (setNow t s) && ok then flushMedia b (setNow t s) else setNow t s)).pf with flushed := true } } := by
      show execFlushComplete t ok s = _
      simp only [execFlushComplete, hb']
    refine ⟨_, e, rfl, ?_, rfl, rfl, rfl, rfl, rfl, rfl, rfl, rfl, ?_, fun hfl hok => ?_⟩
    · rw [powerOff_prev]
      split
      · rw [flushMedia_frame]
        rfl
      · rfl
    · rw [powerOff_portClass]
      split
      · rw [flushMedia_frame]
        rfl
      · rfl
    · rw [powerOff_media, if_pos]
      · exact ⟨_, _, rfl⟩
      · rw [show flushes (setNow t s) = true from hfl, hok]
        rfl
  · have hb' : (setNow t s).pf.flushAt = none := hb
    show execFlushComplete t ok s = _
    simp only [execFlushComplete, hb']
  · exact if_pos (by simp [setNow, hs, hf, hc])
  · exact if_neg (by simp [setNow, hf])
  · exact if_pos hc
  · exact if_pos ha

/-! ### Mounting -/

theorem logMount_frame (s : State) : logMount s = { s with logbook := (logMount s).logbook, logLive := (logMount s).logLive } := by
  unfold logMount
  split
  · rfl
  · rw [List.foldlRecOn (motive := fun u : State => u = { s with logbook := u.logbook }) s.logbook.intents (fun st l => eraseSector l st) (b := s) rfl
      (fun u hu l _ => by rw [hu]; rfl)]

/-- Broken checkpoints are counted in their berths and nothing else of these changes. -/
theorem vaultMountBroken_frame (l : List (Nat × Nat)) (s : State) :
    vaultMountBroken l s = { s with vaults := (vaultMountBroken l s).vaults, berths := (vaultMountBroken l s).berths } ∧
    (vaultMountBroken l s).berths.length = s.berths.length ∧ ∀ b, (getBerth (vaultMountBroken l s) b).state = (getBerth s b).state := by
  refine List.foldlRecOn (motive := fun u : State => u = { s with vaults := u.vaults, berths := u.berths } ∧
    u.berths.length = s.berths.length ∧ ∀ b, (getBerth u b).state = (getBerth s b).state) l _ (b := s) ⟨rfl, rfl, fun _ => rfl⟩ (fun u hu x _ => ?_)
  obtain ⟨hu, hl, hb⟩ := hu
  split
  · split
    · refine ⟨?_, ?_, fun b => ?_⟩
      · rw [hu]
        rfl
      · simpa [digestFail, modVstats, modBerth, breakCkpt, modCkpt, modVault] using hl
      · rw [← hb b, digestFail, modVstats, getBerth_modBerth]
        split <;> rfl
    · exact ⟨hu, hl, hb⟩
  · exact ⟨hu, hl, hb⟩

theorem mountRecord_frame (s : State) : mountRecord s = { s with pf := (mountRecord s).pf, storm := { s.storm with events := (mountRecord s).storm.events } } := by
  unfold mountRecord
  split <;> rfl

/-- The state whose objects are mounted and whose record of the last session has been read. -/
def mounted (offNs offIx : List Nat) (broken : List (Nat × Nat)) (s : State) : State :=
  mountRecord (freeKept (vaultMountBroken broken (mountObjects offNs offIx (logMount s))))

/-- A state that differs from `s` in what mounting reads or repairs. -/
def Mounts (s u : State) : Prop := u = { s with
  logbook := u.logbook, logLive := u.logLive, indexes := u.indexes, vaults := u.vaults, berths := u.berths, pf := u.pf
  storm := { s.storm with events := u.storm.events }, media := { s.media with nss := u.media.nss } }

theorem Mounts.trans {s u w : State} (h : Mounts s u) (h' : Mounts u w) : Mounts s w := by
  have e := h'
  rw [Mounts, h] at e
  exact e

theorem mounted_mounts (offNs offIx : List Nat) (broken : List (Nat × Nat)) (s : State) : Mounts s (mounted offNs offIx broken s) := by
  have h1 : Mounts s (logMount s) := by
    rw [Mounts, logMount_frame]
  have h2 (x : State) : Mounts x (mountObjects offNs offIx x) := rfl
  have h3 (x : State) : Mounts x (vaultMountBroken broken x) := by
    rw [Mounts, (vaultMountBroken_frame broken x).1]
  have h4 (x : State) : Mounts x (freeKept x) := rfl
  have h5 (x : State) : Mounts x (mountRecord x) := by
    rw [Mounts, mountRecord_frame]
  exact (((h1.trans (h2 _)).trans (h3 _)).trans (h4 _)).trans (h5 _)

theorem mounted_nss (offNs offIx : List Nat) (broken : List (Nat × Nat)) (s : State) : (mounted offNs offIx broken s).media.nss =
    s.media.nss.map (fun n => { n with state := if offNs.contains n.nsid then .offline else if s.media.worn then .worn else .online }) := by
  rw [mounted, mountRecord_frame]
  show (vaultMountBroken broken (mountObjects offNs offIx (logMount s))).media.nss = _
  rw [(vaultMountBroken_frame broken _).1, logMount_frame]
  rfl

theorem mounted_berths (offNs offIx : List Nat) (broken : List (Nat × Nat)) (s : State) : (mounted offNs offIx broken s).berths.length = s.berths.length ∧
    ∀ b, (getBerth (mounted offNs offIx broken s) b).state = (getBerth s b).state := by
  obtain ⟨-, hl, hb⟩ := vaultMountBroken_frame broken (mountObjects offNs offIx (logMount s))
  rw [mounted, mountRecord_frame]
  have hlog : (mountObjects offNs offIx (logMount s)).berths = s.berths := by
    rw [logMount_frame]
    rfl
  refine ⟨hl.trans (by rw [hlog]), fun b => (hb b).trans ?_⟩
  rw [getBerth, getBerth, hlog]

/-- What beginning to brace changes. -/
def Braces (s u : State) : Prop := u = { s with
  out := u.out, hawser := u.hawser, net := { s.net with ports := u.net.ports }, fresh := u.fresh, motionLog := u.motionLog
  lb := { s.lb with braces := satAdd 32 s.lb.braces 1, announceNo := satAdd 32 s.lb.announceNo 1 }
  storm := { s.storm with sealDone := false, state := .brace, since := u.storm.since, bracedAt := u.storm.bracedAt, peakSince := u.storm.peakSince, repeatAt := s.now, events := s.storm.events ||| 1 }
  power := { s.power with exitTo := if s.power.current = 0 then s.power.exitTo else some 0 }
  media := { s.media with service := serviceNs s }
  dev := { s.dev with state := .braced, prev := s.dev.state, enteredAt := s.now } }

theorem wakeAll_eq (s : State) : wakeAll s = { s with power := { s.power with exitTo := if s.power.current = 0 then s.power.exitTo else some 0 } } := by
  unfold wakeAll
  split <;> rfl

theorem enterBrace_braces (s : State) : Braces s (enterBrace s) := by
  rw [Braces, enterBrace, stormBrace, announce_eq, modOpenEvent_frame, wakeAll_eq]
  rfl

/-- Settles O43. -/
theorem mountingEndsInReady : Obligations.MountingEndsInReady := by
  intro t offNs offIx broken s
  refine ⟨fun ha hs => ?_, fun hs => ?_⟩
  · have hc : (alive (setNow t s) && (setNow t s).dev.state == .mounting) = true := by
      rw [show alive (setNow t s) = true from ha, show (setNow t s).dev.state = .mounting from hs]
      rfl
    have hm : Mounts (setNow t s) (mounted offNs offIx broken (setNow t s)) := mounted_mounts ..
    have hnss := mounted_nss offNs offIx broken (setNow t s)
    obtain ⟨hl, hb⟩ := mounted_berths offNs offIx broken (setNow t s)
    have e : exec (.mountingComplete t offNs offIx broken) s = .next (braceAtOnce (enterReady (mounted offNs offIx broken (setNow t s)))) := if_pos hc
    generalize mounted offNs offIx broken (setNow t s) = m at hm hnss hl hb e
    have hberth : ∀ b < s.berths.length, ∀ u : State, u.berths = m.berths.map (fun b => { b with bollards := List.replicate 64 0, inbox := [], mailSeq := 0 }) →
        (getBerth u b).bollards = List.replicate 64 0 ∧ (getBerth u b).inbox = [] ∧ (getBerth u b).state = (getBerth s b).state := by
      intro b hlt u hu
      have hlt' : b < m.berths.length := by rw [hl]; exact hlt
      have hst := hb b
      simp only [getBerth, hu, List.getD_eq_getElem?_getD, List.getElem?_map, List.getElem?_eq_getElem hlt', Option.map_some, Option.getD_some] at hst ⊢
      exact ⟨trivial, trivial, hst⟩
    have hoff : ∀ n ∈ m.media.nss, n.nsid ∈ offNs → n.state = .offline := by
      intro n hn hin
      rw [hnss] at hn
      obtain ⟨m, -, rfl⟩ := List.mem_map.mp hn
      exact if_pos (List.contains_iff_mem.mpr hin)
    have hmotion : m.storm.motion = s.storm.motion := by rw [hm]; rfl
    have hpower : m.storm.power = s.storm.power := by rw [hm]; rfl
    have hstate : m.dev.state = .mounting := by rw [hm]; exact hs
    have hregs : m.regs = s.regs := by rw [hm]; rfl
    have hq : (enterReady m).storm.motion = m.storm.motion ∧ (enterReady m).storm.power = m.storm.power := ⟨rfl, rfl⟩
    refine ⟨_, e, ?_⟩
    by_cases hc : s.storm.motion = true ∨ s.storm.power = true
    · rw [braceAtOnce, if_pos (by rw [hq.1, hq.2, hmotion, hpower, Bool.or_eq_true]; exact hc), enterBrace_braces (enterReady m)]
      refine ⟨fun h1 h2 => ?_, fun _ => ⟨rfl, rfl⟩, rfl, rfl, rfl, rfl, fun b hlt => hberth b hlt _ rfl, hoff, hregs⟩
      rw [h1, h2] at hc
      simp at hc
    · rw [braceAtOnce, if_neg (by rw [hq.1, hq.2, hmotion, hpower, Bool.or_eq_true]; exact hc)]
      exact ⟨fun _ _ => ⟨rfl, hstate⟩, fun h => absurd h hc, rfl, rfl, rfl, rfl, fun b hlt => hberth b hlt _ rfl, hoff, hregs⟩
  · refine if_neg (fun hc => ?_)
    simp only [Bool.and_eq_true, beq_iff_eq] at hc
    exact hs hc.2

end Sys2Proof.Machine

namespace Sys2Proof.Machine

/-! ### A sensor that has just been switched on -/

/-- A module 1 ms into its TRIAL, 10 s after local time began, whose motion sensor has given no sample yet. -/
def freshTrial : State := { now := 10001000000, dev := { state := .trial, trialAt := 10000000000 } }

theorem accelerometerFault_notDue {t : Nat} {s : State} (h : ¬ (sensorOn (setNow t s) ∧ (setNow t s).pf.flushAt = none ∧
      (max (setNow t s).storm.sensor.lastAt (setNow t s).dev.trialAt + 5000000 ≤ (setNow t s).now ∨ 5 ≤ (setNow t s).storm.sensor.missing ∨
        (setNow t s).storm.sensor.same.any (fun n => decide (500 ≤ n))))) :
    exec (.accelerometerFault t) s = .next (setNow t s) := if_neg h

theorem freshTrial_noFault : exec (.accelerometerFault 0) freshTrial = .next (setNow 0 freshTrial) := accelerometerFault_notDue (by decide)

/-- Refutes O36: the time without a sample also counts from the start of the TRIAL, so in `freshTrial`, whose last sample is more
than 5 ms ago by its number alone, the fault row changes only the time and SENSOR_FAULT stays clear. -/
theorem not_stormEventsComplete : ¬ Obligations.StormEventsComplete := by
  intro h
  obtain ⟨-, -, -, hfault, -⟩ := h 0 freshTrial
  obtain ⟨u, hu, hset, -⟩ := hfault rfl rfl (by decide)
  rw [freshTrial_noFault] at hu
  cases hu
  cases hset

end Sys2Proof.Machine

namespace Sys2Proof.Machine

/-! ### Host ports -/

theorem hostPort_setNow (t n : Nat) (s : State) : hostPort (setNow t s) n = hostPort s n := rfl

theorem portUp_setNow (t n : Nat) (s : State) : portUp (setNow t s) n = portUp s n := rfl

/-- A port that is beyond the last one is down. -/
theorem lt_ports_of_linkUp {s : State} {n : Nat} (h : (hostPort s n).linkUp = true) : n < s.net.ports.length := by
  by_contra hn
  rw [hostPort, List.getD_eq_getElem?_getD, List.getElem?_eq_none (by omega)] at h
  cases h

theorem linkUp_of_portUp {s : State} {n : Nat} (h : portUp s n = true) : (hostPort s n).linkUp = true := by
  simp only [portUp, Bool.and_eq_true] at h
  exact h.1.1

theorem hostPort_modPort_same {s : State} {n : Nat} (g : HostPort → HostPort) (h : n < s.net.ports.length) : hostPort (modPort n g s) n = g (hostPort s n) := by
  rw [hostPort_modPort, if_pos ⟨rfl, h⟩]

theorem hostPort_modPort_ne {s : State} {n m : Nat} (g : HostPort → HostPort) (h : m ≠ n) : hostPort (modPort n g s) m = hostPort s m := by
  rw [hostPort_modPort, if_neg (fun e => h e.1.symm)]

theorem modPort_congr {s : State} {n : Nat} {g g' : HostPort → HostPort} (h : g (hostPort s n) = g' (hostPort s n)) : modPort n g s = modPort n g' s := by
  have hl : s.net.ports.modify n g = s.net.ports.modify n g' := by
    refine List.ext_getElem? (fun m => ?_)
    rw [List.getElem?_modify, List.getElem?_modify]
    by_cases hm : n = m
    · subst hm
      by_cases hlt : n < s.net.ports.length
      · have hp : hostPort s n = s.net.ports[n] := by rw [hostPort, List.getD_eq_getElem?_getD, List.getElem?_eq_getElem hlt, Option.getD_some]
        rw [hp] at h
        simp [hlt, h]
      · simp [hlt]
    · simp [hm]
  rw [modPort, modPort, hl]

/-- Setting one bit of a number. -/
theorem testBit_setBits (v k j x : Nat) : (setBits v k 1 x).testBit j = if j = k then x.testBit 0 else v.testBit j := by
  have hr : v % 2 ^ k < 2 ^ k := Nat.mod_lt _ (Nat.two_pow_pos k)
  have hv : v = 2 ^ k * (v / 2 ^ k) + v % 2 ^ k := (Nat.div_add_mod v (2 ^ k)).symm
  have hset : setBits v k 1 x = 2 ^ k * (2 * (v / 2 ^ k / 2) + x % 2) + v % 2 ^ k := by
    have hq : v / 2 ^ k = 2 * (v / 2 ^ k / 2) + v / 2 ^ k % 2 := (Nat.div_add_mod _ 2).symm
    generalize v / 2 ^ k / 2 = q at hq ⊢
    generalize hb : v / 2 ^ k % 2 = b at hq
    rw [setBits, bits, pow_one, hb]
    rw [hq] at hv
    have : v = 2 ^ k * (2 * q) + v % 2 ^ k + b * 2 ^ k := hv.trans (by ring)
    have h2 : v - b * 2 ^ k = 2 ^ k * (2 * q) + v % 2 ^ k := by omega
    rw [h2]
    ring
  have hv' : v.testBit j = if j < k then (v % 2 ^ k).testBit j else (v / 2 ^ k).testBit (j - k) := by
    conv_lhs => rw [hv]
    exact Nat.testBit_two_pow_mul_add _ hr j
  rw [hset, Nat.testBit_two_pow_mul_add _ hr, hv']
  rcases lt_trichotomy j k with h | h | h
  · rw [if_pos h, if_neg (by omega), if_pos h]
  · subst h
    rw [if_neg (lt_irrefl j), if_pos rfl, Nat.sub_self, Nat.testBit_zero, Nat.testBit_zero, Nat.mul_add_mod, Nat.mod_mod]
  · obtain ⟨d, rfl⟩ : ∃ d, j = k + (d + 1) := ⟨j - k - 1, by omega⟩
    rw [if_neg (by omega), if_neg (by omega), if_neg (by omega), Nat.add_sub_cancel_left, Nat.testBit_succ, Nat.testBit_succ]
    congr 1
    omega

/-- Bit `j` of a byte in which bit `k` is set to `p`. -/
theorem getLsbD_setBits (v : BitVec 8) (k j : Nat) (p : Bool) (hk : k < 8) :
    (BitVec.ofNat 8 (setBits v.toNat k 1 (if p then 1 else 0))).getLsbD j = if j = k then p else v.getLsbD j := by
  rw [BitVec.getLsbD_ofNat, testBit_setBits]
  split
  · next h =>
    subst h
    cases p <;> simp [hk]
  · by_cases hj : j < 8
    · simp [hj, BitVec.getLsbD]
    · rw [decide_eq_false hj, Bool.false_and, BitVec.getLsbD_of_ge v j (by omega)]

/-- Settles O49. -/
theorem hostPortsFollowTheirRules : Obligations.HostPortsFollowTheirRules := by
  intro t n s
  refine ⟨fun ha hs hv hl hd => ?_, fun h => ?_, fun ha hs hv hl h0 => ?_, fun g hg => ?_, fun hl => ?_, fun hl => ?_, fun target ip mac hu hv ht => ?_,
    fun target ip mac h => ?_, fun target ip hu ha hm => ?_, fun target ip h => ?_, fun dst src k q d hu ha => ?_, fun dst src k q d h => ?_,
    fun hu hd => ?_, fun hd => ?_, fun k pause hk hu hb => ?_, fun k pause hb => ?_⟩
  · refine (if_neg (by rw [show alive (setNow t s) = true from ha]; simp)).trans (if_pos ⟨hs, hv, ?_, hd⟩)
    rw [hostPort_setNow, hl]
    rfl
  · show execHostLinkAttemptTimeout t n s = _
    unfold execHostLinkAttemptTimeout
    dsimp only
    split
    · rfl
    · refine if_neg (fun hc => ?_)
      obtain ⟨-, -, hl, hd⟩ := hc
      rw [hostPort_setNow] at hl hd
      rcases h with h | h
      · rw [h] at hl
        cases hl
      · exact absurd hd (not_le.mpr h)
  · show execHostLinkUp t n (hostPort s n).trying s = _
    have hc : (setNow t s).dev.state ≠ .powered ∧ portInService (setNow t s) n ∧ !(hostPort (setNow t s) n).linkUp ∧
        (hostPort s n).trying = (hostPort (setNow t s) n).trying ∧ (hostPort s n).trying ≠ 0 := ⟨hs, hv, by rw [hostPort_setNow, hl]; rfl, rfl, h0⟩
    rw [execHostLinkUp, show alive (setNow t s) = true from ha, if_neg (by simp)]
    exact (if_pos hc).trans (congrArg _ (modPort_congr rfl))
  · show execHostLinkUp t n g s = _
    unfold execHostLinkUp
    dsimp only
    split
    · rfl
    · exact if_neg (fun hc => hg hc.2.2.2.1)
  · have hn : n < (setNow t s).net.ports.length := lt_ports_of_linkUp hl
    refine ⟨_, if_pos hl, rfl, hn, ?_, ?_, ?_, fun m hm => hostPort_modPort_ne _ hm⟩
    all_goals rw [hostPort_modPort_same _ hn]
  · exact if_neg (by rw [hostPort_setNow, hl]; simp)
  · exact if_pos ⟨hu, hv, ht⟩
  · refine if_neg (fun hc => ?_)
    obtain ⟨hu, hv, ht⟩ := hc
    have hu' : portUp s n = true := hu
    have hv' : ipv4On s n = true := hv
    rcases h with h | h | h
    · rw [hu'] at h; cases h
    · rw [hv'] at h; cases h
    · exact h ht
  · exact if_pos ⟨hu, ha, by rw [hm]; rfl⟩
  · refine if_neg (fun hc => ?_)
    obtain ⟨hu, ha, -⟩ := hc
    have hu' : portUp s n = true := hu
    have ha' : portAnswers s n target = true := ha
    rcases h with h | h
    · rw [hu'] at h; cases h
    · rw [ha'] at h; cases h
  · exact if_pos ⟨hu, ha⟩
  · refine if_neg (fun hc => ?_)
    have hu' : portUp s n = true := hc.1
    have ha' : portAnswers s n dst = true := hc.2
    rcases h with h | h
    · rw [hu'] at h; cases h
    · rw [ha'] at h; cases h
  · exact if_pos ⟨hu, hd⟩
  · exact if_neg (fun hc => absurd hc.2 (not_le.mpr hd))
  · have hn : n < (setNow t s).net.ports.length := lt_ports_of_linkUp (linkUp_of_portUp hu)
    have hbit (j : Nat) := getLsbD_setBits (hostPort s n).paused k j pause hk
    refine ⟨modPort n (fun p => { p with paused := BitVec.ofNat 8 (setBits p.paused.toNat k 1 (if pause then 1 else 0)) }) (setNow t s),
      if_pos ⟨hu, hk, hb⟩, ?_, ?_, fun j hj => ?_⟩
    · refine modPort_congr ?_
      rw [hostPort_modPort_same _ hn]
    · rw [hostPort_modPort_same _ hn]
      exact (hbit k).trans (if_pos rfl)
    · rw [hostPort_modPort_same _ hn]
      exact (hbit j).trans (if_neg hj)
  · exact if_neg (fun hc => by
      have h := hc.2.2
      change (bits s.regs.nimoxTransport.toNat 38 8).testBit k = true at h
      rw [hb] at h
      cases h)

end Sys2Proof.Machine

namespace Sys2Proof.Machine

/-! ### The patrol scrub -/

/-- A state that differs from `s` in repair records, the count of deferred ones, the banks recorded and the events of memory. -/
def Records (s u : State) : Prop :=
  u = { s with repairs := u.repairs, mem := { s.mem with deferred := u.mem.deferred, recorded := u.mem.recorded, events := u.mem.events } }

theorem Records.trans {s u w : State} (h : Records s u) (h' : Records u w) : Records s w := by
  have e := h'
  rw [Records, h] at e
  exact e

theorem repairRecord_records (u i b target : Nat) (line : Bool) (cause : Nat) (s : State) : Records s (repairRecord u i b target line cause s) := by
  unfold repairRecord
  split <;> rfl

theorem repairRecord_ite (c : Prop) [Decidable c] (u i b target : Nat) (line : Bool) (cause : Nat) (s : State) :
    Records s (if c then repairRecord u i b target line cause s else s) := by
  split
  · exact repairRecord_records ..
  · rfl

theorem Records.unitStats {s u : State} (h : Records s u) (k i : Nat) : unitStats u k i = unitStats s k i := by
  rw [h]
  rfl

theorem unitStats_unit (s : State) (k i : Nat) : (unitStats s k i).unit = k ∧ (unitStats s k i).index = i := by
  unfold unitStats
  cases h : s.mem.units.find? (fun x => x.unit == k && x.index == i) with
  | none => exact ⟨rfl, rfl⟩
  | some y =>
    have := List.find?_some h
    simpa using this

theorem unitStats_modUnit (k i : Nat) (g : UnitStats → UnitStats) (s : State) (hg : ∀ x, (g x).unit = x.unit ∧ (g x).index = x.index) :
    unitStats (modUnit k i g s) k i = g (unitStats s k i) := by
  obtain ⟨hu, hi⟩ := unitStats_unit s k i
  obtain ⟨hgu, hgi⟩ := hg (unitStats s k i)
  have h : ((g (unitStats s k i)).unit == k && (g (unitStats s k i)).index == i) = true := by rw [hgu, hgi, hu, hi]; simp
  show ((g (unitStats s k i) :: s.mem.units.filter (fun x => !(x.unit == k && x.index == i))).find? (fun x => x.unit == k && x.index == i)).getD _ = _
  rw [List.find?_cons, h]
  rfl

/-- What a correctable error changes before it can make a record. -/
def ceCounted (w : SramWord) (bit : Nat) (s : State) : State :=
  let key := (w.unit, w.index, wordBank w, wordRow w)
  let here := (w.unit, w.index, wordBank w, bit, wordRow w)
  let rows := (s.mem.ceRows.filter (fun x => x.1 != key))
  let old := ((s.mem.ceRows.find? (fun x => x.1 == key)).map (fun x => x.2.1)).getD 0
  modUnit w.unit w.index (fun x => { x with ce := satAdd 32 x.ce 1 })
    { s with mem := { s.mem with ce := satAdd 64 s.mem.ce 1, ceRows := (key, old, true) :: rows, ceBits := if s.mem.ceBits.contains here then s.mem.ceBits else here :: s.mem.ceBits } }

theorem sramCe_records (w : SramWord) (bit : Nat) (s : State) : Records (ceCounted w bit s) (sramCe w bit s) := by
  exact repairRecord_ite _ _ _ _ _ _ _ (ceCounted w bit s)

/-- What the end of a unit's pass changes before rows make records. -/
def passCounted (k i : Nat) (s : State) : State :=
  let own (x : (Nat × Nat × Nat × Nat) × Nat × Bool) : Bool := x.1.1 == k && x.1.2.1 == i
  let kept := (s.mem.ceRows.filter (fun x => own x && x.2.2)).map (fun x => (x.1, x.2.1 + 1, false))
  modUnit k i (fun x => { x with passes := satAdd 32 x.passes 1, passAt := s.now })
    { s with mem := { s.mem with ceRows := kept ++ s.mem.ceRows.filter (fun x => !own x), ceBits := s.mem.ceBits.filter (fun x => !(x.1 == k && x.2.1 == i)) } }

theorem scrubPass_records (k i : Nat) (s : State) : Records (passCounted k i s) (scrubPass k i s) := by
  unfold scrubPass
  dsimp only
  exact List.foldlRecOn (motive := fun u : State => Records (passCounted k i s) u) _ _ (b := passCounted k i s) rfl
    (fun u hu x _ => hu.trans (repairRecord_records ..))

/-- What the loss of buffered blocks changes. -/
def LosesBuffered (s u : State) : Prop := u = { s with
  eng := { s.eng with wbuf := u.eng.wbuf }, lb := { s.lb with bufLoss := u.lb.bufLoss }, mem := { s.mem with events := u.mem.events }
  media := { s.media with nss := u.media.nss } }

theorem loseBuffered_loses (w : SramWord) (s : State) : LosesBuffered s (loseBuffered w s) := by
  unfold loseBuffered
  dsimp only
  refine List.foldlRecOn (motive := fun u : State => LosesBuffered s u) _ _ (b := s) rfl (fun u hu e _ => ?_)
  rw [LosesBuffered] at hu ⊢
  rw [hu]
  rfl

/-- What an uncorrectable error leaves: the word poisoned and counted, and of the rest only what errors may change. -/
theorem sramUe_eq {w : SramWord} {s : State} (hu : w.unit ≠ 4) (hp : wordPlace w ∉ s.mem.poisoned) :
    (sramUe w s).mem.poisoned = wordPlace w :: s.mem.poisoned ∧ (sramUe w s).lb.memUe = satAdd 32 s.lb.memUe 1 ∧ (sramUe w s).lb.memResets = s.lb.memResets ∧
    (sramUe w s).dev = s.dev ∧ (sramUe w s).cmds = s.cmds ∧ (sramUe w s).rdma = s.rdma := by
  have hc : s.mem.poisoned.contains (wordPlace w) = false := by simpa using hp
  unfold sramUe
  dsimp only
  rw [if_neg hu, hc]
  have hl := loseBuffered_loses (wordPlace w)
  split
  · rw [repairRecord_records _ _ _ _ _ _ _, hl _]
    exact ⟨rfl, rfl, rfl, rfl, rfl, rfl⟩
  · rw [hl _]
    exact ⟨rfl, rfl, rfl, rfl, rfl, rfl⟩

/-- A word's place does not depend on its HARD mark. -/
theorem wordPlace_mark (w : SramWord) (x : Nat) : wordPlace { w with address := BitVec.ofNat 64 (setBits w.address.toNat 36 1 x) } = wordPlace w := by
  have h : BitVec.ofNat 64 (setBits (BitVec.ofNat 64 (setBits w.address.toNat 36 1 x)).toNat 36 1 0) = BitVec.ofNat 64 (setBits w.address.toNat 36 1 0) := by
    refine BitVec.eq_of_getLsbD_eq (fun j hj => ?_)
    rw [BitVec.getLsbD_ofNat, BitVec.getLsbD_ofNat, testBit_setBits, testBit_setBits]
    split
    · rfl
    · next hne =>
      rw [← BitVec.getLsbD, BitVec.getLsbD_ofNat, testBit_setBits, if_neg hne, ← Bool.and_assoc, Bool.and_self]
  simp only [wordPlace, h]

theorem unit_ne_of_isUnit {s : State} {k i : Nat} (h : isUnit s k i = true) : k ≠ 4 := by
  rintro rfl
  unfold isUnit sramUnits at h
  cases hv : s.fixed.variant <;> rw [hv] at h <;> simp at h

section
variable {t : Nat} {w : SramWord} {s : State} (ha : alive s = true)
  (hr : s.dev.state = .mounting ∨ s.dev.state = .ready ∨ s.dev.state = .braced ∨ s.dev.state = .draining) (hp : s.power.current ≠ 3)
  (hu : isUnit s w.unit w.index = true)
include ha hr hp hu

/-- The guards of the scrub let a read of this word through. -/
theorem scrub_guards : ¬ (!alive (setNow t s)) = true ∧
    ¬ (!((setNow t s).dev.state == .mounting || (setNow t s).dev.state == .ready || (setNow t s).dev.state == .braced || (setNow t s).dev.state == .draining) ||
      (setNow t s).power.current == 3 || !isUnit (setNow t s) w.unit w.index) = true := by
  have hp' : ((setNow t s).power.current == 3) = false := by simpa [setNow] using hp
  refine ⟨by rw [show alive (setNow t s) = true from ha]; simp, ?_⟩
  rw [hp', show isUnit (setNow t s) w.unit w.index = true from hu]
  rcases hr with h | h | h | h <;> simp [setNow, h]

theorem patrolScrub_clean : exec (.patrolScrub t w .clean) s = .next (setNow t s) := by
  obtain ⟨h1, h2⟩ := scrub_guards (t := t) ha hr hp hu
  exact (if_neg h1).trans ((if_neg h2).trans rfl)

theorem patrolScrub_passEnd : exec (.patrolScrub t w .passEnd) s = .next (scrubPass w.unit w.index (setNow t s)) := by
  obtain ⟨h1, h2⟩ := scrub_guards (t := t) ha hr hp hu
  exact (if_neg h1).trans ((if_neg h2).trans rfl)

theorem patrolScrub_correctable (k : Nat) : exec (.patrolScrub t w (.correctable k)) s =
    .next (if s.mem.poisoned.contains (wordPlace w) then setNow t s else sramCe w k (setNow t s)) := by
  obtain ⟨h1, h2⟩ := scrub_guards (t := t) ha hr hp hu
  exact (if_neg h1).trans ((if_neg h2).trans rfl)

/-- The state after an uncorrectable error at the word. -/
def ueFound (t : Nat) (w : SramWord) (hard : Bool) (s : State) : State :=
  sramUe { w with address := BitVec.ofNat 64 (setBits w.address.toNat 36 1 (if hard then 1 else 0)) } (setNow t s)

theorem patrolScrub_uncorrectable (k : Bool) : exec (.patrolScrub t w (.uncorrectable k)) s =
    if s.mem.poisoned.contains (wordPlace w) then .next (setNow t s)
    else .next (if Config.mgmtState (wordPlace w) && (ueFound t w k s).dev.resetSeal.isNone then
      { ueFound t w k s with dev := { (ueFound t w k s).dev with resetSeal := some 5 }, lb := { (ueFound t w k s).lb with memResets := satAdd 32 (ueFound t w k s).lb.memResets 1 } }
      else ueFound t w k s) := by
  obtain ⟨h1, h2⟩ := scrub_guards (t := t) ha hr hp hu
  exact (if_neg h1).trans ((if_neg h2).trans rfl)

end

theorem ueFound_eq {t : Nat} {w : SramWord} {s : State} (k : Bool) (hu : w.unit ≠ 4) (hp : wordPlace w ∉ s.mem.poisoned) :
    (ueFound t w k s).mem.poisoned = wordPlace w :: s.mem.poisoned ∧ (ueFound t w k s).lb.memUe = satAdd 32 s.lb.memUe 1 ∧
    (ueFound t w k s).lb.memResets = s.lb.memResets ∧ (ueFound t w k s).dev = s.dev ∧ (ueFound t w k s).cmds = s.cmds ∧ (ueFound t w k s).rdma = s.rdma := by
  have hplace := wordPlace_mark w (if k then 1 else 0)
  have h := sramUe_eq (w := { w with address := BitVec.ofNat 64 (setBits w.address.toNat 36 1 (if k then 1 else 0)) }) (s := setNow t s) hu (by rw [hplace]; exact hp)
  rwa [hplace] at h

/-- Settles O60. -/
theorem scrubFindsAndRewritesErrors : Obligations.ScrubFindsAndRewritesErrors := by
  intro t w s ha
  refine ⟨fun x h => ?_, fun hr hp hu => ?_, ?_⟩
  · show execPatrolScrub t w x s = _
    unfold execPatrolScrub
    dsimp only
    rw [show alive (setNow t s) = true from ha, if_neg (by simp)]
    refine if_pos ?_
    rcases h with h | h | h
    · simp only [not_or] at h
      obtain ⟨h1, h2, h3, h4⟩ := h
      simp [setNow, h1, h2, h3, h4]
    · simp [setNow, h]
    · rw [show isUnit (setNow t s) w.unit w.index = false from h]
      simp
  · refine ⟨patrolScrub_clean ha hr hp hu, fun hin => ⟨fun k => ?_, fun k => ?_⟩, fun k hout => ?_, fun k hout => ?_, ?_⟩
    · exact (patrolScrub_correctable ha hr hp hu k).trans (congrArg _ (if_pos (List.contains_iff_mem.mpr hin)))
    · exact (patrolScrub_uncorrectable ha hr hp hu k).trans (if_pos (List.contains_iff_mem.mpr hin))
    · have hrec := sramCe_records w k (setNow t s)
      have hc : ¬ (s.mem.poisoned.contains (wordPlace w) = true) := fun h => hout (List.contains_iff_mem.mp h)
      refine ⟨_, (patrolScrub_correctable ha hr hp hu k).trans (congrArg _ (if_neg hc)), ?_, ?_, ?_, ?_⟩
      · rw [hrec]
        rfl
      · rw [hrec.unitStats]
        unfold ceCounted
        rw [unitStats_modUnit]
        · rfl
        · exact fun _ => ⟨rfl, rfl⟩
      · rw [hrec]
        rfl
      · rw [hrec]
        rfl
    · have hc : ¬ (s.mem.poisoned.contains (wordPlace w) = true) := fun h => hout (List.contains_iff_mem.mp h)
      obtain ⟨hpo, hue, hres, hdev, hcm, hrd⟩ := ueFound_eq (t := t) k (unit_ne_of_isUnit hu) hout
      refine ⟨_, (patrolScrub_uncorrectable ha hr hp hu k).trans (if_neg hc), ?_⟩
      by_cases hm : Config.mgmtState (wordPlace w) = true ∧ s.dev.resetSeal = none
      · rw [if_pos (by rw [hm.1, hdev, hm.2]; rfl)]
        refine ⟨hpo, hue, fun _ _ => ⟨rfl, congrArg (satAdd 32 · 1) hres⟩, fun h => ?_, hcm, hrd⟩
        rw [hm.1] at h
        cases h
      · rw [if_neg (by rw [hdev, Bool.and_eq_true, Option.isNone_iff_eq_none]; exact hm)]
        exact ⟨hpo, hue, fun h1 h2 => absurd ⟨h1, h2⟩ hm, fun _ => hdev, hcm, hrd⟩
    · have hrec := scrubPass_records w.unit w.index (setNow t s)
      have hst : unitStats (scrubPass w.unit w.index (setNow t s)) w.unit w.index =
          { unitStats s w.unit w.index with passes := satAdd 32 (unitStats s w.unit w.index).passes 1, passAt := max s.now t } := by
        rw [hrec.unitStats]
        unfold passCounted
        rw [unitStats_modUnit]
        · rfl
        · exact fun _ => ⟨rfl, rfl⟩
      refine ⟨_, patrolScrub_passEnd ha hr hp hu, by rw [hst], by rw [hst], ?_, ?_⟩
      · rw [hrec]
        rfl
      · rw [hrec]
        rfl
  · show execPoisonRewrite t w s = _
    rw [execPoisonRewrite, show alive (setNow t s) = true from ha]
    rfl

end Sys2Proof.Machine

namespace Sys2Proof.Machine

/-! ### Hawser links -/

@[simp] theorem hawserPort_setNow (t p : Nat) (s : State) : hawserPort (setNow t s) p = hawserPort s p := rfl

@[simp] theorem alive_setNow (t : Nat) (s : State) : alive (setNow t s) = alive s := rfl

@[simp] theorem mayTrain_setNow (t p : Nat) (s : State) : mayTrain (setNow t s) p = mayTrain s p := rfl

theorem hawserPort_modHawserPort_same {s : State} {p : Nat} (g : HawserPort → HawserPort) (h : p < s.hawser.ports.length) :
    hawserPort (modHawserPort p g s) p = g (hawserPort s p) := by
  rw [hawserPort_modHawserPort, if_pos ⟨rfl, h⟩]

/-- An attempt at step 2, from any state of a port that there is. -/
theorem startAttempt_restarts {p : Nat} {s : State} (hp : p < s.hawser.ports.length) : (hawserPort (startAttempt p s) p).state = .training ∧
    (hawserPort (startAttempt p s) p).step = 2 ∧ (hawserPort (startAttempt p s) p).stepAt = s.now ∧ (hawserPort (startAttempt p s) p).locked = 0 ∧
    (startAttempt p s).cmds = s.cmds := by
  have hc : (startAttempt p s).cmds = s.cmds := by rw [(startAttempt_hawserOnly p s).eq]
  rw [hawserPort_startAttempt hp]
  exact ⟨enterPort_state .training hp, rfl, rfl, rfl, hc⟩

/-- A part of a port that neither its traffic nor its training concerns stays when an attempt starts. -/
theorem startAttempt_part {α : Type} (part : HawserPort → α) (hs : ∀ x, part x.still = part x) (he : ∀ x st n l, part (HawserPort.enter st n l x) = part x)
    (hm : ∀ (x : HawserPort) n, part { x with step := 2, stepAt := n, lastIdent := none, locked := 0 } = part x) {p : Nat} {s : State} (hp : p < s.hawser.ports.length) :
    part (hawserPort (startAttempt p s) p) = part (hawserPort s p) := by
  rw [hawserPort_startAttempt hp, hm, enterPort_part part hs he]

theorem leaveLink_state {p : Nat} (st : HawserState) {s : State} (hp : p < s.hawser.ports.length) : (hawserPort (leaveLink p st s) p).state = st := by
  unfold leaveLink
  dsimp only
  rw [(moveFrames_sends ..).port_part HawserPort.state (fun _ => rfl)]
  exact enterPort_state st (by simpa [modCredits, modHawserPort] using hp)

theorem leaveLink_signal (p : Nat) (st : HawserState) (s : State) : (hawserPort (leaveLink p st s) p).signal = (hawserPort s p).signal := by
  unfold leaveLink
  dsimp only
  rw [(moveFrames_sends ..).port_part HawserPort.signal (fun _ => rfl), enterPort_part HawserPort.signal (fun _ => rfl) (fun _ _ _ _ => rfl)]
  show (hawserPort (modHawserPort p _ s) p).signal = _
  rw [hawserPort_modHawserPort]
  split <;> rfl

theorem leaveLink_cmds (p : Nat) (st : HawserState) (s : State) : (leaveLink p st s).cmds = s.cmds := by
  rw [(leaveLink_hawserOnly p st s).eq]

/-- Frames of the replay buffer go out in their order. -/
theorem foldl_emit (p : Nat) (l : List (BitVec 16 × Bytes)) (s : State) : l.foldl (fun st x => emit (.hawser p x.2) st) s =
    { s with out := (l.map (fun x => Output.hawser p x.2)).reverse ++ s.out } := by
  induction l generalizing s with
  | nil => rfl
  | cons x l ih =>
    rw [List.foldl_cons, ih]
    simp [emit]

/-- The port and what it sends once its unacknowledged frames have gone out again. -/
def resentPort (p : Nat) (s : State) : State :=
  let h := hawserPort s p
  let log := s.now :: h.resendLog.filter (fun x => decide (s.now < x + 1000000))
  { modHawserPort p (fun h => { h with replays := satAdd 32 h.replays h.replay.length, resendLog := log, ackAt := s.now }) s with
    out := (h.replay.map (fun x => Output.hawser p x.2)).reverse ++ s.out }

theorem resendUnacked_eq {p : Nat} {s : State} (h : (hawserPort s p).replay ≠ []) : resendUnacked p s =
    if 16 < (s.now :: (hawserPort s p).resendLog.filter (fun x => decide (s.now < x + 1000000))).length then startAttempt p (resentPort p s) else resentPort p s := by
  have h' : (hawserPort s p).replay.isEmpty = false := by simpa using h
  unfold resendUnacked
  simp only [h', Bool.false_eq_true, if_false, foldl_emit]
  rfl

/-- The state after the IDENT frame with which a port repeats its check. -/
def rechecked (t p : Nat) (s : State) : State := sendIdent p (modHawserPort p (fun h => { h with stepAt := max s.now t }) (setNow t s))

section
variable {t p : Nat} {s : State} (ha : alive s = true) (hm : mayTrain s p = true)
  (hst : (hawserPort s p).state = .foreign ∨ (hawserPort s p).state = .miswired ∨ (hawserPort s p).state = .conflict) (hd : (hawserPort s p).stepAt + 10000000000 ≤ max s.now t)
include ha hm hst hd

theorem recheck_due : (alive (setNow t s) && mayTrain (setNow t s) p &&
    ((hawserPort (setNow t s) p).state == .foreign || (hawserPort (setNow t s) p).state == .miswired || (hawserPort (setNow t s) p).state == .conflict) &&
    decide ((hawserPort (setNow t s) p).stepAt + 10000000000 ≤ (setNow t s).now)) = true := by
  have hg : ((hawserPort s p).state == .foreign || (hawserPort s p).state == .miswired || (hawserPort s p).state == .conflict) = true := by
    rcases hst with h | h | h <;> simp [h]
  simp only [Bool.and_eq_true, decide_eq_true_eq]
  exact ⟨⟨⟨ha, hm⟩, hg⟩, hd⟩

theorem identRecheck_none (hi : (hawserPort s p).lastIdent = none) : exec (.identRecheck t p) s = .next (rechecked t p s) := by
  have hi' : (hawserPort (setNow t s) p).lastIdent = none := hi
  show execIdentRecheck t p s = _
  unfold execIdentRecheck
  dsimp only
  rw [if_pos (recheck_due ha hm hst hd), hi']
  rfl

theorem identRecheck_some {m : Bytes} (hi : (hawserPort s p).lastIdent = some m) : exec (.identRecheck t p) s = .next (judgeIdent p m (rechecked t p s)) := by
  have hi' : (hawserPort (setNow t s) p).lastIdent = some m := hi
  show execIdentRecheck t p s = _
  unfold execIdentRecheck
  dsimp only
  rw [if_pos (recheck_due ha hm hst hd), hi']
  rfl

end

/-- Settles O59. -/
theorem hawserLinksTrainAndFail : Obligations.HawserLinksTrainAndFail := by
  intro t p s ha hp6 hp
  have hp' : p < (setNow t s).hawser.ports.length := hp
  dsimp only
  refine ⟨fun h => ?_, fun hc hr hd => ⟨fun hlog => ?_, fun hlog => ?_⟩, fun hsig => ?_, fun hsig h => ?_, fun hsig hm hst => ?_, fun n hst hstep hn => ?_,
    fun n h => ?_, fun h => ?_, fun hst hd => ⟨fun hs2 => ?_, fun hs2 hf => ?_, fun hs2 hf => ?_⟩, fun hm hst hd => ?_, fun h => ?_,
    fun hm hst hd => ⟨fun hi => ?_, fun m hi hfl => ?_⟩, fun h => ?_, fun hsig => ?_, fun hsig hst => ?_, fun hsig h1 h2 => ?_⟩
  · refine if_neg (fun hc => ?_)
    simp only [Bool.and_eq_true, decide_eq_true_eq, Bool.not_eq_true', List.isEmpty_eq_false_iff] at hc
    simp only [hawserPort_setNow, setNow_now] at hc
    obtain ⟨⟨⟨-, h1⟩, h2⟩, h3⟩ := hc
    rcases h with h | h | h
    · rw [h1] at h; cases h
    · exact h2 h
    · omega
  · have hr' : (hawserPort s p).replay.isEmpty = false := by simpa using hr
    refine ⟨resentPort p (setNow t s), (if_pos ?_).trans (congrArg _ ((resendUnacked_eq (s := setNow t s) hr).trans (if_neg (not_lt.mpr hlog)))), rfl, ?_, rfl⟩
    · simp only [Bool.and_eq_true, decide_eq_true_eq]
      exact ⟨⟨⟨ha, hc⟩, by rw [hawserPort_setNow, hr']; rfl⟩, hd⟩
    · exact hawserPort_modHawserPort_same _ hp'
  · have hr' : (hawserPort s p).replay.isEmpty = false := by simpa using hr
    refine ⟨_, (if_pos ?_).trans (congrArg _ ((resendUnacked_eq (s := setNow t s) hr).trans (if_pos hlog))), startAttempt_restarts ?_⟩
    · simp only [Bool.and_eq_true, decide_eq_true_eq]
      exact ⟨⟨⟨ha, hc⟩, by rw [hawserPort_setNow, hr']; rfl⟩, hd⟩
    · simpa [resentPort, modHawserPort] using hp
  · refine if_neg (fun hc => ?_)
    simp only [hawserPort_setNow, hsig, Bool.not_true, Bool.and_false, Bool.false_eq_true] at hc
  · refine (if_pos (by simp [ha, hp6, hsig])).trans (congrArg _ (if_neg (fun hc => ?_)))
    obtain ⟨hm, hst⟩ := hc
    have hm' : mayTrain s p = true := hm
    rcases h with h | ⟨h, h'⟩
    · rw [hm'] at h; cases h
    · rcases hst with hst | hst
      · exact h hst
      · exact h' hst
  · have hlen : p < (modHawserPort p (fun h => { h with signal := true }) (setNow t s)).hawser.ports.length := by simpa [modHawserPort] using hp
    refine ⟨_, (if_pos (by simp [ha, hp6, hsig])).trans (congrArg _ (if_pos ⟨hm, hst⟩)), startAttempt_restarts hlen, ?_⟩
    rw [startAttempt_part HawserPort.signal (fun _ => rfl) (fun _ _ _ _ => rfl) (fun _ _ => rfl) hlen, hawserPort_modHawserPort_same _ hp']
  · refine ⟨_, if_pos ?_, ?_, ⟨_, rfl⟩, rfl⟩
    · simp only [Bool.and_eq_true, Bool.or_eq_true, beq_iff_eq]
      exact ⟨⟨⟨ha, hst⟩, hstep⟩, hn⟩
    · exact hawserPort_modHawserPort_same _ hp'
  · refine if_neg (fun hc => ?_)
    simp only [hawserPort_setNow, Bool.and_eq_true, Bool.or_eq_true, beq_iff_eq] at hc
    obtain ⟨⟨⟨-, h1⟩, h2⟩, h3⟩ := hc
    rcases h with h | ⟨h, h'⟩ | ⟨h, h'⟩
    · exact h h1
    · rcases h2 with h2 | h2
      · exact h h2
      · exact h' h2
    · rcases h3 with h3 | h3
      · exact h h3
      · exact h' h3
  · refine if_neg (fun hc => ?_)
    simp only [Bool.and_eq_true, decide_eq_true_eq, beq_iff_eq] at hc
    simp only [hawserPort_setNow, setNow_now] at hc
    obtain ⟨⟨-, h1⟩, h2⟩ := hc
    rcases h with h | h
    · exact h h1
    · omega
  · exact (if_pos (by simp [ha, hst, hd])).trans (congrArg _ (if_pos hs2))
  · have hlen : p < (modHawserPort p (fun h => { h with failures := (hawserPort s p).failures + 1 }) (setNow t s)).hawser.ports.length := by simpa [modHawserPort] using hp
    refine ⟨_, (if_pos (by simp [ha, hst, hd])).trans (congrArg _ ((if_neg hs2).trans (if_neg ?_))), startAttempt_restarts hlen, ?_⟩
    · show ¬ 3 ≤ (hawserPort s p).failures + 1
      omega
    · refine (startAttempt_part HawserPort.failures (fun _ => rfl) (fun _ _ _ _ => rfl) (fun _ _ => rfl) hlen).trans ?_
      rw [hawserPort_modHawserPort_same _ hp']
  · have hlen : p < (modHawserPort p (fun h => { h with failures := (hawserPort s p).failures + 1 }) (setNow t s)).hawser.ports.length := by simpa [modHawserPort] using hp
    refine ⟨_, (if_pos (by simp [ha, hst, hd])).trans (congrArg _ ((if_neg hs2).trans (if_pos ?_))), leaveLink_state .down hlen, leaveLink_cmds p .down _⟩
    show 3 ≤ (hawserPort s p).failures + 1
    omega
  · have hg : ((hawserPort s p).state == .down && (hawserPort s p).signal || (hawserPort s p).state == .narrow) = true := by
      rcases hst with ⟨h, h'⟩ | h
      · simp [h, h']
      · simp [h]
    exact ⟨_, if_pos (by simp only [Bool.and_eq_true, decide_eq_true_eq]; exact ⟨⟨⟨ha, hm⟩, hg⟩, hd⟩), startAttempt_restarts hp'⟩
  · refine if_neg (fun hc => ?_)
    simp only [Bool.and_eq_true, Bool.or_eq_true, decide_eq_true_eq, beq_iff_eq] at hc
    simp only [mayTrain_setNow, hawserPort_setNow, setNow_now] at hc
    obtain ⟨⟨⟨-, h1⟩, h2⟩, h3⟩ := hc
    rcases h with h | ⟨h, h'⟩ | ⟨h, h'⟩ | h
    · rw [h1] at h; cases h
    · rcases h2 with ⟨-, h2⟩ | h2
      · rw [h'] at h2; cases h2
      · rw [h] at h2; cases h2
    · rcases h2 with ⟨h2, -⟩ | h2
      · exact h h2
      · exact h' h2
    · omega
  · exact ⟨_, identRecheck_none ha hm hst hd hi⟩
  · have hck : identChecks (modHawserPort p (fun h => { h with peerModule := identModule m, peerPort := identPort m, peerSerial := slice m 16 16 }) (rechecked t p s)) p m =
        some .foreign := if_pos hfl
    refine ⟨_, identRecheck_some ha hm hst hd hi, ?_⟩
    simp only [judgeIdent, hck]
    exact leaveLink_state .foreign (by simpa [modHawserPort, rechecked, sendIdent, emit] using hp)
  · refine if_neg (fun hc => ?_)
    simp only [Bool.and_eq_true, Bool.or_eq_true, decide_eq_true_eq, beq_iff_eq] at hc
    simp only [mayTrain_setNow, hawserPort_setNow, setNow_now] at hc
    obtain ⟨⟨⟨-, h1⟩, h2⟩, h3⟩ := hc
    rcases h with h | ⟨h, h', h''⟩ | h
    · rw [h1] at h; cases h
    · rcases h2 with (h2 | h2) | h2
      · exact h h2
      · exact h' h2
      · exact h'' h2
    · omega
  · refine if_neg (fun hc => ?_)
    simp only [hawserPort_setNow, hsig, Bool.and_false, Bool.false_eq_true] at hc
  · exact (if_pos (by simp [ha, hp6, hsig])).trans (congrArg _ (if_pos hst))
  · refine ⟨_, (if_pos (by simp [ha, hp6, hsig])).trans (congrArg _ (if_neg (by rw [not_or]; exact ⟨h1, h2⟩))), ?_⟩
    have hlen : p < (modHawserPort p (fun h => { h with signal := false }) (setNow t s)).hawser.ports.length := by simpa [modHawserPort] using hp
    refine ⟨leaveLink_state .down hlen, ?_, leaveLink_cmds p .down _⟩
    refine (leaveLink_signal p .down _).trans ?_
    rw [hawserPort_modHawserPort_same _ hp']

end Sys2Proof.Machine

namespace Sys2Proof.Machine

/-! ### The tide -/

/-- A state that differs from `s` in counts of late starts and in the switches of engines only. -/
structure Counts (s u : State) : Prop where
  eq : u = { s with berths := u.berths, tide := { s.tide with late := u.tide.late, counted := u.tide.counted, atStart := u.tide.atStart }
                    eng := { s.eng with cranes := u.eng.cranes } }
  berths : ∀ b, getBerth u b = { getBerth s b with use := { (getBerth s b).use with lateMax := (getBerth u b).use.lateMax } }

theorem Counts.refl (s : State) : Counts s s := ⟨rfl, fun _ => rfl⟩

theorem Counts.trans {s u w : State} (h : Counts s u) (h' : Counts u w) : Counts s w := by
  refine ⟨?_, fun b => ?_⟩
  · have e := h'.eq
    rw [h.eq] at e
    exact e
  · rw [h'.berths b, h.berths b]

theorem countLate_counts (e : Engine) (s : State) : Counts s (countLate e s) := by
  unfold countLate
  split
  · split
    · refine ⟨rfl, fun b => ?_⟩
      rw [getBerth_modBerth]
      split <;> rfl
    · exact Counts.refl s
  · exact Counts.refl s

theorem countSwitch_counts (e : Engine) (b : Nat) (s : State) (old : Option (Nat × Nat)) : Counts s (countSwitch e b s old) := by
  unfold countSwitch
  split
  · split
    · exact Counts.refl s
    · exact ⟨rfl, fun _ => rfl⟩
  · exact Counts.refl s

section
variable {s u : State} (h : Counts s u)
include h

theorem Counts.berthState (b : Nat) : (getBerth u b).state = (getBerth s b).state := by rw [h.berths b]

theorem Counts.slotOf (e : Engine) : slotOf u e = slotOf s e := by
  unfold Machine.slotOf
  have ht : u.tide.openWin = s.tide.openWin := by rw [h.eq]
  have hx : u.tide.active = s.tide.active := by rw [h.eq]
  rw [ht, hx]
  congr 1
  funext i
  split
  · rw [h.berthState]
  · rfl

theorem Counts.readyFor (e : Engine) (b : Nat) : readyFor u e b = readyFor s e b := by
  unfold Machine.readyFor
  have hc : u.cmds = s.cmds := by rw [h.eq]
  have hu : usesEngine u = usesEngine s := by rw [h.eq]; rfl
  rw [h.berthState, hc, hu]

theorem Counts.nextBerth (e : Engine) (b : Nat) : nextBerth u e b = nextBerth s e b := by
  unfold Machine.nextBerth
  rw [show Machine.readyFor u e = Machine.readyFor s e from funext (h.readyFor e)]

theorem Counts.turnWeight (b : Nat) : turnWeight u b = turnWeight s b := by
  unfold Machine.turnWeight shareBits
  rw [h.berths b]

theorem Counts.openWater (e : Engine) : openWater u e = openWater s e := by
  have hg : grantOf u e = grantOf s e := by rw [h.eq]; rfl
  unfold Machine.openWater
  simp only [hg, h.turnWeight, h.readyFor, h.nextBerth]

theorem Counts.nextGrant (e : Engine) : nextGrant u e = nextGrant s e := by
  have hi (x : TideEntry) : inGuard u.tide.active x (ptpNow u) = inGuard s.tide.active x (ptpNow s) := by rw [h.eq]; rfl
  unfold Machine.nextGrant
  simp only [h.slotOf, h.readyFor, h.openWater, hi]

theorem Counts.engineStopped (e : Engine) : engineStopped u e = engineStopped s e := by
  rw [h.eq]
  rfl

end

/-- The grants of an engine after its boundary, where `s` has every count of the boundary. -/
theorem grantOf_granted (e : Engine) (g : Option (Nat × Nat)) (s : State) :
    grantOf { s with eng := { s.eng with grants := (g.map (fun x => (e, x.1, x.2))).toList ++ s.eng.grants.filter (fun x => x.1 != e) } } e = g ∧
    ∀ y, y ≠ e → grantOf { s with eng := { s.eng with grants := (g.map (fun x => (e, x.1, x.2))).toList ++ s.eng.grants.filter (fun x => x.1 != e) } } y = grantOf s y := by
  have hkeep (y : Engine) (hy : y ≠ e) : (s.eng.grants.filter (fun x => x.1 != e)).find? (fun x => x.1 == y) = s.eng.grants.find? (fun x => x.1 == y) := by
    refine find?_filter_ne _ _ _ (fun x hx => ?_)
    rw [beq_iff_eq] at hx
    simpa [hx] using hy
  have hgone : (s.eng.grants.filter (fun x => x.1 != e)).find? (fun x => x.1 == e) = none := by
    rw [List.find?_eq_none]
    intro x hx
    simpa using (List.mem_filter.mp hx).2
  cases g with
  | none =>
    refine ⟨?_, fun y hy => ?_⟩
    · simp [grantOf, hgone]
    · simp [grantOf, hkeep y hy]
  | some g =>
    refine ⟨?_, fun y hy => ?_⟩
    · simp [grantOf]
    · have hy' : (e == y) = false := by simpa using hy.symm
      simp [grantOf, hy', hkeep y hy]

/-- The state in which an engine's part boundary settles its grant. -/
def boundaryAt (t : Nat) (e : Engine) (s : State) : State :=
  let s1 := countLate e (setNow t s)
  { s1 with tide := { s1.tide with atStart := s1.tide.atStart.filter (fun x => x.2 != e) } }

theorem boundaryAt_counts (t : Nat) (e : Engine) (s : State) : Counts (setNow t s) (boundaryAt t e s) :=
  (countLate_counts e (setNow t s)).trans ⟨rfl, fun _ => rfl⟩

/-- The grant that follows a boundary. -/
def grantNext (s : State) (e : Engine) : Option (Nat × Nat) := if engineStopped s e then none else nextGrant s e

/-- `s` with the grant of `e` replaced. -/
def regranted (e : Engine) (g : Option (Nat × Nat)) (s : State) : State :=
  { s with eng := { s.eng with grants := (g.map (fun x => (e, x.1, x.2))).toList ++ s.eng.grants.filter (fun x => x.1 != e) } }

theorem enginePartBoundary_eq {t : Nat} {e : Engine} {s : State} (ha : alive s = true) : ∃ u, exec (.enginePartBoundary t e) s = .next u ∧
    Counts (regranted e (grantNext (setNow t s) e) (boundaryAt t e s)) u := by
  have hb := boundaryAt_counts t e s
  have hg : grantNext (boundaryAt t e s) e = grantNext (setNow t s) e := by
    unfold grantNext
    rw [hb.engineStopped, hb.nextGrant]
  have hx : exec (.enginePartBoundary t e) s = match grantNext (boundaryAt t e s) e with
      | some (b, n) => .next (countSwitch e b (regranted e (some (b, n)) (boundaryAt t e s)) (grantOf (boundaryAt t e s) e))
      | none => .next (regranted e none (boundaryAt t e s)) := by
    refine (if_neg (by simp [ha])).trans ?_
    rfl
  rw [hg] at hx
  cases h : grantNext (setNow t s) e with
  | none =>
    rw [h] at hx
    exact ⟨_, hx, Counts.refl _⟩
  | some g =>
    rw [h] at hx
    exact ⟨_, hx, countSwitch_counts ..⟩

theorem nextGrant_owner {s : State} {e : Engine} {i : Nat} {w : TideEntry} (h : slotOf s e = some (i, w)) (hr : readyFor s e w.owner = true) :
    nextGrant s e = some (w.owner, 1) := by
  simp only [nextGrant, h, hr, if_true]

theorem nextGrant_idle {s : State} {e : Engine} {i : Nat} {w : TideEntry} (h : slotOf s e = some (i, w)) (hr : readyFor s e w.owner = false)
    (hb : w.backfill = false) : nextGrant s e = none := by
  simp only [nextGrant, h, hr, hb, Bool.false_and, Bool.false_eq_true, if_false]

theorem nextGrant_open {s : State} {e : Engine} (h : slotOf s e = none) : nextGrant s e = openWater s e := by
  simp only [nextGrant, h]

theorem openWater_free {s : State} {e : Engine} (h : grantOf s e = none) : openWater s e = (nextBerth s e 15).map (fun c => (c, 1)) := by
  simp only [openWater, h]

theorem openWater_held {s : State} {e : Engine} {b n : Nat} (h : grantOf s e = some (b, n)) : openWater s e =
    if n < turnWeight s b ∧ readyFor s e b then some (b, n + 1) else (nextBerth s e b).map (fun c => (c, 1)) := by
  simp only [openWater, h]

/-- A state that differs from `s` in counts of late starts, the switches of engines and their grants only. -/
def Regrants (s u : State) : Prop := u = { s with
  berths := u.berths, tide := { s.tide with late := u.tide.late, counted := u.tide.counted, atStart := u.tide.atStart }
  eng := { s.eng with grants := u.eng.grants, cranes := u.eng.cranes } }

theorem Regrants.trans {s u w : State} (h : Regrants s u) (h' : Regrants u w) : Regrants s w := by
  have e := h'
  rw [Regrants, h] at e
  exact e

theorem Regrants.of_counts {s u : State} (h : Counts s u) : Regrants s u := by
  rw [Regrants, h.eq]

/-- Settles O54. -/
theorem tideWindowsAndGrants : Obligations.TideWindowsAndGrants := by
  intro t e x s ha
  have hlive : ¬ (!alive (setNow t s)) = true := by simp [ha]
  dsimp only
  refine ⟨fun ho hw => ?_, fun h => ?_, fun ho hw => ?_, fun h => ?_, fun p hp hsw => ?_, fun h => ?_, ?_⟩
  · refine (if_neg hlive).trans (if_pos ?_)
    rw [Bool.and_eq_true, List.contains_iff_mem, Bool.not_eq_true', ← Bool.not_eq_true, List.contains_iff_mem]
    exact ⟨ho, hw⟩
  · refine (if_neg hlive).trans (if_neg (fun hc => ?_))
    rw [Bool.and_eq_true, List.contains_iff_mem, Bool.not_eq_true', ← Bool.not_eq_true, List.contains_iff_mem] at hc
    exact h.elim (fun h => h hc.1) (fun h => hc.2 h)
  · refine (if_neg hlive).trans (if_pos ?_)
    rw [Bool.and_eq_true, List.contains_iff_mem, Bool.not_eq_true', ← Bool.not_eq_true, List.contains_iff_mem]
    exact ⟨hw, ho⟩
  · refine (if_neg hlive).trans (if_neg (fun hc => ?_))
    rw [Bool.and_eq_true, List.contains_iff_mem, Bool.not_eq_true', ← Bool.not_eq_true, List.contains_iff_mem] at hc
    exact h.elim (fun h => hc.2 h) (fun h => h hc.1)
  · have hp' : (setNow t s).tide.pending = some p := hp
    show execTideTableSwitch t s = _
    simp only [execTideTableSwitch, hp']
    exact (if_neg hlive).trans (if_pos hsw)
  · show execTideTableSwitch t s = _
    unfold execTideTableSwitch
    refine (if_neg hlive).trans ?_
    split
    · rfl
    · next p hp => exact if_neg (not_le.mpr (h p hp))
  · obtain ⟨u, hu, hc⟩ := enginePartBoundary_eq (t := t) (e := x) ha
    have hb := boundaryAt_counts t x s
    obtain ⟨hown, hothers⟩ := grantOf_granted x (grantNext (setNow t s) x) (boundaryAt t x s)
    have hgrant (y : Engine) : grantOf u y = grantOf (regranted x (grantNext (setNow t s) x) (boundaryAt t x s)) y := by
      rw [hc.eq]
      rfl
    have hmine : grantOf u x = grantNext (setNow t s) x := (hgrant x).trans hown
    refine ⟨u, hu, ?_, fun b => ?_, fun y hy => ?_, fun hst => ?_, fun hst => ⟨fun i w hs hr => ?_, fun i w hs hr hbf => ?_, fun hs hg => ?_, fun b n hs hg hn hr => ?_, fun b n hs hg hn => ?_⟩⟩
    · have hmid : Regrants (boundaryAt t x s) (regranted x (grantNext (setNow t s) x) (boundaryAt t x s)) := rfl
      exact ((Regrants.of_counts hb).trans hmid).trans (Regrants.of_counts hc)
    · rw [hc.berths b]
      have h2 : getBerth (regranted x (grantNext (setNow t s) x) (boundaryAt t x s)) b = getBerth (boundaryAt t x s) b := rfl
      rw [h2, hb.berths b]
      rfl
    · rw [hgrant, regranted, hothers y hy, hb.eq]
      rfl
    · rw [hmine, grantNext, if_pos]
      exact hst
    all_goals
      have hst' : ¬ engineStopped (setNow t s) x = true := by rw [show engineStopped (setNow t s) x = false from hst]; simp
      rw [hmine, grantNext, if_neg hst']
    · exact nextGrant_owner (s := setNow t s) hs hr
    · exact nextGrant_idle (s := setNow t s) hs hr hbf
    · exact (nextGrant_open (s := setNow t s) hs).trans (openWater_free (s := setNow t s) hg)
    · exact (nextGrant_open (s := setNow t s) hs).trans ((openWater_held (s := setNow t s) hg).trans (if_pos ⟨hn, hr⟩))
    · refine (nextGrant_open (s := setNow t s) hs).trans ((openWater_held (s := setNow t s) hg).trans (if_neg (fun h => ?_)))
      obtain ⟨h1, h2⟩ := h
      have h1' : n < turnWeight s b := h1
      have h2' : readyFor s x b = true := h2
      rcases hn with hn | hn
      · omega
      · rw [h2'] at hn
        cases hn

end Sys2Proof.Machine

namespace Sys2Proof.Machine

/-! ### Network time -/

@[simp] theorem clockRuns_setNow (t : Nat) (s : State) : clockRuns (setNow t s) = clockRuns s := rfl

@[simp] theorem ptpAccepts_setNow (t : Nat) (s : State) (m : PtpMsg) : ptpAccepts (setNow t s) m = ptpAccepts s m := rfl

@[simp] theorem fromMaster_setNow (t : Nat) (s : State) (m : PtpMsg) : fromMaster (setNow t s) m = fromMaster s m := rfl

/-- A state that differs from `s` in its clock only. -/
def ClockOnly (s u : State) : Prop := u = { s with clock := u.clock }

theorem enterHoldover_clock (s : State) : ClockOnly s (enterHoldover s) := rfl

/-- What choosing a master leaves alone. -/
theorem selectMaster_keeps (s : State) : ClockOnly s (selectMaster s) ∧ (selectMaster s).clock.masters = s.clock.masters ∧
    (selectMaster s).clock.offset = s.clock.offset := by
  unfold selectMaster
  extract_lets c best same
  clear_value same best
  split
  · exact ⟨rfl, rfl, rfl⟩
  · split
    · exact ⟨rfl, rfl, rfl⟩
    · split
      · split <;> exact ⟨rfl, rfl, rfl⟩
      · exact ⟨rfl, rfl, rfl⟩

/-- A master that is the only one heard is selected. -/
theorem selectMaster_first {s : State} {x : Master} (hm : s.clock.masters = [x]) (hs : s.clock.selected = none) (hx : x.last = s.now) (hst : s.clock.state = .unsync) :
    selectMaster s = { s with clock := { s.clock with
      selected := some x, good := 0, bad := 0, lastSync := none, syncs := [], delayReqs := [], state := .acquiring } } := by
  have hbest : bestMaster (heard s.now s.clock.masters) = some x := by
    rw [hm, heard, List.filter_cons_of_pos (by simp [hx])]
    rfl
  simp only [selectMaster, hbest, hs, hst]
  rfl

/-- The last master is lost. -/
theorem selectMaster_lost {s : State} {x : Master} (hm : s.clock.masters = []) (hs : s.clock.selected = some x) :
    (selectMaster s).clock.selected = none ∧ (selectMaster s).clock.state = if s.clock.lockedOnce then .holdover else .unsync := by
  have hbest : bestMaster (heard s.now s.clock.masters) = none := by rw [hm]; rfl
  simp only [selectMaster, hbest, hs, Bool.false_eq_true, if_false]
  cases hl : s.clock.lockedOnce with
  | false => exact ⟨rfl, rfl⟩
  | true =>
    by_cases hh : s.clock.state = .holdover
    · simp only [hh, if_true, and_self]
    · simp only [hh, if_true, if_false]
      exact ⟨rfl, rfl⟩

section
variable {m : Int} {s : State} (hst : s.clock.state = .acquiring)
include hst

/-- One more good measurement before the lock. -/
theorem servoStep_good (hd : (m - s.clock.servo).natAbs ≤ 200) (hg : s.clock.good < 15) : ClockOnly s (servoStep m s) ∧
    (servoStep m s).clock.state = .acquiring ∧ (servoStep m s).clock.good = s.clock.good + 1 ∧ (servoStep m s).clock.servo = m ∧
    (servoStep m s).clock.pathNs = s.clock.pathNs ∧ (servoStep m s).clock.offset = s.clock.offset ∧ (servoStep m s).clock.lastGood = s.now := by
  have hl : s.clock.state ≠ .locked := by rw [hst]; decide
  simp only [servoStep, if_neg hl, if_pos hd, if_neg (show ¬ 16 ≤ s.clock.good + 1 by omega)]
  exact ⟨rfl, rfl, rfl, rfl, rfl, rfl, rfl⟩

/-- The sixteenth good measurement locks, and the first lock steps the clock. -/
theorem servoStep_lock (hd : (m - s.clock.servo).natAbs ≤ 200) (hg : s.clock.good = 15) (hf : s.clock.lockedOnce = false) :
    (servoStep m s).clock.state = .locked ∧ (servoStep m s).clock.lockedOnce = true ∧ (servoStep m s).clock.offset = s.clock.offset - m ∧
    (servoStep m s).clock.steps = satAdd 16 s.clock.steps 1 := by
  have hl : s.clock.state ≠ .locked := by rw [hst]; decide
  simp only [servoStep, if_neg hl, if_pos hd, hg, lockClock, modClock, hf]
  exact ⟨rfl, rfl, rfl, rfl⟩

/-- A measurement too far from the last begins the count again. -/
theorem servoStep_far (hd : 200 < (m - s.clock.servo).natAbs) : (servoStep m s).clock.state = .acquiring ∧ (servoStep m s).clock.good = 0 ∧
    (servoStep m s).clock.servo = m := by
  have hl : s.clock.state ≠ .locked := by rw [hst]; decide
  simp only [servoStep, if_neg hl, if_neg (not_le.mpr hd), if_neg (show ¬ 16 ≤ 0 by omega)]
  exact ⟨rfl, rfl, rfl⟩

end

/-- The state with one message more rejected. -/
def rejectedAt (t : Nat) (s : State) : State := { setNow t s with clock := { s.clock with rejects := satAdd 32 s.clock.rejects 1 } }

section
variable {t : Nat} {m : PtpMsg} {s : State} (ha : alive s = true)
include ha

theorem ptp_idle (hr : clockRuns s = false) : exec (.sync t m) s = .next (setNow t s) ∧ exec (.followUp t m) s = .next (setNow t s) ∧
    exec (.delayResp t m) s = .next (setNow t s) ∧ exec (.ptpAnnounce t m) s = .next (setNow t s) ∧ exec (.delayReqSend t) s = .next (setNow t s) := by
  have h1 : ¬ (!alive (setNow t s)) = true := by simp [ha]
  have h2 : (!clockRuns (setNow t s)) = true := by simp [hr]
  refine ⟨(if_neg h1).trans (if_pos h2), (if_neg h1).trans (if_pos h2), (if_neg h1).trans (if_pos h2), (if_neg h1).trans (if_pos h2), ?_⟩
  show execDelayReqSend t s = _
  unfold execDelayReqSend
  refine (if_neg h1).trans ?_
  split
  · rfl
  · exact if_pos h2

theorem ptp_reject (hr : clockRuns s = true) (hb : ptpAccepts s m = false ∨ fromMaster s m = false) : exec (.sync t m) s = .next (rejectedAt t s) ∧
    exec (.followUp t m) s = .next (rejectedAt t s) ∧ exec (.delayResp t m) s = .next (rejectedAt t s) := by
  have h1 : ¬ (!alive (setNow t s)) = true := by simp [ha]
  have h2 : ¬ (!clockRuns (setNow t s)) = true := by simp [hr]
  have h3 : (!ptpAccepts (setNow t s) m || !fromMaster (setNow t s) m) = true := by simpa using hb
  exact ⟨(if_neg h1).trans ((if_neg h2).trans (if_pos h3)), (if_neg h1).trans ((if_neg h2).trans (if_pos h3)), (if_neg h1).trans ((if_neg h2).trans (if_pos h3))⟩

end

/-- The state without the Delay_Req of a measurement. -/
def measured (seqId : Nat) (s : State) : State := modClock (fun c => { c with delayReqs := c.delayReqs.filter (fun x => x.1 != seqId) }) s

section
variable {t : Nat} {m : PtpMsg} {s : State} (ha : alive s = true) (hr : clockRuns s = true) (hacc : ptpAccepts s m = true)
include ha hr hacc

theorem ptpAnnounce_taken : exec (.ptpAnnounce t m) s = .next (selectMaster (modClock (fun c => { c with
    masters := { port := m.port, master := m.master, priority := m.priority, interval := m.interval, last := max s.now t } ::
      s.clock.masters.filter (fun y => !(y.master == m.master && y.port == m.port))
    selected := c.selected.map (fun y => if y.master = m.master ∧ y.port = m.port then
      { port := m.port, master := m.master, priority := m.priority, interval := m.interval, last := max s.now t } else y) }) (setNow t s))) := by
  have h1 : ¬ (!alive (setNow t s)) = true := by simp [ha]
  have h2 : ¬ (!clockRuns (setNow t s)) = true := by simp [hr]
  have h3 : ¬ (!ptpAccepts (setNow t s) m) = true := by simp [hacc]
  exact (if_neg h1).trans ((if_neg h2).trans ((if_neg h3).trans rfl))

variable (hfrom : fromMaster s m = true)
include hfrom

/-- A message of the selected master gets past the guards of its row. -/
theorem ptp_guards : ¬ (!alive (setNow t s)) = true ∧ ¬ (!clockRuns (setNow t s)) = true ∧ ¬ (!ptpAccepts (setNow t s) m || !fromMaster (setNow t s) m) = true := by
  simp [ha, hr, hacc, hfrom]

theorem sync_twoStep (h : m.twoStep = true) : exec (.sync t m) s =
    .next (modClock (fun c => { c with syncs := (m.seqId, m.arrival) :: c.syncs.filter (fun x => decide (max s.now t ≤ x.2 + 100000000)) }) (setNow t s)) := by
  obtain ⟨h1, h2, h3⟩ := ptp_guards (t := t) ha hr hacc hfrom
  exact (if_neg h1).trans ((if_neg h2).trans ((if_neg h3).trans (if_pos h)))

theorem sync_oneStep (h : m.twoStep = false) : exec (.sync t m) s = .next (modClock (fun c => { c with lastSync := some (m.origin, m.arrival) }) (setNow t s)) := by
  obtain ⟨h1, h2, h3⟩ := ptp_guards (t := t) ha hr hacc hfrom
  exact (if_neg h1).trans ((if_neg h2).trans ((if_neg h3).trans (if_neg (by simp [h]))))

theorem followUp_paired {x : Nat × Nat} (h : s.clock.syncs.find? (fun x => x.1 == m.seqId && decide (max s.now t ≤ x.2 + 100000000)) = some x) :
    exec (.followUp t m) s = .next (modClock (fun c => { c with lastSync := some (m.origin, x.2), syncs := c.syncs.filter (fun y => y.1 != m.seqId) }) (setNow t s)) := by
  obtain ⟨h1, h2, h3⟩ := ptp_guards (t := t) ha hr hacc hfrom
  have h' : (setNow t s).clock.syncs.find? (fun x => x.1 == m.seqId && decide ((setNow t s).now ≤ x.2 + 100000000)) = some x := h
  refine (if_neg h1).trans ((if_neg h2).trans ((if_neg h3).trans ?_))
  rw [h']

theorem followUp_alone (h : s.clock.syncs.find? (fun x => x.1 == m.seqId && decide (max s.now t ≤ x.2 + 100000000)) = none) :
    exec (.followUp t m) s = .next (rejectedAt t s) := by
  obtain ⟨h1, h2, h3⟩ := ptp_guards (t := t) ha hr hacc hfrom
  have h' : (setNow t s).clock.syncs.find? (fun x => x.1 == m.seqId && decide ((setNow t s).now ≤ x.2 + 100000000)) = none := h
  refine (if_neg h1).trans ((if_neg h2).trans ((if_neg h3).trans ?_))
  rw [h']
  rfl

theorem delayResp_alone (h : s.clock.delayReqs.find? (fun x => x.1 == m.seqId && decide (max s.now t ≤ x.2 + 1000000000)) = none ∨ s.clock.lastSync = none) :
    exec (.delayResp t m) s = .next (rejectedAt t s) := by
  obtain ⟨h1, h2, h3⟩ := ptp_guards (t := t) ha hr hacc hfrom
  refine (if_neg h1).trans ((if_neg h2).trans ((if_neg h3).trans ?_))
  split
  · next hd hs =>
    rcases h with h | h
    · rw [show (setNow t s).clock.delayReqs.find? (fun x => x.1 == m.seqId && decide ((setNow t s).now ≤ x.2 + 1000000000)) = none from h] at hd
      cases hd
    · rw [show (setNow t s).clock.lastSync = none from h] at hs
      cases hs
  · rfl

theorem delayResp_paired {n t1 t2 t3 : Nat} (h : s.clock.delayReqs.find? (fun x => x.1 == m.seqId && decide (max s.now t ≤ x.2 + 1000000000)) = some (n, t3))
    (hs : s.clock.lastSync = some (t1, t2)) : exec (.delayResp t m) s =
    if (((t2 : Int) + s.clock.offset - t1) + ((m.origin : Int) - ((t3 : Int) + s.clock.offset))) / 2 < 0 ∨
        100000 < (((t2 : Int) + s.clock.offset - t1) + ((m.origin : Int) - ((t3 : Int) + s.clock.offset))) / 2 then
      .next (reject (measured m.seqId (setNow t s)))
    else if s.clock.state = .locked ∧ ptpBits s 48 8 * 100 < ((((t2 : Int) + s.clock.offset - t1) - ((m.origin : Int) - ((t3 : Int) + s.clock.offset))) / 2 - s.clock.servo).natAbs then
      .next (reject (modClock (fun c => { c with bad := s.clock.bad + 1, state := (if 8 ≤ s.clock.bad + 1 then .acquiring else c.state)
                                                 good := (if 8 ≤ s.clock.bad + 1 then 0 else c.good) }) (measured m.seqId (setNow t s))))
    else .next (servoStep ((((t2 : Int) + s.clock.offset - t1) - ((m.origin : Int) - ((t3 : Int) + s.clock.offset))) / 2)
      (modClock (fun c => { c with pathNs := ((((t2 : Int) + s.clock.offset - t1) + ((m.origin : Int) - ((t3 : Int) + s.clock.offset))) / 2).toNat }) (measured m.seqId (setNow t s)))) := by
  obtain ⟨h1, h2, h3⟩ := ptp_guards (t := t) ha hr hacc hfrom
  have h' : (setNow t s).clock.delayReqs.find? (fun x => x.1 == m.seqId && decide ((setNow t s).now ≤ x.2 + 1000000000)) = some (n, t3) := h
  have hs' : (setNow t s).clock.lastSync = some (t1, t2) := hs
  refine (if_neg h1).trans ((if_neg h2).trans ((if_neg h3).trans ?_))
  rw [h', hs']
  rfl

end

/-- Entries of sequence `n` that are in time are found, the first one first. -/
theorem find_pair {n : Nat} {l : List (Nat × Nat)} {at0 lim now : Nat} (h : now ≤ at0 + lim) :
    ((n, at0) :: l).find? (fun x => x.1 == n && decide (now ≤ x.2 + lim)) = some (n, at0) := by
  simp [h]

theorem find_late {n lim now : Nat} {l : List (Nat × Nat)} (h : ∀ x ∈ l, x.1 = n → x.2 + lim < now) :
    l.find? (fun x => x.1 == n && decide (now ≤ x.2 + lim)) = none := by
  rw [List.find?_eq_none]
  intro x hx hc
  simp only [Bool.and_eq_true, beq_iff_eq, decide_eq_true_eq] at hc
  have := h x hx hc.1
  omega

theorem filter_ne_cons (n k : Nat) (l : List (Nat × Nat)) : ((n, k) :: l).filter (fun x => x.1 != n) = l.filter (fun x => x.1 != n) := by simp

/-- Settles O53. -/
theorem networkTimeFollowsItsMaster : Obligations.NetworkTimeFollowsItsMaster := by
  intro t m s ha
  have hlive : ¬ (!alive (setNow t s)) = true := by simp [ha]
  dsimp only
  refine ⟨fun hr => ?_, fun hr hb => ?_, fun hr hb => ?_, fun hr hacc hm hs hst => ?_, fun hr hacc => ?_, fun hr hacc hfrom => ⟨fun h2 => sync_oneStep ha hr hacc hfrom h2,
    fun h2 => ?_, fun at0 l hl hd => ?_, fun h => followUp_alone ha hr hacc hfrom (find_late h), fun h => delayResp_alone ha hr hacc hfrom (Or.inl (find_late h)),
    fun h => delayResp_alone ha hr hacc hfrom (Or.inr h), fun t1 t2 t3 l hs hq hd => ?_⟩,
    fun x hr hs => ?_, fun hs => ?_, fun x hs hd => ?_, fun x hs hd hl => ?_, fun hst hd => ?_, fun h => ?_, fun hr hd => ?_, fun hd => ?_⟩
  · obtain ⟨h1, h2, h3, h4, h5⟩ := ptp_idle (t := t) (m := m) ha hr
    simp only [List.forall_mem_cons, List.not_mem_nil, false_implies, implies_true, and_true]
    exact ⟨h1, h2, h3, h4, h5⟩
  · obtain ⟨h1, h2, h3⟩ := ptp_reject (t := t) (m := m) ha hr (Or.inl hb)
    have hr' : ¬ (!clockRuns (setNow t s)) = true := by simp [hr]
    simp only [List.forall_mem_cons, List.not_mem_nil, false_implies, implies_true, and_true]
    exact ⟨h1, h2, h3, (if_neg hlive).trans ((if_neg hr').trans (if_pos (by simp [hb])))⟩
  · obtain ⟨h1, h2, h3⟩ := ptp_reject (t := t) (m := m) ha hr (Or.inr hb)
    simp only [List.forall_mem_cons, List.not_mem_nil, false_implies, implies_true, and_true]
    exact ⟨h1, h2, h3⟩
  · refine (ptpAnnounce_taken (t := t) ha hr hacc).trans (congrArg _ ?_)
    simp only [modClock, setNow_clock, hm, hs, List.filter_nil, Option.map_none]
    exact selectMaster_first (s := { setNow t s with clock := { s.clock with
      masters := [{ port := m.port, master := m.master, priority := m.priority, interval := m.interval, last := max s.now t }], selected := none } }) rfl rfl rfl hst
  · refine ⟨_, ptpAnnounce_taken (t := t) ha hr hacc, ?_⟩
    generalize hc : modClock _ (setNow t s) = x
    obtain ⟨h1, h2, h3⟩ := selectMaster_keeps x
    refine ⟨?_, ?_, ?_⟩
    · rw [h2, ← hc]
      exact List.mem_cons_self ..
    · rw [ClockOnly] at h1
      rw [h1, ← hc]
      rfl
    · rw [h3, ← hc]
      rfl
  · exact ⟨_, sync_twoStep ha hr hacc hfrom h2, List.mem_cons_self .., rfl⟩
  · refine (followUp_paired (t := t) ha hr hacc hfrom (by rw [hl]; exact find_pair hd)).trans ?_
    simp only [modClock, setNow_clock, hl, filter_ne_cons]
  · have hx := delayResp_paired (t := t) ha hr hacc hfrom (by rw [hq]; exact find_pair hd) hs
    have hunlocked (hst : s.clock.state = .acquiring) (x : Prop) : ¬ (s.clock.state = .locked ∧ x) := by rw [hst]; simp
    refine ⟨fun hp => ?_, fun h0 h1 hst hg hdev => ?_, fun h0 h1 hst hg hdev hf => ?_, fun h0 h1 hst hdev => ?_⟩
    · rw [hx, if_pos hp]
      simp only [reject, measured, modClock, setNow_clock, hq, filter_ne_cons]
    · obtain ⟨hk, hr⟩ := servoStep_good (s := modClock (fun c => { c with pathNs := ((((t2 : Int) + s.clock.offset - t1) + ((m.origin : Int) - ((t3 : Int) + s.clock.offset))) / 2).toNat })
        (measured m.seqId (setNow t s))) hst hdev hg
      obtain ⟨hr1, hr2, hr3, hr4, hr5, hr6⟩ := hr
      exact ⟨_, hx.trans ((if_neg (by omega)).trans (if_neg (hunlocked hst _))), hk, hr1, hr2, hr3, hr4, hr5, hr6⟩
    · exact ⟨_, hx.trans ((if_neg (by omega)).trans (if_neg (hunlocked hst _))), servoStep_lock (s := modClock (fun c => { c with pathNs := ((((t2 : Int) + s.clock.offset - t1) + ((m.origin : Int) - ((t3 : Int) + s.clock.offset))) / 2).toNat })
        (measured m.seqId (setNow t s))) hst hdev hg hf⟩
    · exact ⟨_, hx.trans ((if_neg (by omega)).trans (if_neg (hunlocked hst _))), servoStep_far (s := modClock (fun c => { c with pathNs := ((((t2 : Int) + s.clock.offset - t1) + ((m.origin : Int) - ((t3 : Int) + s.clock.offset))) / 2).toNat })
        (measured m.seqId (setNow t s))) hst hdev⟩
  · have hs' : (setNow t s).clock.selected = some x := hs
    have hr' : ¬ (!clockRuns (setNow t s)) = true := by simp [hr]
    have hx : exec (.delayReqSend t) s = .next (emit (.delayReq x.port (s.clock.delaySeq + 1)) (modClock (fun c => { c with
        delaySeq := s.clock.delaySeq + 1, delayReqs := (s.clock.delaySeq + 1, max s.now t) :: s.clock.delayReqs.filter (fun x => decide (max s.now t ≤ x.2 + 1000000000)) }) (setNow t s))) := by
      show execDelayReqSend t s = _
      unfold execDelayReqSend
      refine (if_neg hlive).trans ?_
      rw [hs']
      exact if_neg hr'
    exact ⟨_, hx, rfl, rfl, List.mem_cons_self .., rfl⟩
  · have hs' : (setNow t s).clock.selected = none := hs
    constructor
    · show execDelayReqSend t s = _
      unfold execDelayReqSend
      refine (if_neg hlive).trans ?_
      rw [hs']
    · show execMasterLoss t s = _
      unfold execMasterLoss
      refine (if_neg hlive).trans ?_
      rw [hs']
  · have hs' : (setNow t s).clock.selected = some x := hs
    show execMasterLoss t s = _
    unfold execMasterLoss
    refine (if_neg hlive).trans ?_
    rw [hs']
    exact if_neg (not_lt.mpr hd)
  · have hs' : (setNow t s).clock.selected = some x := hs
    have hheard : heard (max s.now t) s.clock.masters = [] := by
      rw [heard, List.filter_eq_nil_iff]
      intro y hy
      have := hl y hy
      simp only [decide_eq_true_eq]
      omega
    have hx : exec (.masterLoss t) s = .next (selectMaster { setNow t s with clock := { s.clock with masters := [] } }) := by
      show execMasterLoss t s = _
      unfold execMasterLoss
      refine (if_neg hlive).trans ?_
      rw [hs']
      refine (if_pos hd).trans ?_
      simp only [modClock, setNow_clock, setNow_now, hheard]
    obtain ⟨hk, hm, -⟩ := selectMaster_keeps { setNow t s with clock := { s.clock with masters := [] } }
    obtain ⟨hsel, hst⟩ := selectMaster_lost (s := { setNow t s with clock := { s.clock with masters := [] } }) rfl hs
    exact ⟨_, hx, hk, hsel, hm, hst⟩
  · exact ⟨_, (if_neg hlive).trans (if_pos ⟨hst, hd⟩), rfl, rfl, rfl, rfl, rfl⟩
  · refine (if_neg hlive).trans (if_neg (fun hc => ?_))
    rcases h with h | h
    · exact h hc.1
    · exact absurd hc.2 (not_le.mpr h)
  · refine if_pos ⟨Or.inl hr, ?_, hd⟩
    simp only [alive, Bool.and_eq_true, Option.isNone_iff_eq_none] at ha
    exact ha.2
  · exact if_neg (fun hc => absurd hc.2.2 (not_lt.mpr hd))

end Sys2Proof.Machine

namespace Sys2Proof.Machine

/-! ### Pages, blocks and dies -/

theorem getQuayMedia_modQuayMedia (q k : Nat) (g : QuayMedia → QuayMedia) (s : State) :
    getQuayMedia (modQuayMedia q g s) k = if q = k ∧ k < s.media.quays.length then g (getQuayMedia s k) else getQuayMedia s k := by
  simp only [getQuayMedia, modQuayMedia, List.getD_eq_getElem?_getD, List.getElem?_modify]
  by_cases hc : k < s.media.quays.length
  · rw [List.getElem?_eq_getElem hc]
    by_cases hb : q = k <;> simp [hb, hc]
  · rw [List.getElem?_eq_none (by omega)]
    simp [hc]

theorem getQuayMedia_modQuayMedia_same {q : Nat} (g : QuayMedia → QuayMedia) {s : State} (h : q < s.media.quays.length) :
    getQuayMedia (modQuayMedia q g s) q = g (getQuayMedia s q) := by
  rw [getQuayMedia_modQuayMedia, if_pos ⟨rfl, h⟩]

/-- A part of the media of quays that a change of one leaves alone. -/
theorem quayPart_modQuayMedia {α : Type} (part : QuayMedia → α) (q k : Nat) (g : QuayMedia → QuayMedia) (s : State) (hg : ∀ m, part (g m) = part m) :
    part (getQuayMedia (modQuayMedia q g s) k) = part (getQuayMedia s k) := by
  rw [getQuayMedia_modQuayMedia]
  split
  · exact hg _
  · rfl

/-- A state that differs from `s` in what media operations change: counters, media of quays, lost blocks, and the worn marks. -/
structure MediaOnly (s u : State) : Prop where
  eq : u = { s with lb := u.lb, eng := { s.eng with quays := u.eng.quays, mediaEvents := u.eng.mediaEvents }, indexes := u.indexes
                    media := { s.media with quays := u.media.quays, nss := u.media.nss, holds := u.media.holds, worn := u.media.worn } }
  length : u.media.quays.length = s.media.quays.length

theorem MediaOnly.trans {s u w : State} (h : MediaOnly s u) (h' : MediaOnly u w) : MediaOnly s w := by
  refine ⟨?_, h'.length.trans h.length⟩
  have e := h'.eq
  rw [h.eq] at e
  exact e

theorem MediaOnly.refl (s : State) : MediaOnly s s := ⟨rfl, rfl⟩

theorem modQuayMedia_mediaOnly (q : Nat) (g : QuayMedia → QuayMedia) (s : State) : MediaOnly s (modQuayMedia q g s) := ⟨rfl, by simp [modQuayMedia]⟩

theorem wornUpdate_mediaOnly (s : State) : MediaOnly s (wornUpdate s) := by
  unfold wornUpdate
  split
  · exact ⟨rfl, rfl⟩
  · split
    · exact ⟨rfl, rfl⟩
    · exact MediaOnly.refl s

/-- The state with the die's loss noted, before the worn threshold is looked at. -/
def dieMarked (q d : Nat) (s : State) : State :=
  let s1 := modQuayMedia q (fun m => { m with
    retiredDies := d :: m.retiredDies, sbs := m.sbs.map (fun x => if x.use = .erased then x else { x with deadDies := d :: x.deadDies }) }) s
  { s1 with lb := { s1.lb with diesRetired := satAdd 16 s1.lb.diesRetired 1 }, eng := { s1.eng with mediaEvents := s1.eng.mediaEvents ||| 2 } }

theorem retireDie_eq (q d : Nat) (s : State) : retireDie q d s = if (getQuayMedia s q).retiredDies.contains d then s else wornUpdate (dieMarked q d s) := rfl

/-- The state with the block's loss noted. -/
def blockMarked (q d p b : Nat) (s : State) : State :=
  let s1 := modQuayMedia q (fun m => { m with retired := (d, p, b) :: m.retired }) s
  { s1 with lb := { s1.lb with badGrown := satAdd 32 s1.lb.badGrown 1, quayBadGrown := s1.lb.quayBadGrown.modify q (fun n => satAdd 32 n 1) } }

theorem retireBlock_eq (q d p b : Nat) (s : State) : retireBlock q d p b s = if (getQuayMedia s q).retired.contains (d, p, b) then s else
    wornUpdate (if 819 < ((getQuayMedia (blockMarked q d p b s) q).retired.filter (fun x => x.1 == d)).length then retireDie q d (blockMarked q d p b s)
      else blockMarked q d p b s) := rfl

theorem dieMarked_mediaOnly (q d : Nat) (s : State) : MediaOnly s (dieMarked q d s) := ⟨rfl, by simp [dieMarked, modQuayMedia]⟩

theorem blockMarked_mediaOnly (q d p b : Nat) (s : State) : MediaOnly s (blockMarked q d p b s) := ⟨rfl, by simp [blockMarked, modQuayMedia]⟩

theorem retireDie_mediaOnly (q d : Nat) (s : State) : MediaOnly s (retireDie q d s) := by
  rw [retireDie_eq]
  split
  · exact MediaOnly.refl s
  · exact (dieMarked_mediaOnly q d s).trans (wornUpdate_mediaOnly _)

theorem retireBlock_mediaOnly (q d p b : Nat) (s : State) : MediaOnly s (retireBlock q d p b s) := by
  have h := blockMarked_mediaOnly q d p b s
  rw [retireBlock_eq]
  split
  · exact MediaOnly.refl s
  · split
    · exact (h.trans (retireDie_mediaOnly q d _)).trans (wornUpdate_mediaOnly _)
    · exact h.trans (wornUpdate_mediaOnly _)

/-- The namespaces of `u` are those of `s` but for their state. -/
def SameBlocks (s u : State) : Prop := ∀ n ∈ u.media.nss, ∃ m ∈ s.media.nss, m.nsid = n.nsid ∧ m.lost = n.lost ∧ m.data = n.data

theorem SameBlocks.trans {s u w : State} (h : SameBlocks s u) (h' : SameBlocks u w) : SameBlocks s w := by
  intro n hn
  obtain ⟨m, hm, h1, h2, h3⟩ := h' n hn
  obtain ⟨k, hk, h4, h5, h6⟩ := h m hm
  exact ⟨k, hk, h4.trans h1, h5.trans h2, h6.trans h3⟩

theorem SameBlocks.of_eq {s u : State} (h : u.media.nss = s.media.nss) : SameBlocks s u := fun n hn => ⟨n, by rwa [h] at hn, rfl, rfl, rfl⟩

theorem wornUpdate_quays (s : State) : (wornUpdate s).media.quays = s.media.quays := by
  unfold wornUpdate
  split
  · rfl
  · split <;> rfl

theorem sameBlocks_of_map {s u : State} (g : Namespace → Namespace) (hg : ∀ n, (g n).nsid = n.nsid ∧ (g n).lost = n.lost ∧ (g n).data = n.data)
    (h : u.media.nss = s.media.nss.map g) : SameBlocks s u := by
  intro n hn
  rw [h] at hn
  obtain ⟨m, hm, rfl⟩ := List.mem_map.mp hn
  exact ⟨m, hm, (hg m).1.symm, (hg m).2.1.symm, (hg m).2.2.symm⟩

theorem wornUpdate_blocks (s : State) : SameBlocks s (wornUpdate s) := by
  unfold wornUpdate
  split
  · exact sameBlocks_of_map (fun n => if n.state = .online then { n with state := .worn } else n) (fun n => by split <;> exact ⟨rfl, rfl, rfl⟩) rfl
  · split
    · exact sameBlocks_of_map (fun n => if n.state = .worn then { n with state := .online } else n) (fun n => by split <;> exact ⟨rfl, rfl, rfl⟩) rfl
    · exact SameBlocks.of_eq rfl

theorem retireDie_blocks (q d : Nat) (s : State) : SameBlocks s (retireDie q d s) := by
  have h : SameBlocks s (dieMarked q d s) := SameBlocks.of_eq rfl
  rw [retireDie_eq]
  split
  · exact SameBlocks.of_eq rfl
  · exact h.trans (wornUpdate_blocks _)

theorem retireBlock_blocks (q d p b : Nat) (s : State) : SameBlocks s (retireBlock q d p b s) := by
  have h : SameBlocks s (blockMarked q d p b s) := SameBlocks.of_eq rfl
  rw [retireBlock_eq]
  split
  · exact SameBlocks.of_eq rfl
  · split
    · exact (h.trans (retireDie_blocks q d _)).trans (wornUpdate_blocks _)
    · exact h.trans (wornUpdate_blocks _)

theorem retireDie_retired (q d k : Nat) (s : State) : (getQuayMedia (retireDie q d s) k).retired = (getQuayMedia s k).retired := by
  rw [retireDie_eq]
  split
  · rfl
  · rw [getQuayMedia, wornUpdate_quays]
    exact quayPart_modQuayMedia QuayMedia.retired q k _ s (fun _ => rfl)

theorem retireDie_timeouts (q d k : Nat) (s : State) : (getQuayMedia (retireDie q d s) k).dieTimeouts = (getQuayMedia s k).dieTimeouts := by
  rw [retireDie_eq]
  split
  · rfl
  · rw [getQuayMedia, wornUpdate_quays]
    exact quayPart_modQuayMedia QuayMedia.dieTimeouts q k _ s (fun _ => rfl)

theorem mem_retireDie {q d : Nat} {s : State} (h : q < s.media.quays.length) : d ∈ (getQuayMedia (retireDie q d s) q).retiredDies := by
  rw [retireDie_eq]
  split
  · next hc => exact List.contains_iff_mem.mp hc
  · have h1 := getQuayMedia_modQuayMedia_same (fun m => { m with
      retiredDies := d :: m.retiredDies, sbs := m.sbs.map (fun x => if x.use = .erased then x else { x with deadDies := d :: x.deadDies }) }) h
    have h2 := congrArg QuayMedia.retiredDies h1
    rw [getQuayMedia, wornUpdate_quays]
    refine Eq.subst (motive := fun l => d ∈ l) h2.symm (List.mem_cons_self ..)

theorem mem_retireBlock {q : Nat} (d p b : Nat) {s : State} (h : q < s.media.quays.length) : (d, p, b) ∈ (getQuayMedia (retireBlock q d p b s) q).retired := by
  rw [retireBlock_eq]
  split
  · next hc => exact List.contains_iff_mem.mp hc
  · have h1 : (getQuayMedia (blockMarked q d p b s) q).retired = (d, p, b) :: (getQuayMedia s q).retired :=
      congrArg QuayMedia.retired (getQuayMedia_modQuayMedia_same (fun m => { m with retired := (d, p, b) :: m.retired }) h)
    rw [getQuayMedia, wornUpdate_quays]
    have h2 : (d, p, b) ∈ (getQuayMedia (blockMarked q d p b s) q).retired := by
      rw [h1]
      exact List.mem_cons_self ..
    split
    · exact (retireDie_retired q d q (blockMarked q d p b s)).symm ▸ h2
    · exact h2

/-! ### The rows of pages and dies -/

/-- The counters of a read: its quay's log, the bits corrected and the soft reads. -/
def readLogged (t : Nat) (r : NandRead) (s0 : State) : State :=
  let s := logRead r.quay (decide (0 < r.retries)) (dieAnswered r.quay r.die (setNow t s0))
  let s1 := { s with lb := { s.lb with correctedBits := satAdd 64 s.lb.correctedBits r.corrected } }
  if r.soft then modQuay r.quay (fun q => { q with softReads := satAdd 16 q.softReads 1 }) s1 else s1

/-- The superblock of a read with its reads counted. -/
def readMarked (r : NandRead) (s2 : State) : State :=
  let sb := sbOf (getQuayMedia s2 r.quay) r.block
  let due := !r.failed.isEmpty || decide (4 < r.retries + (if r.soft then 3 else 0))
      || decide (mediaCtl s2 64 16 * 100000 ≤ sb.reads + 1)
  if sb.use = .erased then s2 else setSb r.quay { sb with reads := sb.reads + 1, refreshDue := sb.refreshDue || due } s2

/-- The rebuilt codewords counted. -/
def rebuilds (r : NandRead) (s3 : State) : State :=
  if r.failed.any (fun c => !r.lost.contains c) then { s3 with lb := { s3.lb with xorRebuilds := satAdd 32 s3.lb.xorRebuilds 1 } } else s3

def readCounted (t : Nat) (r : NandRead) (s : State) : State := rebuilds r (readMarked r (readLogged t r s))

theorem nandReadComplete_eq {t : Nat} {r : NandRead} {s : State} (ha : alive s = true) : exec (.nandReadComplete t r) s =
    .next (if r.failed.isEmpty then loseCodewords r (readCounted t r s) else retireBlock r.quay r.die r.plane r.block (loseCodewords r (readCounted t r s))) :=
  (if_neg (by simp [ha])).trans rfl

theorem dieAnswered_retired (q d k : Nat) (s : State) : (getQuayMedia (dieAnswered q d s) k).retired = (getQuayMedia s k).retired :=
  quayPart_modQuayMedia QuayMedia.retired q k _ s (fun _ => rfl)

theorem readLogged_keeps (t : Nat) (r : NandRead) (s : State) : MediaOnly (setNow t s) (readLogged t r s) ∧ (readLogged t r s).media.nss = s.media.nss ∧
    (readLogged t r s).media.holds = s.media.holds ∧ (∀ k, (getQuayMedia (readLogged t r s) k).retired = (getQuayMedia s k).retired) ∧
    (readLogged t r s).lb = { s.lb with correctedBits := satAdd 64 s.lb.correctedBits r.corrected } := by
  have hd := modQuayMedia_mediaOnly r.quay (fun m => { m with dieTimeouts := m.dieTimeouts.filter (fun x => x.1 != r.die) }) (setNow t s)
  have hr (k : Nat) := dieAnswered_retired r.quay r.die k (setNow t s)
  unfold readLogged
  dsimp only
  split
  · exact ⟨hd.trans ⟨rfl, rfl⟩, rfl, rfl, hr, rfl⟩
  · exact ⟨hd.trans ⟨rfl, rfl⟩, rfl, rfl, hr, rfl⟩

theorem readMarked_keeps (r : NandRead) (s : State) : MediaOnly s (readMarked r s) ∧ (readMarked r s).media.nss = s.media.nss ∧
    (readMarked r s).media.holds = s.media.holds ∧ (∀ k, (getQuayMedia (readMarked r s) k).retired = (getQuayMedia s k).retired) ∧ (readMarked r s).lb = s.lb := by
  unfold readMarked
  dsimp only
  split
  · exact ⟨MediaOnly.refl s, rfl, rfl, fun _ => rfl, rfl⟩
  · exact ⟨modQuayMedia_mediaOnly .., rfl, rfl, fun k => quayPart_modQuayMedia QuayMedia.retired r.quay k _ s (fun _ => rfl), rfl⟩

theorem rebuilds_keeps (r : NandRead) (s : State) : MediaOnly s (rebuilds r s) ∧ (rebuilds r s).media = s.media ∧ (r.failed = [] → (rebuilds r s).lb = s.lb) := by
  unfold rebuilds
  split
  · next h => exact ⟨⟨rfl, rfl⟩, rfl, fun hf => by rw [hf] at h; cases h⟩
  · exact ⟨MediaOnly.refl s, rfl, fun _ => rfl⟩

theorem readCounted_keeps (t : Nat) (r : NandRead) (s : State) : MediaOnly (setNow t s) (readCounted t r s) ∧ (readCounted t r s).media.nss = s.media.nss ∧
    (readCounted t r s).media.holds = s.media.holds ∧ (∀ k, (getQuayMedia (readCounted t r s) k).retired = (getQuayMedia s k).retired) ∧
    (r.failed = [] → (readCounted t r s).lb = { s.lb with correctedBits := satAdd 64 s.lb.correctedBits r.corrected }) := by
  obtain ⟨h1, hn1, hh1, hr1, hl1⟩ := readLogged_keeps t r s
  obtain ⟨h2, hn2, hh2, hr2, hl2⟩ := readMarked_keeps r (readLogged t r s)
  obtain ⟨h3, hm3, hl3⟩ := rebuilds_keeps r (readMarked r (readLogged t r s))
  refine ⟨(h1.trans h2).trans h3, ?_, ?_, fun k => ?_, fun hf => ?_⟩
  · rw [readCounted, hm3, hn2, hn1]
  · rw [readCounted, hm3, hh2, hh1]
  · rw [readCounted, getQuayMedia, hm3]
    exact (hr2 k).trans (hr1 k)
  · rw [readCounted, hl3 hf, hl2, hl1]

theorem loseCodewords_mediaOnly (r : NandRead) (s : State) : MediaOnly s (loseCodewords r s) ∧ (loseCodewords r s).media.quays = s.media.quays ∧
    (loseCodewords r s).lb = s.lb := by
  unfold loseCodewords
  dsimp only
  split <;> exact ⟨⟨rfl, rfl⟩, rfl, rfl⟩

theorem loseCodewords_none (r : NandRead) (s : State) (h : r.lost = []) : (loseCodewords r s).media.nss = s.media.nss ∧ (loseCodewords r s).media.holds = s.media.holds := by
  unfold loseCodewords
  dsimp only
  split
  · exact ⟨rfl, rfl⟩
  · refine ⟨rfl, ?_⟩
    simp [modHold, h]
  · refine ⟨?_, rfl⟩
    simp [modNs, h]

/-- A namespace whose codewords a read could not rebuild has lost them; any other is as it was. -/
theorem loseCodewords_ns {r : NandRead} {s : State} {id lba : Nat} (h : r.target = .ns id lba) : ∀ n ∈ (loseCodewords r s).media.nss,
    (n.nsid = id → ∀ c ∈ r.lost, lba + c ∈ n.lost.map (fun x => x.1)) ∧ (n.nsid ≠ id → n ∈ s.media.nss) := by
  intro n hn
  have e : (loseCodewords r s).media.nss = s.media.nss.map (fun n => if n.nsid == id then
      { n with lost := n.lost ++ r.lost.map (fun c => (lba + c, physical r.quay r.die r.plane r.block r.page r.pslc)) } else n) := by
    unfold loseCodewords
    simp only [h]
    rfl
  rw [e] at hn
  obtain ⟨m, hm, rfl⟩ := List.mem_map.mp hn
  by_cases hid : m.nsid = id
  · rw [if_pos (by simpa using hid)]
    refine ⟨fun _ c hc => ?_, fun h => absurd hid h⟩
    simp only [List.map_append, List.map_map, List.mem_append, List.mem_map, Function.comp]
    exact Or.inr ⟨c, hc, rfl⟩
  · rw [if_neg (by simpa using hid)]
    exact ⟨fun h => absurd h hid, fun _ => hm⟩

/-- The buffer and the checkpoint volume after a program. -/
def takenInto (p : NandProgram) (r : List BufEntry × State) : State :=
  { r.2 with eng := { r.2.eng with wbuf := r.1 }, media := { r.2.media with volume := r.2.media.volume + (if p.pslc then 98304 else 294912) } }

theorem takenInto_frame {p : NandProgram} {r : List BufEntry × State} {c : State} (h : r.2 = { c with media := { c.media with nss := r.2.media.nss } }) :
    takenInto p r = { c with eng := { c.eng with wbuf := (takenInto p r).eng.wbuf },
                             media := { c.media with quays := (takenInto p r).media.quays, nss := (takenInto p r).media.nss, volume := (takenInto p r).media.volume } } := by
  obtain ⟨l, w⟩ := r
  generalize w.media.nss = x at h
  subst h
  rfl

/-- The state of a program that succeeded, before held writes look at the room. -/
def programDone (t : Nat) (p : NandProgram) (s : State) : State :=
  let s1 := countProgram p (dieAnswered p.quay p.die (setNow t s))
  takenInto p (programOldest p.quay p.entries s1.eng.wbuf s1)

/-- A superblock after its erase. -/
def erasedNext (x : Superblock) : Superblock :=
  { x with use := .erased, gen := x.gen + 1, erases := x.erases + 1, wear := x.wear + (if x.pslc then 1 else 10),
           reads := 0, progs := 0, used := 0, deadDies := [], hadDeleted := false, refreshDue := false }

def eraseDone (t q n : Nat) (s : State) : State :=
  modQuayMedia q (fun m => { m with braceFree := min 4 (m.braceFree + 1) }) (setSb q (erasedNext (sbOf (getQuayMedia s q) n)) (setNow t s))

theorem read_lost {t : Nat} {r : NandRead} {s u : State} (hu : exec (.nandReadComplete t r) s = .next u) (ha : alive s = true) :
    MediaOnly (setNow t s) u ∧ SameBlocks (loseCodewords r (readCounted t r s)) u := by
  obtain ⟨hc, -⟩ := readCounted_keeps t r s
  obtain ⟨hl, -⟩ := loseCodewords_mediaOnly r (readCounted t r s)
  rw [nandReadComplete_eq ha] at hu
  obtain rfl := Host.Outcome.next.inj hu
  split
  · exact ⟨hc.trans hl, SameBlocks.of_eq rfl⟩
  · exact ⟨(hc.trans hl).trans (retireBlock_mediaOnly ..), retireBlock_blocks _ _ _ _ _⟩

/-- A clean read counts the bits it corrected and loses nothing. -/
theorem read_clean {t : Nat} {r : NandRead} {s : State} (ha : alive s = true) (hf : r.failed = []) (hl : r.lost = []) :
    ∃ u, exec (.nandReadComplete t r) s = .next u ∧ u.lb = { s.lb with correctedBits := satAdd 64 s.lb.correctedBits r.corrected } ∧ u.media.nss = s.media.nss ∧
      u.media.holds = s.media.holds ∧ (getQuayMedia u r.quay).retired = (getQuayMedia s r.quay).retired := by
  obtain ⟨-, hn, hh, hr, hb⟩ := readCounted_keeps t r s
  obtain ⟨-, hq, hlb⟩ := loseCodewords_mediaOnly r (readCounted t r s)
  obtain ⟨hn', hh'⟩ := loseCodewords_none r (readCounted t r s) hl
  refine ⟨_, (nandReadComplete_eq ha).trans (congrArg _ (if_pos (by simp [hf]))), hlb.trans (hb hf), hn'.trans hn, hh'.trans hh, ?_⟩
  rw [getQuayMedia, hq]
  exact hr r.quay

/-- A codeword that could not be read retires its block. -/
theorem read_failed {t : Nat} {r : NandRead} {s : State} (ha : alive s = true) (hf : r.failed ≠ []) (hq : r.quay < s.media.quays.length) :
    ∃ u, exec (.nandReadComplete t r) s = .next u ∧ (r.die, r.plane, r.block) ∈ (getQuayMedia u r.quay).retired := by
  obtain ⟨hc, -⟩ := readCounted_keeps t r s
  obtain ⟨hl, -⟩ := loseCodewords_mediaOnly r (readCounted t r s)
  refine ⟨_, (nandReadComplete_eq ha).trans (congrArg _ (if_neg (by simpa using hf))), mem_retireBlock _ _ _ ?_⟩
  rw [(hc.trans hl).length]
  exact hq

/-- Which entries a program takes does not depend on the state. -/
theorem programOldest_entries (q k : Nat) (es : List BufEntry) (s s' : State) : (programOldest q k es s).1 = (programOldest q k es s').1 := by
  induction es generalizing k s s' with
  | nil => rfl
  | cons e es ih =>
    cases k with
    | zero => rfl
    | succ k =>
      simp only [programOldest]
      split
      · exact ih ..
      · exact congrArg (e :: ·) (ih ..)

theorem programOldest_zero (q : Nat) (es : List BufEntry) (s : State) : programOldest q 0 es s = (es, s) := by cases es <;> rfl

theorem programOldest_one {q : Nat} {e : BufEntry} (es : List BufEntry) (s : State) (h : nsQuay e.nsid e.lba = q) :
    programOldest q 1 (e :: es) s = (es, programEntry e s) := by
  rw [programOldest, if_pos h, programOldest_zero]

theorem programOldest_frame (q k : Nat) (es : List BufEntry) (s : State) :
    (programOldest q k es s).2 = { s with media := { s.media with nss := (programOldest q k es s).2.media.nss } } := by
  induction es generalizing k s with
  | nil => rfl
  | cons e es ih =>
    cases k with
    | zero => rfl
    | succ k =>
      rw [programOldest]
      split
      · rw [ih]
        rfl
      · exact ih ..

/-- A program that succeeds moves the oldest buffered entries of its quay to media. -/
theorem program_moves {t : Nat} {p : NandProgram} {s : State} (ha : alive s = true) (hok : p.ok = true) (hc : s.cmds.active = []) :
    ∃ u, exec (.nandProgramComplete t p) s = .next u ∧
      u.media.volume = s.media.volume + (if p.pslc then 98304 else 294912) ∧ u.eng.wbuf = (programOldest p.quay p.entries s.eng.wbuf s).1 ∧
      (∀ e l, s.eng.wbuf = e :: l → nsQuay e.nsid e.lba = p.quay → p.entries = 1 → u.eng.wbuf = l ∧ u.media.nss = (programEntry e s).media.nss) ∧
      (p.entries = 0 → u.eng.wbuf = s.eng.wbuf ∧ u.media.nss = s.media.nss) ∧
      u = { setNow t s with eng := { s.eng with wbuf := u.eng.wbuf }, media := { s.media with quays := u.media.quays, nss := u.media.nss, volume := u.media.volume } } := by
  have hx : exec (.nandProgramComplete t p) s = .next (applyWaiting (programDone t p s)) := (if_neg (by simp [ha])).trans (if_pos hok)
  have hf := programOldest_frame p.quay p.entries s.eng.wbuf (countProgram p (dieAnswered p.quay p.die (setNow t s)))
  have hw : applyWaiting (programDone t p s) = programDone t p s := by
    have ho : (programDone t p s).cmds = s.cmds := (congrArg State.cmds hf :)
    rw [applyWaiting, ho, hc]
    rfl
  rw [hw] at hx
  refine ⟨_, hx, ?_, programOldest_entries .., fun e l he hq h1 => ?_, fun h0 => ?_, ?_⟩
  · exact (congrArg (fun x : State => x.media.volume + (if p.pslc then 98304 else 294912)) hf :)
  · have h2 := programOldest_one l (countProgram p (dieAnswered p.quay p.die (setNow t s))) hq
    rw [← he, ← h1] at h2
    exact ⟨congrArg Prod.fst h2, congrArg (fun x => x.2.media.nss) h2⟩
  · have h2 := programOldest_zero p.quay s.eng.wbuf (countProgram p (dieAnswered p.quay p.die (setNow t s)))
    rw [← h0] at h2
    exact ⟨congrArg Prod.fst h2, congrArg (fun x => x.2.media.nss) h2⟩
  · exact (takenInto_frame hf :)

/-- A program that fails retires its block. -/
theorem program_fails {t : Nat} {p : NandProgram} {s : State} (ha : alive s = true) (hok : p.ok = false) :
    ∃ u, exec (.nandProgramComplete t p) s = .next u ∧ MediaOnly (setNow t s) u ∧
      (p.quay < s.media.quays.length → (p.die, p.plane, p.block) ∈ (getQuayMedia u p.quay).retired) := by
  have hd : MediaOnly (setNow t s) (dieAnswered p.quay p.die (setNow t s)) := modQuayMedia_mediaOnly ..
  refine ⟨_, (if_neg (by simp [ha])).trans (if_neg (by simp [hok])), hd.trans (retireBlock_mediaOnly ..), fun hq => mem_retireBlock _ _ _ ?_⟩
  rw [hd.length]
  exact hq

theorem sbOf_no (m : QuayMedia) (n : Nat) : (sbOf m n).no = n := by
  unfold sbOf
  cases h : m.sbs.find? (fun x => x.no == n) with
  | none => rfl
  | some x => simpa using List.find?_some h

theorem sbOf_congr {m m' : QuayMedia} (h : m.sbs = m'.sbs) (n : Nat) : sbOf m n = sbOf m' n := by rw [sbOf, sbOf, h]

theorem sbOf_setSb_same {q : Nat} (sb : Superblock) {s : State} (hq : q < s.media.quays.length) : sbOf (getQuayMedia (setSb q sb s) q) sb.no = sb := by
  rw [setSb, getQuayMedia_modQuayMedia_same _ hq, sbOf]
  simp

theorem sbOf_setSb_ne {q : Nat} {sb : Superblock} {s : State} {k : Nat} (hk : k ≠ sb.no) :
    sbOf (getQuayMedia (setSb q sb s) q) k = sbOf (getQuayMedia s q) k := by
  rw [setSb, getQuayMedia_modQuayMedia]
  split
  · have he : ((getQuayMedia s q).sbs.filter (fun x => x.no != sb.no)).find? (fun x => x.no == k) = (getQuayMedia s q).sbs.find? (fun x => x.no == k) := by
      rw [List.find?_filter]
      congr 1
      funext x
      by_cases hx : x.no = k
      · simp [hx, hk]
      · simp [hx]
    simp [sbOf, he, hk.symm]
  · rfl

/-- An erase of a superblock of the last checkpoint gives it its next generation. -/
theorem erase_done {t q n : Nat} {s : State} (ha : alive s = true) (hq : q < s.media.quays.length) (hu : (sbOf (getQuayMedia s q) n).use = .inCheckpoint)
    (hd : s.dev.state ≠ .braced) : ∃ u, exec (.nandEraseComplete t q n []) s = .next u ∧ (sbOf (getQuayMedia u q) n).use = .erased ∧
      (sbOf (getQuayMedia u q) n).gen = (sbOf (getQuayMedia s q) n).gen + 1 ∧ (sbOf (getQuayMedia u q) n).erases = (sbOf (getQuayMedia s q) n).erases + 1 ∧
      (∀ k, k ≠ n → sbOf (getQuayMedia u q) k = sbOf (getQuayMedia s q) k) ∧ u = { setNow t s with media := { s.media with quays := u.media.quays } } := by
  have hn := sbOf_no (getQuayMedia s q) n
  have hs := sbOf_setSb_same (erasedNext (sbOf (getQuayMedia s q) n)) (s := setNow t s) hq
  have hb (k : Nat) : sbOf (getQuayMedia (eraseDone t q n s) q) k = sbOf (getQuayMedia (setSb q (erasedNext (sbOf (getQuayMedia s q) n)) (setNow t s)) q) k :=
    sbOf_congr (quayPart_modQuayMedia QuayMedia.sbs q q (fun m => { m with braceFree := min 4 (m.braceFree + 1) }) _ (fun _ => rfl)) k
  have hs' : sbOf (getQuayMedia (eraseDone t q n s) q) n = erasedNext (sbOf (getQuayMedia s q) n) := by
    rw [hb]
    exact (congrArg (sbOf _) hn.symm).trans hs
  refine ⟨eraseDone t q n s, (if_neg (by simp [alive_setNow, ha])).trans (if_pos ⟨hu, hd⟩), ?_, ?_, ?_, fun k hk => (hb k).trans (sbOf_setSb_ne ?_), rfl⟩
  · rw [hs']; rfl
  · rw [hs']; rfl
  · rw [hs']; rfl
  · exact fun e => hk (e.trans hn)

/-- The third command in a row that a die leaves unanswered retires it. -/
theorem dieTimeout_retires {t q d : Nat} {s : State} (ha : alive s = true)
    (h : 2 ≤ (((getQuayMedia s q).dieTimeouts.find? (fun x => x.1 == d)).map (fun x => x.2)).getD 0) :
    ∃ u, exec (.dieCommandTimeout t q d) s = .next u ∧ MediaOnly (setNow t s) u ∧
      (q < s.media.quays.length → d ∈ (getQuayMedia u q).retiredDies ∧ (getQuayMedia u q).dieTimeouts.find? (fun x => x.1 == d) = none) := by
  refine ⟨_, (if_neg (by simp [alive_setNow, ha])).trans (congrArg _ (if_pos (by exact Nat.succ_le_succ h))), ?_, fun hq => ⟨mem_retireDie ?_, ?_⟩⟩
  · exact ((modQuayMedia_mediaOnly ..).trans (modQuayMedia_mediaOnly ..)).trans (retireDie_mediaOnly ..)
  · simpa [dieAnswered, modQuayMedia] using hq
  · rw [retireDie_timeouts, dieAnswered, getQuayMedia_modQuayMedia_same _ ((modQuayMedia_mediaOnly q _ (setNow t s)).length.symm ▸ hq)]
    simp

/-- Settles O55: each row by its own lemma; only the two kinds of retirement reach beyond the quay, to the worn marks. -/
theorem pagesAndBlocksFollowTheirOperations : Obligations.PagesAndBlocksFollowTheirOperations := by
  intro t s ha
  refine ⟨fun r => ?_, fun p hok hc => program_moves ha hok hc, fun p hok => ?_, fun q n hq hu hd => erase_done ha hq hu hd, fun q n l h => ?_, fun q d => ⟨fun h => ?_, fun h => ?_⟩⟩
  · obtain ⟨u, hu⟩ : ∃ u, exec (.nandReadComplete t r) s = .next u := ⟨_, nandReadComplete_eq ha⟩
    obtain ⟨hm, hb⟩ := read_lost hu ha
    have hns := (readCounted_keeps t r s).2.1
    refine ⟨u, hu, hm.eq, fun hf hl => ?_, fun hf hq => ?_, fun c hc id lba ht n hn hid => ?_, fun id lba ht n hn hid => ?_⟩
    · obtain ⟨w, hw, hr⟩ := read_clean ha hf hl
      obtain rfl := Host.Outcome.next.inj (hu.symm.trans hw)
      exact hr
    · obtain ⟨w, hw, hr⟩ := read_failed ha hf hq
      obtain rfl := Host.Outcome.next.inj (hu.symm.trans hw)
      exact hr
    · obtain ⟨m, hm, h1, h2, -⟩ := hb n hn
      rw [← h2]
      exact (loseCodewords_ns ht m hm).1 (h1.trans hid) c hc
    · obtain ⟨m, hm, h1, h2, h3⟩ := hb n hn
      exact ⟨m, hns ▸ (loseCodewords_ns ht m hm).2 (fun e => hid (h1.symm.trans e)), h1, h2, h3⟩
  · obtain ⟨u, hu, hm, hr⟩ := program_fails (t := t) ha hok
    exact ⟨u, hu, hm.eq, hr⟩
  · refine (if_neg (by simp [alive_setNow, ha])).trans (if_neg fun hc => ?_)
    exact h.elim (fun hn => hn hc.1) hc.2
  · exact (if_neg (by simp [alive_setNow, ha])).trans (congrArg _ (if_neg (Nat.not_le.mpr (Nat.succ_lt_succ h))))
  · obtain ⟨u, hu, hm, hr⟩ := dieTimeout_retires (t := t) ha h
    exact ⟨u, hu, hm.eq, hr⟩

end Sys2Proof.Machine

namespace Sys2Proof.Machine

/-! ### Writes that enter the buffer -/

/-- Media and write buffer are the same. -/
def BufKept (s u : State) : Prop := u.media = s.media ∧ u.eng.wbuf = s.eng.wbuf

theorem BufKept.trans {s u w : State} (h : BufKept s u) (h' : BufKept u w) : BufKept s w := ⟨h'.1.trans h.1, h'.2.trans h.2⟩

theorem countUe_bufKept (st : Nat) (s : State) : BufKept s (countUe st s) := by
  unfold countUe
  split <;> exact ⟨rfl, rfl⟩

/-- What a command that is not result-producing does at its end: its units are freed, it is answered, and a drain may go on. -/
theorem complete_bufKept {a : Active} (hr : a.result = false) (ho : a.origin = none) (o : WorkOut) (s : State) : BufKept s (complete a o s) := by
  have h : BufKept s (countUe o.status (freed a s)) := by
    refine BufKept.trans ?_ (countUe_bufKept _ _)
    rw [freed_frame]
    exact ⟨rfl, rfl⟩
  refine h.trans ?_
  unfold complete
  simp only [ho, hr]
  rw [drainIdle_frame]
  simp only [Bool.false_eq_true, if_false]
  rw [answer_frame]
  exact ⟨rfl, rfl⟩

/-- A work that changes nothing ends with media and buffer as they were, however it ends, where no word of SRAM stops it. -/
theorem endWork_bufKept {sp : CmdSpec} {a : Active} {s : State} (hr : a.result = false) (ho : a.origin = none) (hp : poisonedRef (sp.uses s a.frame) s a = none)
    (hw : (sp.work s a).1 = s) (hf : ∀ s a e, sp.fail s a e = s) (hafter : ∀ s a, sp.after s a = s) : BufKept s (endWork sp none a s) := by
  unfold endWork
  simp only [hafter, hp, hf]
  split
  · exact complete_bufKept hr ho _ s
  · next h => cases h
  · rw [hw]
    exact complete_bufKept hr ho _ s

/-- References to host data or to a payload name no SRAM. -/
theorem poisonedRef_of_kind {u : Uses} (hs : ∀ r ∈ u.sources, r.kind ≠ 2) (hr : ∀ r ∈ u.refs, r.kind ≠ 2) (s : State) (a : Active) : poisonedRef u s a = none := by
  have hnone (g : Region → DRef → Option SramWord) (l : List DRef) (hl : ∀ r ∈ l, r.kind ≠ 2) :
      l.findSome? (fun r => if r.kind = 2 then (regionOf s a.frame.berth r.rkey).bind (fun x => g x r) else none) = none :=
    List.findSome?_eq_none_iff.mpr fun r h => if_neg (hl r h)
  unfold poisonedRef
  dsimp only
  split
  · rfl
  · refine firstSome_eq_none.mpr fun x hx => ?_
    simp only [List.mem_cons, List.not_mem_nil, or_false] at hx
    rcases hx with rfl | rfl
    · exact hnone _ _ hs
    · exact hnone _ _ fun r h => hr r (List.mem_of_mem_filter h)

/-- `s` with `b` as the newest accepted command behind those of `l`. -/
def withNew (l : List Active) (b : Active) (s : State) : State := { s with cmds := { s.cmds with active := l ++ [b] } }

theorem modActive_withNew {l : List Active} {b : Active} {n : Nat} (h : ∀ x ∈ l, x.id < n) (hb : b.id = n) (g : Active → Active) (s : State) :
    modActive n g (withNew l b s) = withNew l (g b) s := by
  rw [modActive, withNew, map_append_new g h hb]
  rfl

theorem getActive_withNew {l : List Active} {b : Active} {n : Nat} (h : ∀ x ∈ l, x.id < n) (hb : b.id = n) (s : State) : getActive (withNew l b s) n = some b :=
  find_append_new h hb

section
variable {sp : CmdSpec} {t : Nat} {f : Frame} {s : State}

theorem running_eq_withNew (sp : CmdSpec) (t : Nat) (f : Frame) (s : State) : running sp t f s = withNew s.cmds.active (startedCmd sp t f s) (taken sp t f s) := by
  rw [running, atAdmission_cmds]
  rfl

theorem startedCmd_id (sp : CmdSpec) (t : Nat) (f : Frame) (s : State) : (startedCmd sp t f s).id = s.cmds.nextId := by simp [startedCmd, newActive]

theorem beginWork_nofetch {a b : Active} {l : List Active} {s w : State} (hfetch : (sp.uses s a.frame).fetch = []) (hids : ∀ x ∈ l, x.id < a.id)
    (hact : s.cmds.active = l ++ [a]) (hb : b.id = a.id) (hstart : sp.start (withNew l { a with phase := 3 } s) { a with phase := 3 } = withNew l b w) :
    beginWork sp a s = if sp.slow (withNew l { b with awaiting := [] } w) { b with awaiting := [] } then withNew l { b with awaiting := [] } w
      else endWork sp none { b with awaiting := [] } (withNew l { b with awaiting := [] } w) := by
  have hs : s = withNew l a s := by rw [withNew, ← hact]
  have hmod : modActive a.id (fun x => { x with phase := 3 }) s = withNew l { a with phase := 3 } s :=
    (congrArg (modActive a.id _) hs).trans (modActive_withNew hids rfl _ s)
  have hmod' : modActive a.id (fun x => { x with awaiting := [] }) (withNew l b w) = withNew l { b with awaiting := [] } w := modActive_withNew hids hb _ w
  have hget : getActive (withNew l { b with awaiting := [] } w) a.id = some { b with awaiting := [] } :=
    getActive_withNew (b := { b with awaiting := [] }) hids hb w
  simp only [beginWork, hfetch, fetchAll, List.map_nil, hmod, hstart, hmod', hget, List.isEmpty_nil, Bool.true_and]
  cases sp.slow (withNew l { b with awaiting := [] } w) { b with awaiting := [] } <;> rfl

/-- A command that fetches nothing, with what it does at its start. -/
theorem accept_starts (h : Starts sp t f s) (hT : TakesLightly sp t f s) (hfetch : (sp.uses (taken sp t f s) f).fetch = []) {w : State} {b : Active}
    (hb : b.id = s.cmds.nextId) (hstart : sp.start (running sp t f s) (startedCmd sp t f s) = withNew s.cmds.active b w) :
    accept sp f (sequenced t f s) (atAdmission t f s) =
      if sp.slow (withNew s.cmds.active { b with awaiting := [] } w) { b with awaiting := [] } then withNew s.cmds.active { b with awaiting := [] } w
      else endWork sp none { b with awaiting := [] } (withNew s.cmds.active { b with awaiting := [] } w) := by
  have hid := startedCmd_id sp t f s
  rw [running_eq_withNew] at hstart
  rw [accept_begins h hT]
  exact beginWork_nofetch hfetch (by rw [show (newActive sp f (sequenced t f s) (atAdmission t f s)).id = _ from hid]; exact ids_below h.1) hT.active (hb.trans hid.symm) hstart

end

section
variable {sp : CmdSpec} {t : Nat} {f : Frame} {s : State}

/-- A write that starts with room enters the buffer in that step. -/
theorem enters_buffer (hop : specOf sp.opcode = some sp) (hs : Starts sp t f s) (hres : sp.result = false) (htake : ∀ s a, sp.take s a = s)
    (hfetch : (sp.uses (taken sp t f s) f).fetch = []) (hp : ∀ w a, a.frame = f → poisonedRef (sp.uses w f) w a = none)
    (hw : ∀ s a, (sp.work s a).1 = s) (hf : ∀ s a e, sp.fail s a e = s) (hafter : ∀ s a, sp.after s a = s) {es : List BufEntry}
    (hstart : sp.start (running sp t f s) (startedCmd sp t f s) = modActive s.cmds.nextId (fun a => { a with applied := true }) (bufPush es (running sp t f s))) :
    (runCommand sp.opcode t f s).media = s.media ∧ (runCommand sp.opcode t f s).eng.wbuf = (bufPush es (running sp t f s)).eng.wbuf := by
  have hadm : Admitted f (startedCmd sp t f s) s (running sp t f s) :=
    running_admitted (sp := { sp with start := fun s _ => s, slow := fun _ _ => false, uses := fun s f => { sp.uses s f with fetch := [] } })
      ⟨hres, htake, fun _ _ => rfl, fun _ _ => rfl, fun _ _ => rfl⟩
  have hmedia : (running sp t f s).media = s.media := by
    have e := congrArg State.media hadm.eq
    exact e
  set b : Active := { startedCmd sp t f s with applied := true }
  have hst : sp.start (running sp t f s) (startedCmd sp t f s) = withNew s.cmds.active b (bufPush es (taken sp t f s)) := by
    rw [hstart, running_eq_withNew]
    exact modActive_withNew (ids_below hs.1) (startedCmd_id sp t f s) (fun a => { a with applied := true }) (bufPush es (taken sp t f s))
  have hacc := accept_starts (b := b) hs (takesLightly_of_take_id htake t f s) hfetch (startedCmd_id sp t f s) hst
  have key : BufKept (bufPush es (running sp t f s)) (accept sp f (sequenced t f s) (atAdmission t f s)) := by
    rw [hacc]
    split
    · exact ⟨rfl, rfl⟩
    · have he := endWork_bufKept (sp := sp) (a := { b with awaiting := [] }) (s := withNew s.cmds.active { b with awaiting := [] } (bufPush es (taken sp t f s)))
        hres rfl (hp _ _ rfl) (hw _ _) hf hafter
      exact he
  rw [runCommand_accept hop hs.1, settled_frame]
  exact ⟨key.1.trans hmedia, key.2⟩

end

theorem applyWrite_eq {s : State} {a : Active} {es : List BufEntry} (ha : a.applied = false)
    (hroom : bufRoom s (par a.frame 0 4) (par a.frame 8 8) (if a.opcode = 0x0204 then par a.frame 16 4 else 0) = true)
    (hes : (if a.opcode = 0x0204 then dataEntries (par a.frame 0 4) a.id (par a.frame 16 4) (par a.frame 8 8) (refData s a 0 (parRef a.frame 24))
      else discardEntries (par a.frame 0 4) a.id (par a.frame 8 8) (par a.frame 16 4)) = es) :
    tryApply s a = modActive a.id (fun a => { a with applied := true }) (bufPush es s) := by
  subst hes
  simp only [tryApply, ha, hroom]
  rfl

/-- Settles O14. -/
theorem writesEnterTheProtectedBuffer : Obligations.WritesEnterTheProtectedBuffer := by
  intro t f s
  refine ⟨fun h _ hk hroom => ?_, fun h hroom => ?_⟩
  · have hfetch : (nsUses f true true).fetch = [] := by simp [nsUses, hk]
    refine ⟨_, rfl, enters_buffer (sp := cmdNsWrite) rfl h rfl (fun _ _ => rfl) hfetch (fun w a ha => poisonedRef_of_kind ?_ ?_ w a) (fun _ _ => rfl) (fun _ _ _ => rfl)
      (fun _ _ => rfl) ?_⟩
    · simp [cmdNsWrite, nsUses, hk]
    · simp [cmdNsWrite, nsUses, hk]
    · have hk' : (parRef (startedCmd cmdNsWrite t f s).frame 24).kind = 1 := hk
      rw [← startedCmd_id cmdNsWrite t f s]
      refine (if_neg (by rw [hk']; decide)).trans (applyWrite_eq rfl hroom ?_)
      exact (if_pos rfl).trans (congrArg (dataEntries _ _ _ _) (if_pos hk'))
  · have hk : (parRef f 24).kind = 0 := by
      have hc := firstSome_eq_none.mp h.check (parRefCheck (atAdmission t f s) f 24 [0]) (by simp)
      have hk := firstSome_eq_none.mp hc _ (List.mem_cons_self ..)
      simpa using need_eq_none.mp hk
    refine ⟨_, rfl, enters_buffer (sp := cmdNsDiscard) rfl h rfl (fun _ _ => rfl) rfl (fun w a ha => poisonedRef_of_kind ?_ ?_ w a) (fun _ _ => rfl) (fun _ _ _ => rfl)
      (fun _ _ => rfl) ?_⟩
    · simp [cmdNsDiscard, nsUses]
    · simp [cmdNsDiscard, nsUses, hk]
    · rw [← startedCmd_id cmdNsDiscard t f s]
      have hop : ¬ (startedCmd cmdNsDiscard t f s).opcode = 0x0204 := by simp [startedCmd, newActive, cmdNsDiscard]
      rw [show cmdNsDiscard.start = tryApply from rfl]
      refine applyWrite_eq rfl ?_ ?_
      · rw [if_neg hop]
        exact hroom
      · rw [if_neg hop]
        rfl
end Sys2Proof.Machine

namespace Sys2Proof.Machine

/-! ### What a start leaves of the accepted commands -/

/-- From `s` to `u` something may have gone out, and every accepted command and every slot stays; of a command its progress may have changed. -/
structure Begun (s u : State) : Prop where
  slots  : u.cmds.slots = s.cmds.slots
  nextId : u.cmds.nextId = s.cmds.nextId
  out    : ∃ l, u.out = l ++ s.out
  active : ∀ a ∈ s.cmds.active, ∃ b ∈ u.cmds.active, b.id = a.id ∧ b.opcode = a.opcode ∧ b.frame = a.frame ∧ b.result = a.result

namespace Begun

variable {s u w : State}

theorem trans (h : Begun s u) (h' : Begun u w) : Begun s w := by
  obtain ⟨l, hl⟩ := h.out
  obtain ⟨l', hl'⟩ := h'.out
  refine ⟨h'.slots.trans h.slots, h'.nextId.trans h.nextId, ⟨l' ++ l, by rw [hl', hl, List.append_assoc]⟩, fun a ha => ?_⟩
  obtain ⟨b, hb, h1, h2, h3, h4⟩ := h.active a ha
  obtain ⟨c, hc, h5, h6, h7, h8⟩ := h'.active b hb
  exact ⟨c, hc, h5.trans h1, h6.trans h2, h7.trans h3, h8.trans h4⟩

/-- Where the accepted commands are the same and something goes out. -/
theorem of_out (hc : u.cmds = s.cmds) (ho : ∃ l, u.out = l ++ s.out) : Begun s u :=
  ⟨by rw [hc], by rw [hc], ho, fun a ha => ⟨a, by rwa [hc], rfl, rfl, rfl, rfl⟩⟩

theorem of_eq (hc : u.cmds = s.cmds) (ho : u.out = s.out) : Begun s u := of_out hc ⟨[], ho⟩

theorem refl (s : State) : Begun s s := of_eq rfl rfl

/-- Something happens only where a condition holds. -/
theorem ite {c : Prop} [Decidable c] (h : Begun s u) (h' : Begun s w) : Begun s (if c then u else w) := by
  split
  · exact h
  · exact h'

section
variable (h : Begun s u)
include h

theorem foldl {α : Type} {g : State → α → State} (hg : ∀ u a, Begun s u → Begun s (g u a)) (l : List α) : Begun s (l.foldl g u) :=
  List.foldlRecOn (motive := Begun s) l g h fun u hu a _ => hg u a hu

theorem modActive (n : Nat) {g : Active → Active}
    (hg : ∀ a, (g a).id = a.id ∧ (g a).opcode = a.opcode ∧ (g a).frame = a.frame ∧ (g a).result = a.result := by exact fun _ => ⟨rfl, rfl, rfl, rfl⟩) :
    Begun s (modActive n g u) := by
  refine h.trans ⟨rfl, rfl, ⟨[], rfl⟩, fun a ha => ⟨_, List.mem_map_of_mem ha, ?_⟩⟩
  split
  · exact hg a
  · exact ⟨rfl, rfl, rfl, rfl⟩

theorem sendMessage (dest flow : Nat) (msg : Bytes) : Begun s (sendMessage dest flow msg u) :=
  have hs := (Sends.refl u).sendMessage dest flow msg
  h.trans (of_out (by rw [hs.eq]) hs.out)

theorem sendRdmaRead (n : BitVec 24) (id i : Nat) (r : DRef) : Begun s (sendRdmaRead n id i r u) := by
  unfold Machine.sendRdmaRead
  split
  · exact h
  · exact h.trans (of_out rfl ⟨[_], rfl⟩)

theorem openFlow (cmd dest berth offset : Nat) (data : Bytes) : Begun s (openFlow cmd dest berth offset data u) := by
  refine sendMessage (u := { u with hawser := _ }) ?_ ..
  exact h.trans (of_eq rfl rfl)

theorem workSend (cmd berth : Nat) : Begun s (workSend cmd berth u) := by
  unfold Machine.workSend
  split
  · exact h
  · split
    · exact h
    · dsimp only
      refine ite h (foldl ?_ (fun _ _ hu => hu.openFlow ..) _)
      exact h.trans (of_eq rfl rfl)

theorem sendWork (dest op berth tag : Nat) (params part : Bytes) : Begun s (sendWork dest op berth tag params part u) := h.sendMessage ..

theorem countRun (r : RunSt) : Begun s (countRun r u) := by
  refine foldl (foldl h (fun _ _ hu => ?_) _) (fun _ _ hu => ?_) _
  · exact hu.trans (of_eq rfl rfl)
  · exact hu.trans (of_eq rfl rfl)

theorem addTotals (b : Nat) (r : Report) : Begun s (addTotals b r u) := h.trans (of_eq rfl rfl)

end

theorem fetchAll (id : Nat) (l : List (Nat × DRef)) (h : Begun s u) : Begun s (fetchAll id l u) := by
  induction l generalizing u with
  | nil => exact h
  | cons x l ih => exact ih (h.sendRdmaRead ..)

theorem workAdvance (cmd berth n : Nat) (h : Begun s u) : Begun s (workAdvance cmd berth n u) := by
  induction n generalizing u with
  | zero => exact h
  | succ n ih =>
    unfold Machine.workAdvance
    split
    · exact h
    · split
      · exact h
      · refine ite (ih (workSend ?_ ..)) ?_
        · exact h.trans (of_eq rfl rfl)
        · split
          · refine ih ?_
            exact h.trans (of_eq rfl rfl)
          · exact h

end Begun

theorem startCollective_begun (s : State) (a : Active) : Begun s (startCollective s a) := by
  unfold startCollective workBegin
  dsimp only
  refine Begun.workAdvance _ _ _ (Begun.workSend (Begun.ite ?_ (Begun.foldl ?_ (fun _ _ hu => hu.sendWork ..) _)) ..)
  · exact Begun.of_eq rfl rfl
  · exact Begun.of_eq rfl rfl

theorem startSpan_begun (s : State) (a : Active) : Begun s (startSpan s a) := by
  unfold startSpan
  dsimp only
  refine Begun.ite (Begun.refl s) (Begun.foldl (Begun.modActive ?_ _) (fun _ _ hu => hu.sendWork ..) _)
  exact Begun.of_eq rfl rfl

theorem startPeer_begun (s : State) (a : Active) : Begun s (startPeer s a) := by
  refine Begun.modActive (u := { s with hawser := _ }) ?_ _
  exact Begun.of_eq rfl rfl

theorem startMember_begun (s : State) (a : Active) : Begun s (startMember s a) := by
  unfold startMember
  split
  · exact Begun.refl s
  · refine Begun.modActive (u := { s with hawser := _ }) ?_ _
    exact Begun.of_eq rfl rfl

theorem runHere_begun (s : State) (a : Active) (p : Plan) (input : Bytes) : Begun s (runHere s a p input).1 := by
  unfold runHere
  dsimp only
  split
  · exact Begun.refl s
  · refine Begun.addTotals (Begun.countRun ?_ _) ..
    exact Begun.of_eq rfl rfl

theorem startSet_begun (s : State) (a : Active) : Begun s (startSet s a) := by
  unfold startSet
  split
  · exact Begun.refl s
  · next p _ =>
    have hrun := runHere_begun s a p (refData s a 0 (inputRef a.frame))
    refine Begun.ite (Begun.refl s) ?_
    generalize runHere s a p (refData s a 0 (inputRef a.frame)) = h at hrun
    dsimp only
    split
    · exact hrun.modActive _
    · have hparts {u : State} (hu : Begun s u) (l : List Nat) : Begun s (l.foldl (fun st i => sendPart s a p.peers i st) u) := hu.foldl (fun _ _ hu => hu.sendWork ..) l
      split
      · refine Begun.openFlow (hparts ?_ _) ..
        exact (hrun.modActive _).trans (Begun.of_eq rfl rfl)
      · refine hparts ?_ _
        exact (hrun.modActive _).trans (Begun.of_eq rfl rfl)

section
variable {sp : CmdSpec} (hstart : ∀ s a, Begun s (sp.start s a)) (hslow : ∀ s a, sp.slow s a = true)
include hstart hslow

/-- A command whose work takes time stays among the accepted ones, started or held back. -/
theorem tryStart_begun (id : Nat) (s : State) : Begun s (tryStart sp id s) := by
  have hphase (p : Nat) : Begun s (modActive id (fun a => { a with phase := p }) s) := (Begun.refl s).modActive id
  unfold tryStart
  split
  · exact Begun.refl s
  · next a ha =>
    have hrun (p : Nat) (l : List (Nat × DRef)) (b : Active) (aw : List Nat) :
        Begun s (modActive id (fun a => { a with awaiting := aw }) (sp.start (fetchAll id l (modActive id (fun a => { a with phase := p }) s)) b)) :=
      (((hphase p).fetchAll id l).trans (hstart _ b)).modActive id
    refine Begun.ite (Begun.refl s) ?_
    dsimp only
    refine Begun.ite (Begun.ite ((hphase _).trans (Begun.of_eq rfl rfl)) (hphase _)) ?_
    simp only [hslow, Bool.not_true, Bool.and_false, Bool.false_eq_true, if_false]
    split <;> exact hrun ..

end

/-! ### Result-producing commands -/

/-- A result-producing command when it has its slot and its reply has gone out. -/
def slotTaken (sp : CmdSpec) (t : Nat) (f : Frame) (s : State) : State :=
  answer sp.opcode f (sequenced t f s) stOk (.accepted (freeSlotIndex (atAdmission t f s) f.berth) (32 + sp.size (atAdmission t f s) f) (ptpNow (atAdmission t f s))) [] []
    (enter sp f (sequenced t f s) (atAdmission t f s))

section
variable {sp : CmdSpec} {t : Nat} {f : Frame} {s u : State}

theorem taken_of_result (h : sp.result = true) : taken sp t f s = sp.take (slotTaken sp t f s) (newActive sp f (sequenced t f s) (atAdmission t f s)) := by
  unfold taken
  simp only [h, if_true]
  rfl

theorem slotTaken_cmds (h : sp.result = true) : (slotTaken sp t f s).cmds =
    { s.cmds with nextId := s.cmds.nextId + 1, active := s.cmds.active ++ [newActive sp f (sequenced t f s) (atAdmission t f s)],
                  slots := newSlot sp f (atAdmission t f s) :: s.cmds.slots } := by
  rw [slotTaken, answer_cmds, enter_cmds, atAdmission_cmds, h]
  rfl

theorem enter_out (c : Bool) (s : State) : (enter sp f c s).out = s.out ∧ fragUnit (enter sp f c s) = fragUnit s ∧ portUp (enter sp f c s) f.port = portUp s f.port := by
  unfold enter
  dsimp only
  split <;> exact ⟨rfl, rfl, rfl⟩

theorem slotTaken_out (h : Accepted sp t f s) : ∃ r, (slotTaken sp t f s).out = .reply f.port f.srcIp f.srcUdp (fragUnit s) r :: s.out ∧
    r.opcode = sp.opcode ∧ r.berth = f.berth ∧ r.queue = f.queue ∧ r.tag = f.tag ∧ r.seq = f.seq ∧ r.block.status = stOk ∧
    r.block.detail = .accepted (freeSlotIndex (atAdmission t f s) f.berth) (32 + sp.size (atAdmission t f s) f) (ptpNow (atAdmission t f s)) ∧
    r.fields = [] ∧ r.payload = [] := by
  obtain ⟨ho, hf, hp⟩ := enter_out (sp := sp) (f := f) (sequenced t f s) (atAdmission t f s)
  have hup : portUp (setNow t s) f.port = true := h.2.1.1
  have hup' : portUp (atAdmission t f s) f.port = true := (atAdmission_portUp ..).trans hup
  have hunit : fragUnit (atAdmission t f s) = fragUnit s := by unfold fragUnit; rw [atAdmission_regs]
  refine ⟨replyOf (enter sp f (sequenced t f s) (atAdmission t f s)) sp.opcode f stOk _ [] [], ?_, rfl, rfl, rfl, rfl, rfl, rfl, rfl, rfl, rfl⟩
  rw [slotTaken, answer_out, hp, hup', if_pos rfl, hf, hunit, ho, atAdmission_out]

theorem replied_of_out (h : Accepted sp t f s) (ho : ∃ l, u.out = l ++ (slotTaken sp t f s).out) : Replied s u sp.opcode f stOk
    (.accepted (freeSlotIndex (atAdmission t f s) f.berth) (32 + sp.size (atAdmission t f s) f) (ptpNow (atAdmission t f s))) [] [] := by
  obtain ⟨r, hr, hfields⟩ := slotTaken_out h
  obtain ⟨l, hl⟩ := ho
  exact ⟨l, [], r, hl.trans (congrArg (l ++ ·) hr), hfields⟩

/-- What stays of a result-producing command while nothing of it ends. -/
theorem accepted_of_begun (hres : sp.result = true) (hb : Begun (slotTaken sp t f s) u) :
    getSlot u f.berth f.tag = some (newSlot sp f (atAdmission t f s)) ∧ u.cmds.nextId = s.cmds.nextId + 1 ∧
      ∃ a ∈ u.cmds.active, a.id = s.cmds.nextId ∧ a.opcode = sp.opcode ∧ a.frame = f ∧ a.result = true := by
  have hc := slotTaken_cmds (sp := sp) (t := t) (f := f) (s := s) hres
  refine ⟨?_, ?_, ?_⟩
  · rw [getSlot, hb.slots, hc]
    exact List.find?_cons_of_pos (by simp [newSlot])
  · rw [hb.nextId, hc]
  · obtain ⟨b, hm, h1, h2, h3, h4⟩ := hb.active (newActive sp f (sequenced t f s) (atAdmission t f s)) (by rw [hc]; simp)
    exact ⟨b, hm, by rw [h1]; simp [newActive], h2, h3, h4.trans hres⟩

theorem settled_begun (t : Nat) (f : Frame) (s r : State) : Begun r (settled t f s r) := by
  rw [settled_frame]
  exact Begun.of_eq rfl rfl

end

/-- What a result-producing command of this opcode takes and starts leaves every accepted command, and its work takes time. -/
structure Lasts (sp : CmdSpec) : Prop where
  result : sp.result = true
  take   : ∀ s a, Begun s (sp.take s a) := by exact fun s _ => Begun.refl s
  start  : ∀ s a, Begun s (sp.start s a) := by exact fun s _ => Begun.refl s
  slow   : ∀ s a, sp.slow s a = true := by exact fun _ _ => rfl

theorem lasts_planRun : Lasts cmdPlanRun where
  result := rfl
  take s a := by
    refine Begun.ite (Begun.modActive (Begun.refl s) _) (Begun.refl s)
  start s a := by
    exact Begun.ite (startMember_begun s a) (Begun.ite (startSet_begun s a) (Begun.refl s))

theorem lasts_selectTopk : Lasts cmdSelectTopk where
  result := rfl
  take s a := by
    exact Begun.ite (Begun.modActive (Begun.refl s) _) (Begun.refl s)
  start s a := by
    exact Begun.ite (startPeer_begun s a) (startSpan_begun s a)

theorem lasts_vaultCommit : Lasts cmdVaultCommit where
  result := rfl
  take s a := by
    unfold cmdVaultCommit
    dsimp only
    split <;> exact Begun.of_eq rfl rfl

theorem lasts_vaultConsolidate : Lasts cmdVaultConsolidate where
  result := rfl
  start s a := by
    unfold cmdVaultConsolidate
    dsimp only
    split
    · exact Begun.ite (Begun.modActive (Begun.modActive (Begun.refl s) _) _) (Begun.refl s)
    · exact Begun.refl s

theorem resultRows_last : ∀ r ∈ resultRows, Lasts r.spec := by
  simp only [resultRows, List.forall_mem_append, List.forall_mem_cons, List.not_mem_nil, false_implies, implies_true, and_true]
  refine ⟨⟨{ result := rfl }, { result := rfl }, { result := rfl }, lasts_planRun, { result := rfl }, { result := rfl }, { result := rfl }, { result := rfl }, { result := rfl },
    { result := rfl }, lasts_selectTopk, { result := rfl }⟩, lasts_vaultCommit, { result := rfl }, { result := rfl }, { result := rfl }, lasts_vaultConsolidate, { result := rfl },
    { result := rfl, take := fun _ _ => Begun.of_eq rfl rfl }, ?_, ?_⟩
  · exact { result := rfl, take := fun s a => Begun.modActive (Begun.refl s) _, start := startCollective_begun }
  · exact { result := rfl, take := fun s a => Begun.modActive (Begun.refl s) _, start := startCollective_begun }

theorem accept_lasts {sp : CmdSpec} (hl : Lasts sp) (t : Nat) (f : Frame) (s : State) :
    Begun (slotTaken sp t f s) (settled t f s (accept sp f (sequenced t f s) (atAdmission t f s))) := by
  rw [accept_eq_tryStart, taken_of_result hl.result]
  exact ((hl.take ..).trans (tryStart_begun hl.start hl.slow ..)).trans (settled_begun ..)

theorem detail_bytes_length (d : Detail) : d.bytes.length = 24 := by
  cases d <;> simp [Detail.bytes, zeros]

theorem block_bytes_length (b : StatusBlock) : b.bytes.length = 32 := by
  simp [StatusBlock.bytes, zeros, detail_bytes_length]

theorem resultReady_begun (b q : Nat) (tag : BitVec 32) (k : StatusBlock) (n : Nat) (s : State) : Begun s (resultReady b q tag k n s) := by
  unfold resultReady
  dsimp only
  split
  · split
    · have hs (n : Nat) (ip : Addr) (udp : Nat) (fl : Bytes) := (Sends.refl s).sendNotice n ip udp 0x0180 b false k fl []
      exact Begun.of_out (by rw [(hs ..).eq]) (hs ..).out
    · exact Begun.refl s
  · exact Begun.refl s

/-- A slot that has got its outcome. -/
def Slot.filled (bs : Bytes) (x : Slot) : Slot := { x with state := .ready, outcome := bs, reserved := bs.length }

/-- The bytes of a command's outcome. -/
def outcomeBytes (a : Active) (o : WorkOut) (s : State) : Bytes := (blockNow s a.frame.berth o.status o.detail).bytes ++ o.payload

theorem storeResult_pending {a : Active} (o : WorkOut) {s : State} {sl : Slot} (hs : getSlot s a.frame.berth a.frame.tag = some sl) (hp : sl.state = .pending) :
    storeResult a o s = resultReady a.frame.berth a.frame.queue a.frame.tag (blockNow s a.frame.berth o.status o.detail) (outcomeBytes a o s).length
      (modSlot a.frame.berth a.frame.tag (Slot.filled (outcomeBytes a o s)) s) := by
  unfold storeResult
  simp only [hs, hp]
  rfl

theorem getSlot_modSlot {b : Nat} {tag : BitVec 32} {g : Slot → Slot} (hg : ∀ x, (g x).berth = x.berth ∧ (g x).tag = x.tag) (s : State) :
    getSlot (modSlot b tag g s) b tag = (getSlot s b tag).map g := by
  rw [getSlot, modSlot, List.find?_map, getSlot]
  have hp : (fun x : Slot => x.berth == b && x.tag == tag) ∘ (fun x => if x.berth == b && x.tag == tag then g x else x) = fun x => x.berth == b && x.tag == tag := by
    funext x
    simp only [Function.comp]
    split <;> simp [hg]
  rw [hp]
  cases h : s.cmds.slots.find? (fun x => x.berth == b && x.tag == tag) with
  | none => rfl
  | some x => exact congrArg some (if_pos (List.find?_some h))

theorem complete_result {a : Active} (hr : a.result = true) (ho : a.origin = none) (o : WorkOut) (s : State) :
    complete a o s = drainIdle (storeResult a o (countUe o.status (freed a s))) := by
  unfold complete
  simp only [ho, hr]
  rfl

theorem getSlot_slots {s u : State} (h : u.cmds.slots = s.cmds.slots) (b : Nat) (tag : BitVec 32) : getSlot u b tag = getSlot s b tag := by
  rw [getSlot, getSlot, h]

theorem drainIdle_begun (s : State) : Begun s (drainIdle s) := by
  rw [drainIdle_frame]
  exact Begun.of_eq rfl rfl

theorem countUe_frame (st : Nat) (s : State) : countUe st s = { s with lb := (countUe st s).lb, eng := (countUe st s).eng } := by
  unfold countUe
  split <;> rfl

/-- A command that completes with its slot PENDING leaves its outcome there. -/
theorem complete_stores {a : Active} (hr : a.result = true) (ho : a.origin = none) (o : WorkOut) {s : State} {sl : Slot}
    (hs : getSlot s a.frame.berth a.frame.tag = some sl) (hp : sl.state = .pending) :
    ∃ x, getSlot (complete a o s) a.frame.berth a.frame.tag = some x ∧ x.state = .ready ∧ x.reserved = x.outcome.length ∧ x.outcome.drop 32 = o.payload ∧
      ∃ l, (complete a o s).out = l ++ s.out := by
  have hslots : (countUe o.status (freed a s)).cmds.slots = s.cmds.slots ∧ (countUe o.status (freed a s)).out = s.out := by
    rw [countUe_frame, freed_frame]
    exact ⟨rfl, rfl⟩
  have hs' : getSlot (countUe o.status (freed a s)) a.frame.berth a.frame.tag = some sl := by rw [getSlot, hslots.1]; exact hs
  rw [complete_result hr ho, storeResult_pending o hs' hp]
  have hb := resultReady_begun a.frame.berth a.frame.queue a.frame.tag (blockNow (countUe o.status (freed a s)) a.frame.berth o.status o.detail)
    (outcomeBytes a o (countUe o.status (freed a s))).length
    (modSlot a.frame.berth a.frame.tag (Slot.filled (outcomeBytes a o (countUe o.status (freed a s)))) (countUe o.status (freed a s))) |>.trans (drainIdle_begun _)
  refine ⟨sl.filled (outcomeBytes a o (countUe o.status (freed a s))), ?_, rfl, rfl, ?_, ?_⟩
  · rw [getSlot_slots hb.slots, getSlot_modSlot (g := Slot.filled _) (fun x => ⟨rfl, rfl⟩), hs']
    rfl
  · exact List.drop_left' (block_bytes_length _)
  · obtain ⟨l, hl⟩ := hb.out
    exact ⟨l, hl.trans (congrArg (l ++ ·) hslots.2)⟩

/-- A result-producing command whose outcome is stored in the step in which it starts. -/
structure StoresNow (sp : CmdSpec) : Prop where
  result  : sp.result = true
  take    : ∀ s a, sp.take s a = s := by exact fun _ _ => rfl
  start   : ∀ s a, sp.start s a = s := by exact fun _ _ => rfl
  slow    : ∀ s a, sp.slow s a = false := by exact fun _ _ => rfl
  uses    : ∀ s f, sp.uses s f = {} := by exact fun _ _ => rfl
  after   : ∀ s a, sp.after s a = s := by exact fun _ _ => rfl
  work    : ∀ s a, (sp.work s a).1 = s

theorem storedRows_store : ∀ r ∈ storedRows, StoresNow r.spec ∧ ∀ f, r.frame f = f := by
  simp only [storedRows, List.forall_mem_cons, List.not_mem_nil, false_implies, implies_true, and_true]
  refine ⟨⟨{ result := rfl, work := fun s a => ?_ }, fun _ => rfl⟩, ⟨{ result := rfl, work := fun s a => rfl }, fun _ => rfl⟩, { result := rfl, work := fun s a => rfl }, fun _ => rfl⟩
  unfold cmdVaultList
  dsimp only
  split <;> rfl

theorem accept_stores {sp : CmdSpec} {t : Nat} {f : Frame} {s : State} (hsp : StoresNow sp) (h : Starts sp t f s) :
    accept sp f (sequenced t f s) (atAdmission t f s) =
      complete (startedCmd sp t f s) (sp.work (running sp t f s) (startedCmd sp t f s)).2 (running sp t f s) := by
  have hun : Unhurt sp t f s := unhurt_of_norefs (fun s f => by rw [hsp.uses]) (fun s f => by rw [hsp.uses])
  rw [accept_runs h (takesLightly_of_take_id hsp.take t f s) (by rw [hsp.uses]) hsp.start, hsp.slow, if_neg (by simp), endWork_unhurt hun.1 hun.2, hsp.after, hsp.work]

/-- Settles O9. -/
theorem resultCommandsComplete : Obligations.ResultCommandsComplete := by
  refine ⟨fun r hr t f s h => ?_, fun r hr t f s h => ?_⟩
  · obtain ⟨p, hp⟩ := resultRows_frame r (List.mem_append_left _ hr) f
    have hmem : r ∈ resultRows ++ storedRows ++ slowRows := List.mem_append_left _ (List.mem_append_left _ hr)
    have hl := resultRows_last r hr
    have hb := accept_lasts hl t (r.frame f) s
    obtain ⟨hslot, hid, hact⟩ := accepted_of_begun hl.result hb
    have hrep := replied_of_out h hb.out
    refine ⟨_, (resultRows_exec r hmem t f s).trans (congrArg _ (runCommand_accept (resultRows_spec r hmem) h)), ?_, ?_, hid, hact⟩
    · rwa [hp] at hslot ⊢
    · rw [hp] at hrep ⊢
      exact hrep
  · have hmem : r ∈ resultRows ++ storedRows ++ slowRows := List.mem_append_left _ (List.mem_append_right _ hr)
    obtain ⟨hsp, hfr⟩ := storedRows_store r hr
    have htaken : taken r.spec t f s = slotTaken r.spec t f s := (taken_of_result hsp.result).trans (hsp.take ..)
    have hslot : getSlot (running r.spec t f s) f.berth f.tag = some (newSlot r.spec f (atAdmission t f s)) := by
      rw [running_eq_withNew, htaken]
      exact (accepted_of_begun hsp.result (Begun.refl _)).1
    obtain ⟨x, hx, hstate, hlen, hbody, l, hl⟩ := complete_stores (a := startedCmd r.spec t f s) hsp.result rfl
      (r.spec.work (running r.spec t f s) (startedCmd r.spec t f s)).2 hslot rfl
    have hb := settled_begun t f s (accept r.spec f (sequenced t f s) (atAdmission t f s))
    rw [accept_stores hsp h] at hb
    obtain ⟨l', hl'⟩ := hb.out
    refine ⟨_, x, (resultRows_exec r hmem t f s).trans (congrArg _ ?_), replied_of_out h.1 ⟨l' ++ l, hl'.trans ?_⟩, ?_, hstate, hlen, hbody⟩
    · rw [hfr, runCommand_accept (resultRows_spec r hmem) h.1, accept_stores hsp h]
    · rw [hl, running_eq_withNew, htaken, List.append_assoc]
      rfl
    · rw [getSlot_slots hb.slots]
      exact hx

end Sys2Proof.Machine

namespace Sys2Proof.Machine

/-! ### Commands of the device group -/

section
variable {t : Nat} {f : Frame} {s w : State} {o : WorkOut}

theorem running_eq_admitted {sp : CmdSpec} (hp : Plain sp) (t : Nat) (f : Frame) (s : State) : running sp t f s =
    admitted s (startedCmd sp t f s) (max s.now t) (running sp t f s).berths (running sp t f s).net.ports (running sp t f s).net.queues := by
  rw [← running_now hp t f s]
  exact (running_admitted hp).eq

/-- A command of `quickRows` without data references that leaves the module's registers, ports and device state alone. -/
theorem answers_at_start (sp : CmdSpec) (row : Nat → Frame → Instr) (hs : Starts sp t f s) (hd : s.dev.drain = none)
    (hw : ∃ w', sp.work (running sp t f s) (startedCmd sp t f s) = (w', o) ∧ WorkIs f (startedCmd sp t f s) w w')
    (hcmds : w = { s with net := { s.net with queues := w.net.queues }, cmds := w.cmds }) (hnext : w.cmds.nextId = s.cmds.nextId)
    (hact : ∀ a ∈ w.cmds.active, a.id < s.cmds.nextId)
    (hr : (⟨sp, row, id⟩ : CmdRow) ∈ quickRows := by simp [quickRows])
    (hn : Unhurt sp t f s := by exact unhurt_of_norefs (fun _ _ => rfl) (fun _ _ => rfl))
    (hu : o.status ≠ stMediaUe := by exact ne_of_beq_false rfl) : Answers sp (row t f) f s o w :=
  answers_of_admitted hr hs hn hw hd hu (by rw [hcmds]) (by rw [hcmds]) (by rw [hcmds]) (by rw [hcmds]) (by rw [hcmds]) hnext hact

/-- A command that only reads, with what it reads where it runs. -/
theorem answers_reading (sp : CmdSpec) (row : Nat → Frame → Instr) (hs : Starts sp t f s) (hd : s.dev.drain = none)
    (hw : sp.work (running sp t f s) (startedCmd sp t f s) = (running sp t f s, o))
    (hr : (⟨sp, row, id⟩ : CmdRow) ∈ quickRows := by simp [quickRows])
    (hn : Unhurt sp t f s := by exact unhurt_of_norefs (fun _ _ => rfl) (fun _ _ => rfl))
    (hu : o.status ≠ stMediaUe := by exact ne_of_beq_false rfl) : Answers sp (row t f) f s o s := by
  have hx := running_admitted (t := t) (f := f) (s := s) (quickRows_plain _ hr)
  refine answers_at_start sp row hs hd ⟨_, hw, ?_, hx.places⟩ rfl rfl (ids_below hs.1) hr hn hu
  rw [running_eq_admitted (quickRows_plain _ hr) t f s]
  rfl

/-- The state in which a command of `quickRows` runs, with the places that admission changed as variables. -/
theorem running_cases {sp : CmdSpec} (hp : Plain sp) (t : Nat) (f : Frame) (s : State) :
    ∃ b p q, running sp t f s = admitted s (startedCmd sp t f s) (max s.now t) b p q ∧ PlacesKept f s (admitted s (startedCmd sp t f s) (max s.now t) b p q) := by
  have hx := running_admitted (t := t) (f := f) (s := s) hp
  rw [running_eq_admitted hp t f s] at hx
  exact ⟨_, _, _, running_eq_admitted hp t f s, hx.places⟩

end

theorem resultPoison_clean {s : State} (h : s.mem.poisoned = []) (b i off n : Nat) : resultPoison s b i off n = none := by rw [resultPoison, h]; rfl

theorem readResult_of_none {s : State} {a : Active} (h : getSlot s a.frame.berth (rtag a.frame) = none) :
    cmdReadResult.work s a = (s, { status := stResultGone, detail := .none }) := by
  simp only [cmdReadResult, h]

theorem readResult_of_pending {s : State} {a : Active} {sl : Slot} (h : getSlot s a.frame.berth (rtag a.frame) = some sl) (hst : sl.state = .pending) :
    cmdReadResult.work s a = notReady s a.frame.berth (rtag a.frame) := by
  simp only [cmdReadResult, h, hst]

theorem readResult_of_ready {s : State} {a : Active} {sl : Slot} (h : getSlot s a.frame.berth (rtag a.frame) = some sl) (hst : sl.state = .ready)
    (hp : s.mem.poisoned = []) : cmdReadResult.work s a =
      (s, okOut (toLE 8 sl.outcome.length ++ toLE 8 (par a.frame 8 8)) (slice sl.outcome (par a.frame 8 8) (par a.frame 16 4))) := by
  simp only [cmdReadResult, h, hst, resultPoison_clean hp]

theorem release_of_pending {s : State} {a : Active} {sl : Slot} (h : getSlot s a.frame.berth (rtag a.frame) = some sl) (hst : sl.state = .pending) :
    cmdRelease.work s a = (modSlot a.frame.berth (rtag a.frame) (fun x => { x with state := .discard }) s, okOut [] []) := by
  simp only [cmdRelease, h, hst]

theorem release_of_ready {s : State} {a : Active} {sl : Slot} (h : getSlot s a.frame.berth (rtag a.frame) = some sl) (hst : sl.state = .ready) :
    cmdRelease.work s a = (dropSlot a.frame.berth (rtag a.frame) s, okOut [] []) := by
  simp only [cmdRelease, h, hst]

theorem release_of_discard {s : State} {a : Active} {sl : Slot} (h : getSlot s a.frame.berth (rtag a.frame) = some sl) (hst : sl.state = .discard) :
    cmdRelease.work s a = (s, { status := stResultGone, detail := .none }) := by
  simp only [cmdRelease, h, hst]

theorem plain_readResult : Plain cmdReadResult := ⟨rfl, fun _ _ => rfl, fun _ _ => rfl, fun _ _ => rfl, fun _ _ => rfl⟩

theorem plain_release : Plain cmdRelease := ⟨rfl, fun _ _ => rfl, fun _ _ => rfl, fun _ _ => rfl, fun _ _ => rfl⟩

theorem plain_queueStatus : Plain cmdQueueStatus := ⟨rfl, fun _ _ => rfl, fun _ _ => rfl, fun _ _ => rfl, fun _ _ => rfl⟩

theorem plain_queueSet : Plain cmdQueueSet := ⟨rfl, fun _ _ => rfl, fun _ _ => rfl, fun _ _ => rfl, fun _ _ => rfl⟩

/-- A queue's accepted commands but for the newest are those of before. -/
theorem queueActive_running {sp : CmdSpec} {t : Nat} {f : Frame} {s : State} (h : ∀ a ∈ s.cmds.active, a.id < s.cmds.nextId) (b q : Nat) :
    queueActive (running sp t f s) b q s.cmds.nextId = (s.cmds.active.filter (fun a => a.frame.berth == b && a.frame.queue == q)).length := by
  have hnew : (startedCmd sp t f s).id = s.cmds.nextId := startedCmd_id ..
  rw [queueActive, running_eq_withNew]
  show ((s.cmds.active ++ [startedCmd sp t f s]).filter _).length = _
  rw [List.filter_append, List.filter_cons_of_neg (by simp [hnew]), List.filter_nil, List.append_nil]
  refine congrArg List.length (List.filter_congr fun a ha => ?_)
  have hne : a.id ≠ s.cmds.nextId := Nat.ne_of_lt (h a ha)
  simp [hne]

/-- The command of a PENDING slot is one accepted before. -/
theorem resultCommand_admitted {a : Active} (ha : a.result = false) (s : State) (n : Nat) (b : List Berth) (p : List HostPort) (q : List Queue) (c : Nat) (tag : BitVec 32) :
    resultCommand (admitted s a n b p q) c tag = resultCommand s c tag := by
  show (s.cmds.active ++ [a]).find? _ = _
  rw [List.find?_append]
  simp only [resultCommand, List.find?_cons, ha, Bool.false_and, List.find?_nil, Option.or_none]

theorem notReady_some {s : State} {b : Nat} {tag : BitVec 32} {x : Active} {n : Nat} (h : resultCommand s b tag = some x)
    (hn : n = x.progress + pickBelow s (65536 - x.progress)) : notReady s b tag =
      (modActive x.id (fun a => { a with progress := n }) (useFresh s), { status := stNotReady, detail := .progress n x.phase (s.now - x.acceptedLocal) }) := by
  subst hn
  simp only [notReady, h]

theorem getSlot_running {sp : CmdSpec} (hp : Plain sp) {t : Nat} {f : Frame} {s : State} {b : Nat} {tag : BitVec 32} {sl : Slot} (h : getSlot s b tag = some sl) :
    getSlot (running sp t f s) b tag = some sl := by
  rw [running_eq_admitted hp]
  exact h

/-- RELEASE changes the slots alone. -/
theorem release_answers {t : Nat} {f : Frame} {s : State} (h : Starts cmdRelease t f s) (hd : s.dev.drain = none) (g : List Slot → List Slot)
    (hw : cmdRelease.work (running cmdRelease t f s) (startedCmd cmdRelease t f s) =
      ({ running cmdRelease t f s with cmds := { (running cmdRelease t f s).cmds with slots := g (running cmdRelease t f s).cmds.slots } }, okOut [] [])) :
    Answers cmdRelease (.release t f) f s (okOut [] []) { s with cmds := { s.cmds with slots := g s.cmds.slots } } := by
  obtain ⟨b, p, q, e, hp⟩ := running_cases plain_release t f s
  refine answers_at_start cmdRelease .release h hd ⟨_, hw, ?_, ?_⟩ rfl rfl (fun a ha => ids_below h.1 a ha)
  · rw [e]
    rfl
  · exact (PlacesKept.of_eq f rfl rfl rfl).trans ((e ▸ hp).trans (PlacesKept.of_eq f rfl rfl rfl))

/-- READ_RESULT of a PENDING slot is NOT_READY and may note how far the work is. -/
theorem readResult_pending {t : Nat} {f : Frame} {s : State} {sl : Slot} (hd : s.dev.drain = none) (h : Starts cmdReadResult t f s)
    (hsl : getSlot s f.berth (rtag f) = some sl) (hst : sl.state = .pending) :
    ∃ p ph el act, act.map (fun a => { a with progress := 0 }) = s.cmds.active.map (fun a => { a with progress := 0 }) ∧
      Answers cmdReadResult (.readResult t f) f s { status := stNotReady, detail := .progress p ph el } { s with cmds := { s.cmds with active := act } } := by
  obtain ⟨b, p, q, e, hp⟩ := running_cases plain_readResult t f s
  have hsl' : getSlot (running cmdReadResult t f s) f.berth (rtag f) = some sl := getSlot_running plain_readResult hsl
  have hwork : cmdReadResult.work (running cmdReadResult t f s) (startedCmd cmdReadResult t f s) = notReady (running cmdReadResult t f s) f.berth (rtag f) :=
    readResult_of_pending hsl' hst
  have hcommand : resultCommand (running cmdReadResult t f s) f.berth (rtag f) = resultCommand s f.berth (rtag f) := by
    rw [e]
    exact resultCommand_admitted rfl ..
  cases hc : resultCommand s f.berth (rtag f) with
  | none =>
    exact ⟨0, 3, 0, s.cmds.active, rfl, answers_reading cmdReadResult .readResult h hd (hwork.trans (by rw [notReady, hcommand, hc]))⟩
  | some x =>
    have hx : x ∈ s.cmds.active := List.mem_of_find?_eq_some hc
    have hid : x.id < s.cmds.nextId := ids_below h.1 x hx
    obtain ⟨n, hn⟩ : ∃ n, n = x.progress + pickBelow (running cmdReadResult t f s) (65536 - x.progress) := ⟨_, rfl⟩
    have hsame (y : Active) : (if y.id == x.id then { y with progress := n } else y).id = y.id := by split <;> rfl
    refine ⟨n, x.phase, (running cmdReadResult t f s).now - x.acceptedLocal, s.cmds.active.map (fun y => if y.id == x.id then { y with progress := n } else y), ?_, ?_⟩
    · rw [List.map_map]
      refine List.map_congr_left fun y _ => ?_
      simp only [Function.comp]
      split <;> rfl
    · refine answers_at_start cmdReadResult .readResult h hd ⟨_, hwork.trans (notReady_some (hcommand.trans hc) hn), ?_, ?_⟩ rfl rfl fun y hy => ?_
      · rw [e]
        simp only [modActive, useFresh, admitted, List.map_append, List.map_cons, List.map_nil]
        rw [if_neg (by rw [startedCmd_id]; simpa using Nat.ne_of_gt hid)]
      · exact (PlacesKept.of_eq f rfl rfl rfl).trans ((e ▸ hp).trans (PlacesKept.of_eq f rfl rfl rfl))
      · obtain ⟨z, hz, rfl⟩ := List.mem_map.mp hy
        rw [hsame]
        exact ids_below h.1 z hz

/-- NOTIFY of a queue is set alike before and after admission. -/
theorem placesKept_notify {f : Frame} {s u : State} {b q : Nat} {on : Bool} (h : PlacesKept f s u) :
    PlacesKept f (setQueue { getQueue s b q with notify := on } s) (setQueue { getQueue u b q with notify := on } u) := by
  obtain ⟨hb, hn, hq⟩ := h
  refine ⟨hb, hn, fun c n => ?_⟩
  have hs : getQueue (setQueue { getQueue s b q with notify := on } s) c n = if c = b ∧ n = q then { getQueue s b q with notify := on } else getQueue s c n := by
    rw [getQueue_setQueue]
    simp only [(getQueue_berth s b q).1, (getQueue_berth s b q).2]
  have hu : getQueue (setQueue { getQueue u b q with notify := on } u) c n = if c = b ∧ n = q then { getQueue u b q with notify := on } else getQueue u c n := by
    rw [getQueue_setQueue]
    simp only [(getQueue_berth u b q).1, (getQueue_berth u b q).2]
  have hk := hq c n
  rw [hs, hu]
  by_cases hc : c = b ∧ n = q
  · obtain ⟨rfl, rfl⟩ := hc
    simp only [and_self, if_true]
    split
    · next hf =>
      rw [if_pos hf] at hk
      rw [hk]
    · next hf =>
      rw [if_neg hf] at hk
      rw [hk]
  · simp only [if_neg hc]
    exact hk

/-- Settles O11. -/
theorem deviceCommandsComplete : Obligations.DeviceCommandsComplete := by
  intro t f s hd
  refine ⟨fun h => ?_, fun h hsl => ?_, fun sl h hsl hst hp => ?_, fun sl h hsl hst => ?_, fun sl h hsl hst => ?_, fun sl h hsl hst => ?_, fun sl h hsl hst => ?_,
    fun h => ?_, fun h => ?_, fun h => ?_⟩
  · refine answers_query cmdEcho .echo h hd (fun b p q a ha _ _ => ?_)
    subst ha
    rfl
  · refine answers_query cmdReadResult .readResult h hd (fun b p q a ha _ _ => readResult_of_none ?_)
    subst ha
    exact hsl
  · refine answers_query cmdReadResult .readResult h hd (fun b p q a ha _ _ => ?_)
    subst ha
    exact readResult_of_ready (s := admitted s a (max s.now t) b p q) hsl hst hp
  · exact readResult_pending hd h hsl hst
  · exact release_answers h hd (fun l => l.filter (fun x => !(x.berth == f.berth && x.tag == rtag f))) (release_of_ready (getSlot_running plain_release hsl) hst)
  · exact release_answers h hd (fun l => l.map (fun x => if x.berth == f.berth && x.tag == rtag f then { x with state := .discard } else x))
      (release_of_pending (getSlot_running plain_release hsl) hst)
  · refine answers_query cmdRelease .release h hd (fun b p q a ha _ _ => ?_)
    subst ha
    exact release_of_discard (s := admitted s a (max s.now t) b p q) hsl hst
  · refine answers_reading cmdQueueStatus .queueStatus h hd ?_
    have hother : queueActive (running cmdQueueStatus t f s) f.berth (par f 0 1) s.cmds.nextId =
        (s.cmds.active.filter (fun a => a.frame.berth == f.berth && a.frame.queue == par f 0 1)).length :=
      queueActive_running (ids_below h.1) ..
    have hslots : slotsOf (running cmdQueueStatus t f s) f.berth = slotsOf s f.berth := by
      rw [running_eq_admitted plain_queueStatus]
      rfl
    rw [← hother, ← hslots, ← startedCmd_id cmdQueueStatus t f s]
    show (running cmdQueueStatus t f s, _) = _
    rw [(getQueue_berth ..).2]
    rfl
  · obtain ⟨b, p, q, e, hp⟩ := running_cases plain_queueSet t f s
    refine answers_at_start cmdQueueSet .queueSet h hd ⟨_, rfl, ?_, ?_⟩ rfl rfl (fun a ha => ids_below h.1 a ha)
    · rw [e]
      rfl
    · rw [e]
      exact placesKept_notify hp
  · exact answers_reading cmdGetParam .getParam h hd rfl
end Sys2Proof.Machine

namespace Sys2Proof.Machine

/-! ### Commands that send before they are answered -/

section
variable {sp : CmdSpec} {t : Nat} {f : Frame} {s w w' : State} {o : WorkOut}

/-- A command's end: what it held is freed, its reply goes out and its queue settles. -/
theorem finish_frame (hr : sp.result = false) (hd : w'.dev.drain = none) (hu : o.status ≠ stMediaUe) :
    let u := finish sp t f s w' o
    u = { w' with
      out := u.out, cmds := (dropActive s.cmds.nextId w').cmds, hawser := (dropWork s.cmds.nextId w').hawser, berths := u.berths, fresh := u.fresh
      power := { w'.power with lastP0 := u.power.lastP0, lastNand := u.power.lastNand, lastSram := u.power.lastSram }
      net := { w'.net with ports := u.net.ports, queues := u.net.queues } } := by
  rw [finish_eq sp t f s w' o hr hd hu]
  set u1 := freed (startedCmd sp t f s) w' with h1
  set u2 := answer sp.opcode f (sequenced t f s) o.status o.detail o.fields o.payload u1 with h2
  set u3 := settled t f s u2
  have e1 : u1 = { w' with cmds := (dropActive s.cmds.nextId w').cmds, hawser := (dropWork s.cmds.nextId w').hawser, power := u1.power, berths := u1.berths, fresh := u1.fresh } := by
    rw [h1, ← startedCmd_id sp t f s, ← freed_hawser]
    exact freed_frame ..
  have e2 : u2 = { u1 with net := u2.net, out := u2.out } := answer_frame ..
  have e3 : u3 = { u2 with net := u3.net } := settled_frame ..
  have hpower : u1.power = { w'.power with lastP0 := u1.power.lastP0, lastNand := u1.power.lastNand, lastSram := u1.power.lastSram } := unitsReleased_power ..
  have n1 : u1.net = w'.net := by rw [e1]
  have n2 : u2.net = { u1.net with ports := u2.net.ports, queues := u2.net.queues } := answer_net ..
  have n3 : u3.net = { u2.net with queues := u3.net.queues } := settled_net ..
  dsimp only
  have hp : u3.power = u1.power := by rw [e3, e2]
  have hn : u3.net = { w'.net with ports := u3.net.ports, queues := u3.net.queues } := by rw [n3, n2, n1]
  rw [hp, ← hpower, ← hn]
  have hall : u3 = { u1 with net := u3.net, out := u3.out } := by rw [e3, e2]
  rw [hall]
  exact congrArg (fun x : State => { x with net := u3.net, out := u3.out }) e1

/-- What an answered command leaves, whatever its work sent. -/
theorem finish_answeredAs (hr : sp.result = false) (hw : WorkIs f (startedCmd sp t f s) w w') (hd : w.dev.drain = none) (hu : o.status ≠ stMediaUe)
    (hids : ∀ a ∈ w.cmds.active, a.id < s.cmds.nextId) (hid : w.cmds.nextId = s.cmds.nextId) :
    finish sp t f s w' o = answeredAs (finish sp t f s w' o) w ∧ PlacesKept f w (finish sp t f s w' o) := by
  have hd' : w'.dev.drain = none := by rw [hw.eq]; exact hd
  refine ⟨?_, ?_⟩
  · have e := finish_frame (t := t) (f := f) (s := s) hr hd' hu
    have hnew : (startedCmd sp t f s).id = s.cmds.nextId := startedCmd_id ..
    have hcmds : (dropActive s.cmds.nextId w').cmds = { w.cmds with nextId := w.cmds.nextId + 1 } := by
      have hc : w'.cmds = { w.cmds with nextId := w.cmds.nextId + 1, active := w.cmds.active ++ [startedCmd sp t f s] } := by rw [hw.eq]
      rw [dropActive, hc, ← hnew]
      simp only [drop_new (a := startedCmd sp t f s) (fun a ha => by rw [hnew]; exact Nat.ne_of_lt (hids a ha))]
    have heq := hw.eq
    generalize finish sp t f s w' o = u at e
    refine answeredAs_intro ?_ ?_ ?_ ?_ ?_
    · conv_lhs => rw [e, heq]
      rw [e, heq]
    · rw [e, heq]
    · rw [e]
      exact hcmds
    · rw [e, heq]
    · rw [e, hid, dropWork, dropWork, heq]
  · rw [finish_eq sp t f s w' o hr hd' hu]
    exact ((hw.places.trans (freed_places ..)).trans (answer_places ..)).trans (settled_places ..)

theorem finish_replies (hr : sp.result = false) (hd : w'.dev.drain = none) (hu : o.status ≠ stMediaUe) (hup : portUp w' f.port = true)
    (hunit : fragUnit w' = fragUnit s) (hout : ∃ l, w'.out = l ++ s.out) : Replied s (finish sp t f s w' o) sp.opcode f o.status o.detail o.fields o.payload := by
  obtain ⟨l, hl⟩ := hout
  have hf := freed_frame (startedCmd sp t f s) w'
  have hup' : portUp (freed (startedCmd sp t f s) w') f.port = true := by
    rw [hf]
    exact hup
  have hunit' : fragUnit (freed (startedCmd sp t f s) w') = fragUnit s := by
    rw [hf]
    exact hunit
  refine ⟨[], l, replyOf (freed (startedCmd sp t f s) w') sp.opcode f o.status o.detail o.fields o.payload, ?_, rfl, rfl, rfl, rfl, rfl, rfl, rfl, rfl, rfl⟩
  rw [finish_eq sp t f s w' o hr hd hu, settled_frame]
  show (answer ..).out = _
  rw [answer_out, if_pos hup', hunit', hf]
  exact congrArg _ hl

theorem exec_finish {row : Nat → Frame → Instr} (hr : (⟨sp, row, id⟩ : CmdRow) ∈ quickRows) (hs : Starts sp t f s) (hn : Unhurt sp t f s)
    (hw : sp.work (running sp t f s) (startedCmd sp t f s) = (w', o)) : exec (row t f) s = .next (finish sp t f s w' o) := by
  have h1 := quickRows_exec _ hr t f s
  have h2 := runCommand_accept (quickRows_spec _ hr) hs.1
  have h3 := accept_plain (quickRows_plain _ hr) hs hn
  have h4 := quickRows_after _ hr
  dsimp only [id] at h1 h2 h3 h4
  rw [h1, h2, h3, h4, hw]
  rfl

/-- The port of a command that runs is up. -/
theorem running_portUp (hp : Plain sp) (h : Accepted sp t f s) : portUp (running sp t f s) f.port = true := by
  have hup : portUp (setNow t s) f.port = true := h.2.1.1
  have hrun := running_admitted (t := t) (f := f) (s := s) hp
  have hlink : (hostPort (running sp t f s) f.port).linkUp = (hostPort s f.port).linkUp := by rw [hrun.places.2.1 f.port]
  unfold portUp at hup ⊢
  rw [hlink, hrun.eq]
  exact hup

end

/-! ### Replication -/

theorem getVault_modVault {b : Nat} {g : Vault → Vault} (hg : ∀ v, (g v).berth = v.berth) (s : State) : getVault (modVault b g s) b = (getVault s b).map g := by
  rw [getVault, modVault, List.find?_map, getVault]
  have hp : (fun v : Vault => v.berth == b) ∘ (fun v => if v.berth == b then g v else v) = fun v => v.berth == b := by
    funext v
    simp only [Function.comp]
    split <;> simp [hg]
  rw [hp]
  cases h : s.vaults.find? (fun v => v.berth == b) with
  | none => rfl
  | some v => exact congrArg some (if_pos (List.find?_some h))

/-- The sender replicates where `f` says. -/
def SendsWhere (f : Frame) (r : ReplSend) : Prop :=
  r.qpn = BitVec.ofNat 24 (par f 0 4) ∧ r.altQpn = BitVec.ofNat 24 (par f 4 4) ∧ r.peerRkey = BitVec.ofNat 32 (par f 8 4) ∧ r.window = par f 16 8 ∧ r.state ≠ .off

/-- From `s` to `u` only vaults and RDMA state changed, something may have gone out, and a sender that replicates where `f` says still does. -/
structure Replicates (f : Frame) (s u : State) : Prop where
  eq : u = { s with vaults := u.vaults, rdma := u.rdma, out := u.out, fresh := u.fresh }
  out : ∃ l, u.out = l ++ s.out
  vault : ∀ v, getVault s f.berth = some v → ∃ v', getVault u f.berth = some v' ∧ (SendsWhere f v.send → SendsWhere f v'.send)

namespace Replicates

variable {f : Frame} {s u w : State}

theorem refl (f : Frame) (s : State) : Replicates f s s := ⟨rfl, ⟨[], rfl⟩, fun v hv => ⟨v, hv, id⟩⟩

theorem trans (h : Replicates f s u) (h' : Replicates f u w) : Replicates f s w := by
  obtain ⟨l, hl⟩ := h.out
  obtain ⟨l', hl'⟩ := h'.out
  refine ⟨?_, ⟨l' ++ l, by rw [hl', hl, List.append_assoc]⟩, fun v hv => ?_⟩
  · have e := h'.eq
    rw [h.eq] at e
    exact e
  · obtain ⟨v1, hv1, h1⟩ := h.vault v hv
    obtain ⟨v2, hv2, h2⟩ := h'.vault v1 hv1
    exact ⟨v2, hv2, h2 ∘ h1⟩

theorem of_rdma (h : u = { s with rdma := u.rdma, out := u.out, fresh := u.fresh }) (ho : ∃ l, u.out = l ++ s.out) : Replicates f s u :=
  ⟨by rw [h], ho, fun v hv => ⟨v, by rw [getVault, h]; exact hv, id⟩⟩

section
variable (h : Replicates f s u)
include h

theorem modVault {g : Vault → Vault} (hg : ∀ v, (g v).berth = v.berth ∧ (SendsWhere f v.send → SendsWhere f (g v).send)) : Replicates f s (modVault f.berth g u) := by
  refine h.trans ⟨rfl, ⟨[], rfl⟩, fun v hv => ⟨g v, ?_, (hg v).2⟩⟩
  rw [getVault_modVault (fun v => (hg v).1), hv]
  rfl

theorem sendRdmaWrite (n : BitVec 24) (rkey : BitVec 32) (va : Nat) (data : Bytes) (imm : Option (BitVec 32)) : Replicates f s (sendRdmaWrite n rkey va data imm u) := by
  refine h.trans ?_
  unfold Machine.sendRdmaWrite
  split
  · exact refl f u
  · exact of_rdma rfl ⟨[_], rfl⟩

theorem sendRecord (v : Vault) (off : Nat) (rec8 : Bytes) (ty : Nat) : Replicates f s (sendRecord v off rec8 ty u) := h.sendRdmaWrite ..

theorem writeStream (v : Vault) (pos : Nat) (data : Bytes) : Replicates f s (writeStream v pos data u) := by
  unfold Machine.writeStream
  split
  · exact h
  · dsimp only
    split
    · exact h.sendRdmaWrite ..
    · exact (h.sendRdmaWrite ..).sendRdmaWrite ..

theorem modSend {g : ReplSend → ReplSend} (hg : ∀ r, SendsWhere f r → SendsWhere f (g r)) : Replicates f s (modSend f.berth g u) :=
  h.modVault fun v => ⟨rfl, hg v.send⟩

theorem pumpStream : Replicates f s (pumpStream f.berth u) := by
  unfold Machine.pumpStream
  split
  · exact h
  · split
    · exact h
    · split
      · exact h
      · have hsent (v : Vault) (pos : Nat) (data : Bytes) (n : Nat) (e : Bool) : Replicates f s
            (Machine.modSend f.berth (fun r => { r with stream := r.stream + n, ended := e }) (Machine.writeStream v pos data u)) := (h.writeStream ..).modSend fun _ hr => hr
        dsimp only
        split
        · exact (hsent ..).sendRecord ..
        · exact hsent ..

theorem beginStream (id : Nat) : Replicates f s (beginStream f.berth id u) := by
  have hbegun : Replicates f s (Machine.modSend f.berth
      (fun r => { r with state := .sending, current := some id, base := r.stream, ended := false, progressAt := u.now, retryAt := none }) u) :=
    h.modSend fun _ ⟨h1, h2, h3, h4, _⟩ => ⟨h1, h2, h3, h4, nofun⟩
  unfold Machine.beginStream
  dsimp only
  split
  · exact hbegun
  · split
    · exact hbegun
    · exact (hbegun.sendRecord ..).pumpStream

theorem nextStream : Replicates f s (nextStream f.berth u) := by
  unfold Machine.nextStream
  split
  · exact h
  · split
    · exact h
    · split
      · exact h.modSend fun _ ⟨h1, h2, h3, h4, _⟩ => ⟨h1, h2, h3, h4, nofun⟩
      · refine Replicates.beginStream (h.modSend fun _ hr => ?_) _
        exact hr

end
end Replicates

theorem dropSide_rdma (rkey : BitVec 32) (s : State) : dropSide rkey s = { s with rdma := (dropSide rkey s).rdma } := by
  unfold dropSide
  split <;> rfl

/-- REPL_SET with QPN 0 for a sender that is on. -/
def stopped (v : Vault) : Vault :=
  { v with send := { v.send with state := .off, current := none, retryAt := none }, ckpts := v.ckpts.map (fun c => { c with pinned := false }) }

theorem replStop_off {b : Nat} {s : State} {v : Vault} (hv : getVault s b = some v) (h : v.send.state = .off) : replStop b s = s := by
  simp only [replStop, hv, h, if_true]

theorem replStop_on {b : Nat} {s : State} {v : Vault} (hv : getVault s b = some v) (h : v.send.state ≠ .off) :
    replStop b s = modVault b stopped (dropSide v.send.ackRkey s) := by
  simp only [replStop, hv, h, if_false]
  rfl

theorem getVault_congr {s u : State} (h : u.vaults = s.vaults) (b : Nat) : getVault u b = getVault s b := by rw [getVault, getVault, h]

/-- Ending a stream leaves the berth its vault and changes only vaults and RDMA state. -/
theorem replStop_frame {b : Nat} {s : State} {v : Vault} (hv : getVault s b = some v) :
    replStop b s = { s with vaults := (replStop b s).vaults, rdma := (replStop b s).rdma } ∧ ∃ v', getVault (replStop b s) b = some v' := by
  by_cases h : v.send.state = .off
  · rw [replStop_off hv h]
    exact ⟨rfl, v, hv⟩
  · rw [replStop_on hv h, dropSide_rdma]
    refine ⟨rfl, stopped v, ?_⟩
    exact (getVault_modVault (g := stopped) (fun _ => rfl) _).trans (congrArg (Option.map stopped) hv)

/-- The sender that REPL_SET sets up. -/
def newSend (f : Frame) (rkey : BitVec 32) (now : Nat) (r : ReplSend) : ReplSend :=
  { state := .idle, qpn := BitVec.ofNat 24 (par f 0 4), altQpn := BitVec.ofNat 24 (par f 4 4), peerRkey := BitVec.ofNat 32 (par f 8 4), window := par f 16 8,
    ackRkey := rkey, lastAcked := r.lastAcked, ackedAt := r.ackedAt, sent := r.sent, skipped := r.skipped, downs := r.downs, resent := r.resent,
    progressAt := now, refZero := true }

/-- A vault whose unacknowledged checkpoints wait for the new stream. -/
def restarted (f : Frame) (rkey : BitVec 32) (now : Nat) (v : Vault) : Vault :=
  { v with send := newSend f rkey now v.send
           ckpts := v.ckpts.map (fun c => if c.state = .consolidated ∧ !c.replica ∧ !c.acked then { c with pinned := true } else c) }

theorem sendsWhere_restarted (f : Frame) (rkey : BitVec 32) (now : Nat) (v : Vault) : SendsWhere f (restarted f rkey now v).send := ⟨rfl, rfl, rfl, rfl, nofun⟩

/-- REPL_SET with a queue pair sends its HELLO record and begins the newest pinned checkpoint. -/
theorem replStart_replicates {f : Frame} {s : State} {v : Vault} (hv : getVault s f.berth = some v) :
    Replicates f s (replStart f s) ∧ ∃ v', getVault (replStart f s) f.berth = some v' ∧ SendsWhere f v'.send := by
  set g := addRegion f.berth 0 4096 true false .ackArea s with hg
  have hregion : Replicates f s g.1 := Replicates.of_rdma rfl ⟨[], rfl⟩
  set s1 := modVault f.berth (restarted f g.2 s.now) g.1 with hs1
  have hset : Replicates f s s1 := hregion.modVault fun v => ⟨rfl, fun _ => sendsWhere_restarted ..⟩
  have hv1 : getVault s1 f.berth = some (restarted f g.2 s.now v) :=
    (getVault_modVault (g := restarted f g.2 s.now) (fun _ => rfl) _).trans (congrArg (Option.map (restarted f g.2 s.now)) hv)
  have hstart : replStart f s = nextStream f.berth (sendRecord (restarted f g.2 s.now v) 0 (toLE 4 g.2.toNat ++ zeros 4 ++ toLE 8 (restarted f g.2 s.now v).send.window) 1 s1) := by
    unfold replStart
    dsimp only
    exact (congrArg (fun o : Option Vault => match o with
      | none => s1
      | some v => nextStream f.berth (sendRecord v 0 (toLE 4 g.2.toNat ++ zeros 4 ++ toLE 8 v.send.window) 1 s1)) hv1 :)
  have hafter : Replicates f s1 (replStart f s) := by
    rw [hstart]
    exact ((Replicates.refl f s1).sendRecord ..).nextStream
  obtain ⟨v', hv', hsends⟩ := hafter.vault _ hv1
  exact ⟨hset.trans hafter, v', hv', hsends (sendsWhere_restarted ..)⟩

theorem plain_replSet : Plain cmdReplSet := ⟨rfl, fun _ _ => rfl, fun _ _ => rfl, fun _ _ => rfl, fun _ _ => rfl⟩

/-- REPL_SET with a queue pair: the sender's heading, and what else may have changed. -/
theorem replSet_starts {t : Nat} {f : Frame} {s : State} {v : Vault} (hd : s.dev.drain = none) (hv : getVault s f.berth = some v) (h : Starts cmdReplSet t f s)
    (hq : par f 0 4 ≠ 0) : ∃ u v', exec (.replSet t f) s = .next u ∧ Replied s u 0x0611 f stOk .none [] [] ∧ getVault u f.berth = some v' ∧ SendsWhere f v'.send ∧
      u = { answeredAs u s with vaults := u.vaults, rdma := u.rdma } ∧ PlacesKept f s u := by
  have hrun := running_admitted (t := t) (f := f) (s := s) plain_replSet
  set R := running cmdReplSet t f s with hR
  obtain ⟨hstop, v1, hv1⟩ := replStop_frame (s := R) (v := v) (by rw [getVault_congr (s := s) (by rw [hrun.eq])]; exact hv)
  obtain ⟨hrep, v2, hv2, hsends⟩ := replStart_replicates (f := f) hv1
  set w' := replStart f (replStop f.berth R) with hw'
  have hwork : cmdReplSet.work R (startedCmd cmdReplSet t f s) = (w', okOut [] []) := congrArg (·, okOut [] []) (if_neg hq)
  have hframe : w' = { R with vaults := w'.vaults, rdma := w'.rdma, out := w'.out, fresh := w'.fresh } := by
    have e := hrep.eq
    rw [hstop] at e
    exact e
  have hout : ∃ l, w'.out = l ++ s.out := by
    obtain ⟨l, hl⟩ := hrep.out
    refine ⟨l, hl.trans ?_⟩
    rw [hstop]
    show l ++ R.out = _
    rw [hrun.eq]
  set W : State := { s with vaults := w'.vaults, rdma := w'.rdma, out := w'.out } with hW
  have hw : WorkIs f (startedCmd cmdReplSet t f s) W w' := by
    refine ⟨?_, ?_⟩
    · rw [hW, hframe, hrun.eq]
    · rw [hframe]
      exact ((PlacesKept.of_eq f rfl rfl rfl).trans hrun.places).trans (PlacesKept.of_eq f rfl rfl rfl)
  have hd' : w'.dev.drain = none := by
    rw [hframe, hrun.eq]
    exact hd
  obtain ⟨hu, hplaces⟩ := finish_answeredAs (o := okOut [] []) rfl hw hd (ne_of_beq_false rfl) (fun a ha => ids_below h.1 a ha) rfl
  have hreply := finish_replies (t := t) (f := f) (s := s) (w' := w') (o := okOut [] []) (sp := cmdReplSet) rfl hd' (ne_of_beq_false rfl)
    (by rw [hframe]; exact running_portUp plain_replSet h.1) (by rw [hframe, hrun.eq]; rfl) hout
  have hx := exec_finish (row := .replSet) (by simp [quickRows]) h (unhurt_of_norefs (fun _ _ => rfl) (fun _ _ => rfl)) hwork
  generalize finish cmdReplSet t f s w' (okOut [] []) = u at hu hplaces hreply hx
  have hvaults : u.vaults = w'.vaults := by rw [hu]; rfl
  have hrdma : u.rdma = w'.rdma := by rw [hu]; rfl
  refine ⟨u, v2, hx, hreply, (getVault_congr hvaults _).trans hv2, hsends, ?_, (PlacesKept.of_eq f rfl rfl rfl).trans hplaces⟩
  rw [hvaults, hrdma]
  exact hu

theorem dropSide_admitted (rkey : BitVec 32) (s : State) (a : Active) (n : Nat) (b : List Berth) (p : List HostPort) (q : List Queue) :
    dropSide rkey (admitted s a n b p q) = admitted (dropSide rkey s) a n b p q := by
  have hr : getRegion (admitted s a n b p q) rkey = getRegion s rkey := rfl
  unfold dropSide
  rw [hr]
  cases getRegion s rkey <;> rfl

theorem replies_after_dropSide (b : Nat) (g : Vault → Vault) (rkey : BitVec 32) (s : State) : RepliesAs s (modVault b g (dropSide rkey s)) := by
  rw [dropSide_rdma]
  exact {}

theorem replAccept_none {s : State} {a : Active} {v : Vault} (hq : par a.frame 0 4 = 0) (hv : getVault s a.frame.berth = some v) (hr : v.recv = none) :
    cmdReplAccept.work s a = (s, okOut (zeros 4) []) := by
  simp only [cmdReplAccept, hv, Option.bind_some, hr, hq, if_true]

theorem replAccept_ends {s : State} {a : Active} {v : Vault} {r : ReplRecv} (hq : par a.frame 0 4 = 0) (hv : getVault s a.frame.berth = some v) (hr : v.recv = some r) :
    cmdReplAccept.work s a = (modVault a.frame.berth (fun v => { v with recv := none }) (dropSide r.rkey s), okOut (zeros 4) []) := by
  simp only [cmdReplAccept, hv, Option.bind_some, hr, hq, if_true]

/-- The region that REPL_ACCEPT gives the replica stream. -/
def newReplica (f : Frame) (s : State) : Region × List (Nat × Nat × BitVec 20) :=
  let i := freshRegionIndex s f.berth
  let g := freshGen s f.berth i
  ({ berth := f.berth, index := i, rkey := rkeyOf f.berth i g, offset := 0, length := 65536 + par f 8 8, canWrite := true, canRead := false, owner := .replica },
    (f.berth, i, BitVec.ofNat 20 g) :: s.rdma.gens)

/-- A vault whose berth takes a replica stream. -/
def receiving (f : Frame) (s : State) (v : Vault) : Vault :=
  { v with recv := some { qpn := BitVec.ofNat 24 (par f 0 4), altQpn := BitVec.ofNat 24 (par f 4 4), window := par f 8 8, rkey := (newReplica f s).1.rkey } }

theorem replAccept_opens {s : State} {a : Active} {v : Vault} (hq : par a.frame 0 4 ≠ 0) (hv : getVault s a.frame.berth = some v) (hr : v.recv = none) :
    cmdReplAccept.work s a = (modVault a.frame.berth (receiving a.frame s)
      (useFresh { s with rdma := { s.rdma with regions := s.rdma.regions ++ [(newReplica a.frame s).1], gens := (newReplica a.frame s).2 } }),
      okOut (toLE 4 (newReplica a.frame s).1.rkey.toNat) []) := by
  simp only [cmdReplAccept, hv, Option.bind_some, hr, hq, if_false]
  rfl

/-- Settles O19. -/
theorem replicationCommandsComplete : Obligations.ReplicationCommandsComplete := by
  intro t f s v hd hv
  refine ⟨fun h hq hr => ?_, fun r h hq hr => ?_, fun h hq hr => ?_, fun h hq hoff => ?_, fun h hq hon => ?_, fun h hq => ?_⟩
  · refine answers_query cmdReplAccept .replAccept h hd (fun b p q a ha _ _ => ?_)
    subst ha
    exact replAccept_none (s := admitted s a (max s.now t) b p q) hq hv hr
  · refine answers_apart cmdReplAccept .replAccept h hd (fun b p q a ha _ => ?_) (replies_after_dropSide ..) (by rw [dropSide_rdma]; rfl) (by rw [dropSide_rdma]; rfl)
    subst ha
    refine (replAccept_ends (s := admitted s a (max s.now t) b p q) hq hv hr).trans ?_
    rw [dropSide_admitted]
    rfl
  · refine ⟨(newReplica f s).1, (newReplica f s).2, rfl, rfl, rfl, answers_now cmdReplAccept .replAccept h hd (fun b p q a ha _ _ hk => ?_)⟩
    subst ha
    exact ⟨_, replAccept_opens (s := admitted s a (max s.now t) b p q) hq hv hr, workIs_of_places hk rfl rfl rfl rfl rfl rfl rfl⟩
  · refine answers_query cmdReplSet .replSet h hd (fun b p q a ha _ _ => ?_)
    subst ha
    exact congrArg (·, okOut [] []) ((if_pos hq).trans (replStop_off (s := admitted s a (max s.now t) b p q) hv hoff))
  · refine answers_apart cmdReplSet .replSet h hd (fun b p q a ha _ => ?_) (replies_after_dropSide ..) (by rw [dropSide_rdma]; rfl) (by rw [dropSide_rdma]; rfl)
    subst ha
    refine congrArg (·, okOut [] []) ((if_pos hq).trans ((replStop_on (s := admitted s a (max s.now t) b p q) hv hon).trans ?_))
    rw [dropSide_admitted]
    rfl
  · obtain ⟨u, v', hx, hreply, hv', ⟨h1, h2, h3, h4, h5⟩, hrest⟩ := replSet_starts hd hv h hq
    exact ⟨u, v', hx, hreply, hv', h1, h2, h3, h4, h5, hrest⟩

end Sys2Proof.Machine

namespace Sys2Proof.Machine

/-! ### The SET_PARAM that sets a port's class -/

/-- The command of a PORT_CLASS row. -/
def classFrame (f : Frame) (n : Nat) (cls : BitVec 2) : Frame := setOne f (0x0020 + n) cls.toNat 3

/-- Its one entry. -/
def classEntry (n : Nat) (cls : BitVec 2) : SetEntry := { off := 0, pid := 0x0020 + n, size := 4, value := cls.toNat, mask := 3 }

/-- The entry with its parameter and the value that it gives it. -/
def classSet (s : State) (b n : Nat) (cls : BitVec 2) : SetEntry × Param × Nat := (classEntry n cls, pClass n, entryValue s b (pClass n) (classEntry n cls))

theorem classEntry_bits (n : Nat) (cls : BitVec 2) : bits (classEntry n cls).mask 0 2 = 3 ∧ bits (classEntry n cls).mask 2 6 = 0 ∧
    bits (classEntry n cls).mask 8 8 = 0 ∧ bits (classEntry n cls).mask 16 16 = 0 ∧ bits (classEntry n cls).value 0 2 = cls.toNat := by
  refine ⟨by simp [bits, classEntry], by simp [bits, classEntry], by simp [bits, classEntry], by simp [bits, classEntry], ?_⟩
  show bits cls.toNat 0 2 = cls.toNat
  have := cls.isLt
  simp only [bits]
  omega

theorem classes (cls : BitVec 2) : cls = 0 ∨ cls = 1 ∨ cls = 2 ∨ cls = 3 := by
  revert cls
  decide

section
variable {n : Nat} (h : n < 8) (cls : BitVec 2) (f : Frame)
include h

theorem readEntries_class : readEntries (classFrame f n cls) (paramCount (classFrame f n cls)) 0 = .inr [classEntry n cls] := by
  rcases classes cls with rfl | rfl | rfl | rfl <;> interval_cases n <;> rfl

theorem payIn_class : payIn (classFrame f n cls) 4 4 0 0 = none := by
  rcases classes cls with rfl | rfl | rfl | rfl <;> interval_cases n <;> rfl

/-- The entry is refused exactly where it is out of range, whatever the state. -/
theorem entryRefuse_class (s : State) : entryRefuse s (classFrame f n cls) [] (classEntry n cls) = none ↔ cls.toNat ≤ 2 := by
  obtain ⟨hclass, h2, h8, h16, hvalue⟩ := classEntry_bits n cls
  have hfields : (pClass n).fields.findSome? (fieldCheck s (classFrame f n cls) (pClass n) (classEntry n cls)) = none ↔ cls.toNat ≤ 2 := by
    by_cases hc : cls.toNat ≤ 2 <;> simp [pClass_fields, fieldCheck, fRwl, fRsv, fRo, hclass, h2, h8, h16, hvalue, hc]
  have hrest : entryRefuse s (classFrame f n cls) [] (classEntry n cls) = (pClass n).fields.findSome? (fieldCheck s (classFrame f n cls) (pClass n) (classEntry n cls)) := by
    unfold entryRefuse
    rw [show paramOf (classEntry n cls).pid = some (pClass n) from paramOf_class h]
    dsimp only
    rw [show (classEntry n cls).off + 4 = 4 from rfl, payIn_class h]
    cases (pClass n).fields.findSome? (fieldCheck s (classFrame f n cls) (pClass n) (classEntry n cls)) <;> rfl
  rw [hrest, hfields]

theorem newValues_class (s : State) (b : Nat) : newValues s b [classEntry n cls] = [classSet s b n cls] := by
  have htouches : touches (pClass n) (classEntry n cls) = true := by
    simp [touches, pClass_fields, covers, fRwl, (classEntry_bits n cls).1]
  have hparam : paramOf (classEntry n cls).pid = some (pClass n) := paramOf_class h
  simp [newValues, hparam, htouches, classSet]

/-- What the entry can be refused for: its range, and that no port of class ADMIN would be left (R44). -/
theorem setCheck_class (hc : cls.toNat ≤ 2) (s : State) :
    setCheck s (classFrame f n cls) = (adminCheck s (classFrame f n cls) [classSet s f.berth n cls]).elim (.inr [classSet s f.berth n cls]) .inl := by
  have hone : (List.range [classEntry n cls].length).findSome?
      (fun i => ([classEntry n cls][i]?).bind (entryRefuse s (classFrame f n cls) ([classEntry n cls].take i))) = none := by
    simpa using (entryRefuse_class h cls f s).mpr hc
  have hcross : [classSet s f.berth n cls].findSome?
      (fun x => (x.2.1.cross s f.berth x.2.2).map (fun c => badIn (classFrame f n cls) x.1 c.1 c.2.1 c.2.2.1 c.2.2.2)) = none := rfl
  unfold setCheck
  rw [readEntries_class h]
  dsimp only
  rw [hone]
  dsimp only
  rw [show (classFrame f n cls).berth = f.berth from rfl, newValues_class h, hcross]
  cases adminCheck s (classFrame f n cls) [classSet s f.berth n cls] <;> rfl

theorem class_inRange {s : State} (hp : setRefuse s (classFrame f n cls) = none) : cls.toNat ≤ 2 := by
  by_contra hc
  obtain ⟨r, hr⟩ := Option.ne_none_iff_exists'.mp (mt (entryRefuse_class h cls f s).mp hc)
  have hone : (List.range [classEntry n cls].length).findSome?
      (fun i => ([classEntry n cls][i]?).bind (entryRefuse s (classFrame f n cls) ([classEntry n cls].take i))) = some r := by
    simpa using hr
  unfold setRefuse setCheck at hp
  rw [readEntries_class h] at hp
  dsimp only at hp
  rw [hone] at hp
  cases hp

/-- An entry that admission let pass passes again where the registers are the same. -/
theorem setCheck_class_passed {s u : State} (hp : setRefuse s (classFrame f n cls) = none) (hregs : u.regs = s.regs) :
    setCheck u (classFrame f n cls) = .inr [classSet u f.berth n cls] := by
  have hc := class_inRange h cls f hp
  have hvalue : classSet u f.berth n cls = classSet s f.berth n cls := by simp only [classSet, entryValue, pClass, hregs]
  have hnew : newClass u = newClass s := by
    funext l m
    rw [newClass, newClass, hregs]
  have hadmin : adminCheck u (classFrame f n cls) [classSet s f.berth n cls] = adminCheck s (classFrame f n cls) [classSet s f.berth n cls] := by
    simp only [adminCheck, hnew, hregs]
  rw [setRefuse, setCheck_class h cls f hc] at hp
  rw [setCheck_class h cls f hc, hvalue, hadmin]
  cases hn : adminCheck s (classFrame f n cls) [classSet s f.berth n cls] with
  | none => rfl
  | some r =>
    rw [hn] at hp
    cases hp

end

theorem classSet_class (s : State) (b n : Nat) (cls : BitVec 2) : bits (classSet s b n cls).2.2 0 2 = cls.toNat := by
  obtain ⟨hclass, h2, h8, h16, hvalue⟩ := classEntry_bits n cls
  have hset : (classSet s b n cls).2.2 = setBits ((pClass n).read s b) 0 2 cls.toNat := by
    simp [classSet, entryValue, pClass_fields, covers, fRwl, fRsv, fRo, hclass, h2, h8, h16, hvalue]
  have := cls.isLt
  rw [hset]
  simp only [bits, setBits]
  omega

/-- The class with the change spent. -/
def classSpent (n : Nat) (cls : BitVec 2) (s : State) : State :=
  { s with regs := { s.regs with portClass := s.regs.portClass.set n cls, portRemain := s.regs.portRemain.modify n (fun x => x - 1) } }

theorem setClass_ne {n : Nat} {cls : BitVec 2} {s : State} (h : s.regs.portClass.getD n 0 ≠ cls) : setClass n cls.toNat s = classSpent n cls s := by
  rw [setClass, if_neg (fun e => h (BitVec.eq_of_toNat_eq e)), BitVec.ofNat_toNat, BitVec.setWidth_eq]
  rfl

theorem setClass_eq {n : Nat} {cls : BitVec 2} {s : State} (h : s.regs.portClass.getD n 0 = cls) : setClass n cls.toNat s = s := by
  rw [setClass, if_pos (by rw [h])]

section
variable {n : Nat} {cls : BitVec 2} {f : Frame} {s s0 : State} {a : Active}

/-- What is left to decide when the work is done: whether the change can be spent. -/
theorem setWork_class (h : n < 8) (ha : a.frame = classFrame f n cls) (hcheck : setRefuse s0 (classFrame f n cls) = none) (hregs : s.regs = s0.regs)
    (hlog : (if writesLb (classFrame f n cls) then logOk s else none) = none) :
    setWork s a = match spendCheck s [classSet s f.berth n cls] with
      | some r => (s, failOut r)
      | none => (observeQps s (setClass n cls.toNat s), okOut [] []) := by
  have hfleet : fleetBusy s [classSet s f.berth n cls] = none := by
    have hpid : (0x0020 + n == 0x0800) = false := beq_eq_false_iff_ne.mpr (by omega)
    simp [fleetBusy, classSet, classEntry, hpid]
  have happly : applyEntries f.berth [classSet s f.berth n cls] s = observeQps s (setClass n cls.toNat s) := by
    rw [← classSet_class s f.berth n cls]
    rfl
  unfold setWork
  rw [ha, setCheck_class_passed h cls f hcheck hregs]
  dsimp only
  rw [hfleet, hlog, show (classFrame f n cls).berth = f.berth from rfl, happly]
  cases spendCheck s [classSet s f.berth n cls] <;> rfl

theorem spendCheck_class (s : State) (b n : Nat) (cls : BitVec 2) : spendCheck s [classSet s b n cls] =
    if s.regs.portClass.getD n 0 = cls then none
    else if s.regs.portRemain.getD n 0 = 0 then some (stCountExhausted, .limit (0x0020 + n) 0 1 (n + 1)) else none := by
  have hlist : (classSet s b n cls).2.1.spend s (classSet s b n cls).2.2 =
      if (s.regs.portClass.getD n 0).toNat = cls.toNat then [] else [(n + 1, 0, 1, s.regs.portRemain.getD n 0)] := by
    rw [← classSet_class s b n cls]
    rfl
  by_cases hc : s.regs.portClass.getD n 0 = cls
  · rw [if_pos hc]
    rw [if_pos (congrArg BitVec.toNat hc)] at hlist
    simp [spendCheck, hlist]
  · rw [if_neg hc]
    rw [if_neg (fun e => hc (BitVec.eq_of_toNat_eq e))] at hlist
    by_cases h0 : s.regs.portRemain.getD n 0 = 0
    · rw [if_pos h0]
      simp only [spendCheck, List.findSome?_cons, hlist, List.find?_cons, h0]
      rfl
    · rw [if_neg h0]
      simp only [List.getD_eq_getElem?_getD] at h0 hlist
      simp [spendCheck, hlist, h0]

end
/-! ### What failing queue pairs and hawser ports can change -/

/-- From `s` to `u` something may have gone out; vaults, RDMA state, hawser links and what host ports count may have changed. -/
structure LinksOnly (s u : State) : Prop where
  eq : u = { s with vaults := u.vaults, rdma := u.rdma, fresh := u.fresh, out := u.out, hawser := u.hawser, net := { s.net with ports := u.net.ports } }
  out : ∃ l, u.out = l ++ s.out
  ups : ∀ n, portUp u n = portUp s n

namespace LinksOnly

variable {s u w : State}

theorem trans (h : LinksOnly s u) (h' : LinksOnly u w) : LinksOnly s w := by
  obtain ⟨l, hl⟩ := h.out
  obtain ⟨l', hl'⟩ := h'.out
  refine ⟨?_, ⟨l' ++ l, by rw [hl', hl, List.append_assoc]⟩, fun n => (h'.ups n).trans (h.ups n)⟩
  have e := h'.eq
  rw [h.eq] at e
  exact e

theorem of_hawser (h : HawserOnly s u) : LinksOnly s u := ⟨by rw [h.eq], h.out, h.ups⟩

theorem of_replicates {f : Frame} (h : Replicates f s u) : LinksOnly s u := by
  refine ⟨by rw [h.eq], h.out, fun n => ?_⟩
  rw [h.eq]
  rfl

/-- Vaults and RDMA state may change without more. -/
theorem of_eq (h : u = { s with vaults := u.vaults, rdma := u.rdma }) : LinksOnly s u := by
  refine ⟨by rw [h], ⟨[], by rw [h]; rfl⟩, fun n => ?_⟩
  rw [h]
  rfl

theorem refl (s : State) : LinksOnly s s := of_eq rfl

section
variable (h : LinksOnly s u)
include h

theorem foldl {α : Type} {g : State → α → State} (hg : ∀ u a, LinksOnly s u → LinksOnly s (g u a)) (l : List α) : LinksOnly s (l.foldl g u) :=
  List.foldlRecOn (motive := LinksOnly s) l g h fun _ hu a _ => hg _ a hu

theorem modVault (b : Nat) (g : Vault → Vault) : LinksOnly s (modVault b g u) := h.trans (of_eq rfl)

theorem vaultEvent (b ev id st : Nat) : LinksOnly s (vaultEvent b ev id st u) := by
  unfold Machine.vaultEvent
  split
  · exact h.trans (of_hawser ((Sends.refl _).berthNotice ..).hawserOnly)
  · exact h

end
end LinksOnly

theorem replDown_links (b : Nat) (s : State) : LinksOnly s (replDown b s) := by
  unfold replDown
  split
  · exact LinksOnly.refl s
  · exact LinksOnly.vaultEvent (LinksOnly.foldl ((LinksOnly.refl s).modVault b _) (fun _ _ hu => hu.modVault b _) _) ..

/-- A failing queue pair of a sender changes to the alternate one, or ends the stream. -/
theorem replFail_links (f : Frame) (b : Nat) (s : State) : LinksOnly s (replFail b s) := by
  unfold replFail
  split
  · exact LinksOnly.refl s
  · split
    · exact LinksOnly.refl s
    · split
      · have halt : LinksOnly s (modSend b (fun r => { r with alt := true }) s) := LinksOnly.of_eq rfl
        dsimp only
        split
        · next id _ => exact halt.trans (LinksOnly.of_replicates ((Replicates.refl { f with berth := b } _).beginStream id))
        · exact halt
      · exact replDown_links b s

theorem observeQps_links (f : Frame) (s0 s : State) : LinksOnly s (observeQps s0 s) := by
  refine (LinksOnly.refl s).foldl (fun st (q : Qp) hst => ?_) _
  have herror : LinksOnly st (qpError q.qpn st) := LinksOnly.of_eq rfl
  exact LinksOnly.foldl (hst.trans herror) (fun u (v : Vault) hu => hu.trans (replFail_links f v.berth u)) _

theorem retrainAll_links (s : State) : LinksOnly s (retrainAll s) := by
  refine (LinksOnly.refl s).foldl (fun st p hst => ?_) _
  dsimp only
  split
  · exact hst.trans (LinksOnly.of_hawser (((HawserOnly.refl st).modHawserPort p _).trans (startAttempt_hawserOnly p _)))
  · exact hst.trans (LinksOnly.of_hawser (refreshPort_hawserOnly p st))

theorem setParam_after_links (s : State) (a : Active) : LinksOnly s (cmdSetParam.after s a) := by
  show LinksOnly s (if s.hawser.retrainAsked then _ else _)
  split
  · exact (LinksOnly.of_hawser (u := { s with hawser := { s.hawser with retrainAsked := false } }) ⟨rfl, ⟨[], rfl⟩, rfl, fun _ => rfl⟩).trans (retrainAll_links _)
  · exact LinksOnly.of_hawser (refreshPorts_hawserOnly s)

/-! ### A command that is answered while a drain may run -/

/-- The state from which a completing command is answered, with an uncorrectable error counted. -/
def freedCounted (a : Active) (o : WorkOut) (s : State) : State := countUe o.status (freed a s)

theorem complete_answered {a : Active} (hr : a.result = false) (ho : a.origin = none) (o : WorkOut) (s : State) :
    complete a o s = drainIdle (answer a.opcode a.frame a.sequenced o.status o.detail o.fields o.payload (freedCounted a o s)) := by
  unfold complete
  simp only [ho, hr]
  rfl

/-- A command that completes is answered through its port, and the registers stay. -/
theorem complete_replies {a : Active} (hr : a.result = false) (ho : a.origin = none) {o : WorkOut} {s w : State} (hup : portUp w a.frame.port = true)
    (hunit : fragUnit w = fragUnit s) (hout : ∃ l, w.out = l ++ s.out) :
    Replied s (complete a o w) a.opcode a.frame o.status o.detail o.fields o.payload ∧ (complete a o w).regs = w.regs := by
  obtain ⟨l, hl⟩ := hout
  have hf : freedCounted a o w = { w with
      cmds := (freedCounted a o w).cmds, hawser := (freedCounted a o w).hawser, power := (freedCounted a o w).power
      berths := (freedCounted a o w).berths, fresh := (freedCounted a o w).fresh, lb := (freedCounted a o w).lb, eng := (freedCounted a o w).eng } := by
    unfold freedCounted
    rw [countUe_frame, freed_frame]
  have hup' : portUp (freedCounted a o w) a.frame.port = true := by
    rw [hf]
    exact hup
  have hunit' : fragUnit (freedCounted a o w) = fragUnit s := by
    rw [hf]
    exact hunit
  rw [complete_answered hr ho, drainIdle_frame]
  refine ⟨⟨[], l, replyOf (freedCounted a o w) a.opcode a.frame o.status o.detail o.fields o.payload, ?_, rfl, rfl, rfl, rfl, rfl, rfl, rfl, rfl, rfl⟩, ?_⟩
  · show (answer ..).out = _
    rw [answer_out, if_pos hup', hunit', hf]
    exact congrArg _ hl
  · show (answer ..).regs = _
    rw [answer_frame]
    show (freedCounted a o w).regs = _
    rw [hf]

/-- A SET_PARAM that starts is answered with its work's outcome; of the registers, what follows the reply changes nothing. -/
theorem setParam_answered {t : Nat} {f : Frame} {s w : State} {r : Regs} {o : WorkOut} (h : Starts cmdSetParam t f s)
    (hw : setWork (running cmdSetParam t f s) (startedCmd cmdSetParam t f s) = (w, o)) (hl : LinksOnly { running cmdSetParam t f s with regs := r } w)
    (hr : r.nimoxTransport = s.regs.nimoxTransport) :
    Replied s (runCommand 0x0102 t f s) 0x0102 f o.status o.detail o.fields o.payload ∧ (runCommand 0x0102 t f s).regs = r := by
  have hun : Unhurt cmdSetParam t f s := unhurt_of_norefs (fun _ _ => rfl) (fun _ _ => rfl)
  have hrun := running_admitted (t := t) (f := f) (s := s) plain_setParam
  have hx : runCommand 0x0102 t f s = settled t f s (cmdSetParam.after (complete (startedCmd cmdSetParam t f s) o w) (startedCmd cmdSetParam t f s)) := by
    rw [show runCommand 0x0102 t f s = _ from runCommand_accept (sp := cmdSetParam) rfl h.1, accept_plain plain_setParam h hun,
      show cmdSetParam.work (running cmdSetParam t f s) (startedCmd cmdSetParam t f s) = (w, o) from hw]
  have hup : portUp w f.port = true := (hl.ups f.port).trans (running_portUp plain_setParam h.1)
  have hregs : w.regs = r := by rw [hl.eq]
  have hunit : fragUnit w = fragUnit s := by rw [fragUnit, fragUnit, hregs, hr]
  have hout : ∃ l, w.out = l ++ s.out := by
    obtain ⟨l, hl⟩ := hl.out
    refine ⟨l, hl.trans ?_⟩
    show l ++ (running cmdSetParam t f s).out = _
    rw [hrun.eq]
  obtain ⟨⟨later, earlier, y, hy, hfields⟩, hkept⟩ := complete_replies (a := startedCmd cmdSetParam t f s) rfl rfl (o := o) hup hunit hout
  have hafter := setParam_after_links (complete (startedCmd cmdSetParam t f s) o w) (startedCmd cmdSetParam t f s)
  rw [hx, settled_frame]
  obtain ⟨l, hl'⟩ := hafter.out
  refine ⟨⟨l ++ later, earlier, y, ?_, hfields⟩, ?_⟩
  · refine hl'.trans ?_
    rw [hy, List.append_assoc]
    rfl
  · show (cmdSetParam.after _ _).regs = r
    rw [hafter.eq]
    exact hkept.trans hregs

/-- Settles O27: admission has checked all but whether the change can be spent. -/
theorem portClassSpendsOneChange : Obligations.PortClassSpendsOneChange := by
  intro t f n cls s hn h
  have h' : Starts cmdSetParam t (classFrame f n cls) s := h
  have hpassed := firstSome_eq_none.mp h'.check (setRefuse (atAdmission t (classFrame f n cls) s) (classFrame f n cls)) (by simp)
  have hregs := running_regs plain_setParam t (classFrame f n cls) s
  have hlog : (if writesLb (classFrame f n cls) then logOk (running cmdSetParam t (classFrame f n cls) s) else none) = none := by
    rw [logOk, running_logbook plain_setParam, ← atAdmission_logbook t (classFrame f n cls) s]
    exact h'.needs
  have hwork := setWork_class (a := startedCmd cmdSetParam t (classFrame f n cls) s) hn rfl hpassed (hregs.trans (atAdmission_regs ..).symm) hlog
  rw [spendCheck_class, hregs] at hwork
  refine ⟨fun hne hleft => ?_, fun hne hleft => ?_, fun heq => ?_⟩
  · rw [if_neg hne, if_neg hleft, setClass_ne (by rwa [hregs])] at hwork
    have hl := observeQps_links f (running cmdSetParam t (classFrame f n cls) s) (classSpent n cls (running cmdSetParam t (classFrame f n cls) s))
    obtain ⟨hreply, hr⟩ := setParam_answered h' hwork hl (by rw [hregs])
    exact ⟨_, rfl, hreply, hr.trans (by rw [hregs])⟩
  · rw [if_neg hne, if_pos hleft] at hwork
    obtain ⟨hreply, hr⟩ := setParam_answered h' hwork (LinksOnly.refl (running cmdSetParam t (classFrame f n cls) s)) (congrArg Regs.nimoxTransport hregs)
    exact ⟨_, rfl, hreply, hr.trans hregs⟩
  · rw [if_pos heq, setClass_eq (by rwa [hregs])] at hwork
    have hl := observeQps_links f (running cmdSetParam t (classFrame f n cls) s) (running cmdSetParam t (classFrame f n cls) s)
    obtain ⟨hreply, hr⟩ := setParam_answered h' hwork hl (congrArg Regs.nimoxTransport hregs)
    exact ⟨_, rfl, hreply, hr.trans hregs⟩

end Sys2Proof.Machine

namespace Sys2Proof.Machine

/-! ### Bollards -/

theorem bollardFrame_number (f : Frame) (n : Byte) (op k : Nat) : par (bollardFrame f n op k) 0 1 = n.toNat := by
  show ofLE [n] = n.toNat
  simp [ofLE]

theorem bollardFrame_op (f : Frame) (n : Byte) {op : Nat} (h : op < 256) (k : Nat) : par (bollardFrame f n op k) 1 1 = op := by
  show getLE ([n] ++ toLE 1 op ++ toLE 2 k ++ zeros 4) 1 1 = op
  rw [List.append_assoc, List.append_assoc, getLE_append _ _ _ _ (by simp), show 1 - [n].length = 0 from rfl, getLE_toLE]
  omega

theorem bollardFrame_count (f : Frame) (n : Byte) (op : Nat) {k : Nat} (h : k < 65536) : par (bollardFrame f n op k) 2 2 = k := by
  show getLE ([n] ++ toLE 1 op ++ toLE 2 k ++ zeros 4) 2 2 = k
  rw [List.append_assoc, getLE_append _ _ _ _ (by simp), show 2 - ([n] ++ toLE 1 op).length = 0 by simp, getLE_toLE]
  omega

theorem plain_bollard : Plain cmdBollard := ⟨rfl, fun _ _ => rfl, fun _ _ => rfl, fun _ _ => rfl, fun _ _ => rfl⟩

theorem takesOn_congr {s u : State} (h : u.cmds.active = s.cmds.active) (b n : Nat) : takesOn u b n = takesOn s b n := by rw [takesOn, takesOn, h]

/-- With no TAKE waiting nothing follows the reply. -/
theorem bollardAfter_none {s : State} {a : Active} (h : takesOn s a.frame.berth (par a.frame 0 1) = []) : bollardAfter s a = s := by
  unfold bollardAfter
  rw [h]
  simp only [serveTakes, ite_self]

section
variable {t : Nat} {f : Frame} {s : State} {i : Instr}

/-- A BOLLARD that starts with no TAKE waiting is answered with its work's outcome. -/
theorem bollard_answers (hx : exec i s = .next (runCommand 0x0720 t f s)) (h : Starts cmdBollard t f s) (hd : s.dev.drain = none)
    (htakes : takesOn s f.berth (par f 0 1) = []) {w w' : State} {o : WorkOut} (hwork : bollardWork (running cmdBollard t f s) (startedCmd cmdBollard t f s) = (w', o))
    (hw : w = { s with berths := w.berths }) (hwis : WorkIs f (startedCmd cmdBollard t f s) w w') (hu : o.status ≠ stMediaUe := by exact ne_of_beq_false rfl) :
    Answers cmdBollard i f s o w := by
  have hun : Unhurt cmdBollard t f s := unhurt_of_norefs (fun _ _ => rfl) (fun _ _ => rfl)
  have hids : ∀ x ∈ w.cmds.active, x.id ≠ (startedCmd cmdBollard t f s).id := fun x hx => by
    rw [startedCmd_id]
    rw [hw] at hx
    exact Nat.ne_of_lt (ids_below h.1 x hx)
  have hd' : w.dev.drain = none := by rw [hw]; exact hd
  have hdone : (complete (startedCmd cmdBollard t f s) o w').cmds.active = s.cmds.active := by
    rw [complete_answer _ _ _ rfl rfl (by rw [hwis.eq]; exact hd') hu, answer_cmds, freed_frame]
    show (dropActive _ w').cmds.active = _
    rw [dropActive, hwis.eq]
    exact (drop_new hids).trans (by rw [hw])
  have hfin : exec i s = .next (finish cmdBollard t f s w' o) := by
    rw [hx, show runCommand 0x0720 t f s = _ from runCommand_accept (sp := cmdBollard) rfl h.1, accept_plain plain_bollard h hun,
      show cmdBollard.work (running cmdBollard t f s) (startedCmd cmdBollard t f s) = (w', o) from hwork]
    exact congrArg (fun x => Host.Outcome.next (settled t f s x)) (bollardAfter_none ((takesOn_congr hdone _ _).trans htakes))
  refine answers_of_finish hfin rfl ?_ hwis hd' hu hids ?_ (by rw [hw]) (by rw [hw]; rfl)
  · have hup : portUp (setNow t s) f.port = true := h.1.2.1.1
    have h1 : (hostPort w' f.port).linkUp = (hostPort w f.port).linkUp := by rw [hwis.places.2.1 f.port]
    have h2 : (hostPort w f.port).linkUp = (hostPort s f.port).linkUp := by rw [hw]; rfl
    have h3 : w'.dev = s.dev := by rw [hwis.eq, hw]
    have h4 : w'.pf = s.pf := by rw [hwis.eq, hw]
    unfold portUp at hup ⊢
    rw [h1, h2, h3, h4]
    exact hup
  · rw [startedCmd_id, hw]

theorem bollardCount_places {u : State} (h : PlacesKept f s u) (b n : Nat) : bollardCount u b n = bollardCount s b n := by
  rw [bollardCount, bollardCount, h.1 b]

theorem bollardCount_setBollard {b n v : Nat} {u : State} (hb : b < u.berths.length) (hn : n < (getBerth u b).bollards.length) :
    bollardCount (setBollard b n v u) b n = v := by
  rw [bollardCount, setBollard, getBerth_modBerth, if_pos ⟨rfl, hb⟩]
  simp [List.getD_eq_getElem?_getD, hn]

theorem setBollard_places {u : State} (h : PlacesKept f s u) (hl : u.berths.length = s.berths.length) (b n v : Nat) :
    PlacesKept f (setBollard b n v s) (setBollard b n v u) :=
  h.modBerth_both hl (fun x y hy => by rw [hy]) b

/-- Setting a count after admission is setting it before, where nothing but use counters came between. -/
theorem setBollard_workIs {u : State} (hu : u = { running cmdBollard t f s with berths := u.berths }) (h : PlacesKept f s u) (hl : u.berths.length = s.berths.length)
    (b n v : Nat) : WorkIs f (startedCmd cmdBollard t f s) (setBollard b n v s) (setBollard b n v u) := by
  refine ⟨?_, setBollard_places h hl b n v⟩
  rw [hu, running_eq_admitted plain_bollard]
  rfl

/-- Giving counts a saturation in the berth's use statistics and sets the count. -/
theorem give_eq (b n k : Nat) (u : State) : ∃ u', give b n k u = setBollard b n (min 65535 (bollardCount u b n + k)) u' ∧ u' = { u with berths := u'.berths } ∧
    u'.berths.length = u.berths.length ∧ PlacesKept f u u' := by
  unfold give
  dsimp only
  split
  · exact ⟨_, rfl, rfl, by simp [modBerth], PlacesKept.modBerth f b _ u (fun _ => rfl)⟩
  · exact ⟨u, rfl, rfl, rfl, PlacesKept.refl f u⟩

end

/-- What TAKE leaves. -/
def takenCount (s : State) (b n k : Nat) : Nat := bollardCount s b n - k

section
variable {s : State} {a : Active} {b n k : Nat}

theorem bollardWork_read (h : par a.frame 1 1 = 0) (hb : a.frame.berth = b) (hn : par a.frame 0 1 = n) :
    bollardWork s a = (s, okOut (toLE 2 (bollardCount s b n)) []) := by
  simp [bollardWork, h, hb, hn]

theorem bollardWork_give (h : par a.frame 1 1 = 1) (hb : a.frame.berth = b) (hn : par a.frame 0 1 = n) (hk : par a.frame 2 2 = k) :
    bollardWork s a = (give b n k s, okOut (toLE 2 (bollardCount (give b n k s) b n)) []) := by
  simp [bollardWork, h, hb, hn, hk]

theorem bollardWork_take (h : par a.frame 1 1 = 2) (hb : a.frame.berth = b) (hn : par a.frame 0 1 = n) (hk : par a.frame 2 2 = k) :
    bollardWork s a = (setBollard b n (takenCount s b n k) s, okOut (toLE 2 (bollardCount (setBollard b n (takenCount s b n k) s) b n)) []) := by
  simp [bollardWork, h, takenCount, hb, hn, hk]

theorem bollardWork_set (h : par a.frame 1 1 = 3) (hb : a.frame.berth = b) (hn : par a.frame 0 1 = n) (hk : par a.frame 2 2 = k) :
    bollardWork s a = (setBollard b n k s, okOut (toLE 2 (bollardCount (setBollard b n k s) b n)) []) := by
  simp [bollardWork, h, hb, hn, hk]

end

section
variable {t : Nat} {f : Frame} {s : State} {i : Instr}

/-- The berth of a command that reaches admission is one of the sixteen. -/
theorem berth_lt {sp : CmdSpec} (h : Accepted sp t f s) : f.berth < s.berths.length := by
  have hb := firstSome_eq_none.mp h.2.1.2.1 (need (decide (f.berth ≤ 15)) (badFrameHeader 6 1 0 15)) (by simp)
  have hle : f.berth ≤ 15 := by simpa using need_eq_none.mp hb
  rw [h.1.1]
  omega

/-- A BOLLARD whose work sets its count to `v`. -/
theorem bollard_sets (hx : exec i s = .next (runCommand 0x0720 t f s)) (h : Starts cmdBollard t f s) (hd : s.dev.drain = none)
    {n : Nat} (hnum : par f 0 1 = n) (htakes : takesOn s f.berth n = []) (hn : n < (getBerth s f.berth).bollards.length) {u : State} {v : Nat}
    (hu : u = { running cmdBollard t f s with berths := u.berths }) (hk : PlacesKept f s u) (hl : u.berths.length = s.berths.length)
    (hwork : bollardWork (running cmdBollard t f s) (startedCmd cmdBollard t f s) = (setBollard f.berth n v u,
      okOut (toLE 2 (bollardCount (setBollard f.berth n v u) f.berth n)) [])) :
    Answers cmdBollard i f s (okOut (toLE 2 v) []) (setBollard f.berth n v s) := by
  subst hnum
  have hn' : par f 0 1 < (getBerth u f.berth).bollards.length := by rw [hk.1 f.berth]; exact hn
  rw [bollardCount_setBollard (hl ▸ berth_lt h.1) hn'] at hwork
  exact bollard_answers hx h hd htakes hwork rfl (setBollard_workIs hu hk hl _ _ _)

end

/-- A TAKE waits while its count is missing, or an earlier TAKE of the bollard waits. -/
theorem bollard_wait {s : State} {a : Active} (hop : par a.frame 1 1 = 2)
    (h : bollardCount s a.frame.berth (par a.frame 0 1) < par a.frame 2 2 ∨ (takesOn s a.frame.berth (par a.frame 0 1)).any (fun x => decide (x.id < a.id)) = true) :
    cmdBollard.wait s a = 1 := if_pos ⟨hop, h⟩

section
variable {sp : CmdSpec} {t : Nat} {f : Frame} {s : State}

/-- A command of which only its own chapter's wait holds it back. -/
theorem phaseOf_waits (hT : TakesLightly sp t f s) (hprev : ∀ b ∈ s.cmds.active, b.sequenced = true → b.frame.berth = f.berth → b.frame.queue = f.queue → 3 ≤ b.phase)
    (hsus : (getBerth s f.berth).state ≠ .suspended) {ph : Nat} (hwait : sp.wait (taken sp t f s) (newActive sp f (sequenced t f s) (atAdmission t f s)) = ph) (hph : ph ≠ 3) :
    phaseOf sp (taken sp t f s) (newActive sp f (sequenced t f s) (atAdmission t f s)) = ph := by
  unfold phaseOf
  rw [if_neg, if_neg, hwait, if_pos hph]
  · exact fun h => hsus ((hT.berths _).symm.trans h.2)
  · simp only [Bool.and_eq_true, hT.active, List.any_eq_true, decide_eq_true_eq, beq_iff_eq, not_and, not_exists]
    intro _ x hx hh
    rcases List.mem_append.mp hx with hx | hx
    · exact not_lt.mpr (hprev x hx hh.1.1.2 hh.1.2 hh.2)
    · rw [List.mem_singleton] at hx
      subst hx
      exact absurd hh.1.1.1 (lt_irrefl _)

/-- A command held back in PHASE 0 or 1 stays accepted, and nothing else happens. -/
theorem accept_waits (h : Accepted sp t f s) (hT : TakesLightly sp t f s) {ph : Nat} (hlt : ph < 2)
    (hphase : phaseOf sp (taken sp t f s) (newActive sp f (sequenced t f s) (atAdmission t f s)) = ph) :
    accept sp f (sequenced t f s) (atAdmission t f s) = modActive s.cmds.nextId (fun a => { a with phase := ph }) (taken sp t f s) := by
  rw [accept_eq_tryStart]
  unfold tryStart
  rw [getActive_taken h hT]
  dsimp only
  rw [if_neg (by simp [newActive]), hphase, if_pos (by omega), if_neg (by omega)]

end

section
variable {t : Nat} {f : Frame} {n : Byte} {k : Nat} {s : State}

theorem taken_plain {sp : CmdSpec} (hp : Plain sp) (t : Nat) (f : Frame) (s : State) : taken sp t f s = enter sp f (sequenced t f s) (atAdmission t f s) := by
  rw [taken_of_take_id hp.take, hp.result]
  rfl

theorem taken_places {sp : CmdSpec} (hp : Plain sp) (t : Nat) (f : Frame) (s : State) : PlacesKept f s (taken sp t f s) := by
  rw [taken_plain hp]
  exact (atAdmission_places t f s).trans (enter_places ..)

/-- A TAKE of more than the count waits. -/
theorem take_waits (hk : k < 65536) {g : Frame} {u : State} (hu : PlacesKept g s u) (hc : (getBerth s f.berth).bollards.getD n.toNat 0 < k)
    {a : Active} (ha : a.frame = bollardFrame f n 2 k) : cmdBollard.wait u a = 1 := by
  refine bollard_wait (ha ▸ bollardFrame_op f n (by decide) k) (Or.inl ?_)
  rw [ha, bollardFrame_number, bollardFrame_count f n 2 hk, bollardCount_places hu]
  exact hc

end

/-- Settles O28. -/
theorem bollardsCount : Obligations.BollardsCount := by
  intro t f n count s hd htakes
  have hk := count.isLt
  refine ⟨fun h => ?_, fun h hn => ?_, fun h hn => ?_, fun h hn => ?_, fun h hc hprev hsus => ?_⟩
  · have hnum := bollardFrame_number f n 0 0
    have hrun := running_admitted (t := t) (f := bollardFrame f n 0 0) (s := s) plain_bollard
    refine bollard_answers (t := t) rfl h hd (by rw [hnum]; exact htakes) ((bollardWork_read (bollardFrame_op f n (by decide) 0) rfl hnum).trans ?_) rfl ⟨?_, hrun.places⟩
    · exact congrArg (fun c => (running cmdBollard t (bollardFrame f n 0 0) s, okOut (toLE 2 c) [])) (bollardCount_places hrun.places _ _)
    · rw [running_eq_admitted plain_bollard]
      rfl
  · have hrun := running_admitted (t := t) (f := bollardFrame f n 1 count.toNat) (s := s) plain_bollard
    obtain ⟨u, hgive, hu, hl, hp⟩ := give_eq (f := bollardFrame f n 1 count.toNat) f.berth n.toNat count.toNat (running cmdBollard t (bollardFrame f n 1 count.toNat) s)
    rw [bollardCount_places hrun.places] at hgive
    have hwork := bollardWork_give (s := running cmdBollard t (bollardFrame f n 1 count.toNat) s) (a := startedCmd cmdBollard t (bollardFrame f n 1 count.toNat) s)
      (bollardFrame_op f n (by decide) _) (rfl : _ = f.berth) (bollardFrame_number ..) (bollardFrame_count f n 1 hk)
    rw [hgive] at hwork
    exact bollard_sets (i := .bollardGive t f n count) rfl h hd (bollardFrame_number ..) htakes hn hu (hrun.places.trans hp) (hl.trans (length_of_berths plain_bollard ..)) hwork
  · have hrun := running_admitted (t := t) (f := bollardFrame f n 2 count.toNat) (s := s) plain_bollard
    have hc : bollardCount (running cmdBollard t (bollardFrame f n 2 count.toNat) s) f.berth n.toNat = bollardCount s f.berth n.toNat := bollardCount_places hrun.places ..
    have hwork := bollardWork_take (s := running cmdBollard t (bollardFrame f n 2 count.toNat) s) (a := startedCmd cmdBollard t (bollardFrame f n 2 count.toNat) s)
      (bollardFrame_op f n (by decide) _) (rfl : _ = f.berth) (bollardFrame_number ..) (bollardFrame_count f n 2 hk)
    rw [takenCount, hc] at hwork
    refine ⟨?_, bollard_sets (i := .bollardTake t f n count) rfl h hd (bollardFrame_number ..) htakes hn rfl hrun.places (length_of_berths plain_bollard ..) hwork⟩
    by_contra hlt
    have hwait := h.2.2.2.2
    rw [take_waits hk (taken_places plain_bollard t _ s) (Nat.lt_of_not_le hlt)] at hwait
    · exact absurd hwait (by decide)
    · rfl
  · have hrun := running_admitted (t := t) (f := bollardFrame f n 3 count.toNat) (s := s) plain_bollard
    exact bollard_sets (i := .bollardSet t f n count) rfl h hd (bollardFrame_number ..) htakes hn rfl hrun.places (length_of_berths plain_bollard ..)
      (bollardWork_set (bollardFrame_op f n (by decide) _) rfl (bollardFrame_number ..) (bollardFrame_count f n 3 hk))
  · have hT := takesLightly_of_take_id plain_bollard.take t (bollardFrame f n 2 count.toNat) s
    have hplaces := taken_places plain_bollard t (bollardFrame f n 2 count.toNat) s
    have hwaits := accept_waits h hT (by decide) (phaseOf_waits hT hprev hsus (take_waits hk hplaces hc rfl) (by decide))
    have hx : exec (.bollardTake t f n count) s = _ := congrArg Host.Outcome.next (runCommand_accept (sp := cmdBollard) rfl h)
    rw [hwaits, settled_frame] at hx
    refine ⟨_, { newActive cmdBollard (bollardFrame f n 2 count.toNat) (sequenced t (bollardFrame f n 2 count.toNat) s) (atAdmission t (bollardFrame f n 2 count.toNat) s) with
      phase := 1 }, hx, ?_, by simp [newActive], rfl, ?_, fun b => ?_⟩
    · refine List.mem_map.mpr ⟨_, by rw [hT.active]; exact List.mem_append_right _ (List.mem_singleton_self _), ?_⟩
      rw [if_pos (by simp [newActive])]
    · show (taken cmdBollard t (bollardFrame f n 2 count.toNat) s).out = s.out
      rw [taken_plain plain_bollard, (enter_out _ _).1, atAdmission_out]
    · show (getBerth (taken cmdBollard t (bollardFrame f n 2 count.toNat) s) b).bollards = _
      rw [hplaces.1 b]

end Sys2Proof.Machine

namespace Sys2Proof.Machine

/-! ### An alert without the power state's bound -/

/-- A module in READY whose power state is none of Table 2.12: no statement of `Sound` keeps it within P3. -/
def beyondP3 : State := { tstReady with power := { tstReady.power with current := 4 } }

theorem alert_arrives_beyondP3 : AlertArrives 0 (tstAlert 0) beyondP3 := by
  refine ⟨⟨by decide +kernel, by decide +kernel, by decide +kernel⟩, ?_⟩
  decide +kernel

/-- The alert's command waits in PHASE 2 for an exit from a power state deeper than the depth that it asks for. -/
theorem alert_unanswered_beyondP3 : ∀ u, exec (.braceAlert 0 (tstAlert 0)) beyondP3 = .next u → u.out = [] := by
  have h : (match exec (.braceAlert 0 (tstAlert 0)) beyondP3 with | .next u => u.out.isEmpty | _ => true) = true := by decide +kernel
  intro u hu
  rw [hu] at h
  exact List.isEmpty_iff.mp h

/-- Refutes O29: nothing in the statement bounds the power state (`Sound` does not either), and in a power state beyond P3, which is deeper
than the depth a command asks for by default, an alert of DURATION 0 is not answered in its step. -/
theorem not_alertsBraceTheModule : ¬ Obligations.AlertsBraceTheModule := by
  intro h
  obtain ⟨hquery, -⟩ := h 0 (tstAlert 0) beyondP3 alert_arrives_beyondP3 rfl
  obtain ⟨u, hx, ⟨later, earlier, r, hout, -⟩, -⟩ := hquery (by decide +kernel) (by decide +kernel)
  rw [alert_unanswered_beyondP3 u hx] at hout
  simp at hout

end Sys2Proof.Machine

namespace Sys2Proof.Machine

/-! ### DRAIN and RESET -/

/-- A drain that has just begun, from `s` to `u`: the drain in force and, outside BRACED, the state DRAINING; nothing that a namespace
or a hold is made of changes. -/
structure DrainBegun (d : Drain) (s u : State) : Prop where
  eq : u = { s with dev := u.dev, media := { s.media with service := u.media.service }, power := { s.power with exitTo := u.power.exitTo } }
  drain : u.dev.drain = some d
  braced : s.dev.state = .braced → u.dev.state = .braced
  other : s.dev.state ≠ .braced → u.dev.state = .draining ∧ u.dev.prev = s.dev.state

theorem drainIdle_waits {s : State} (h : s.cmds.active ≠ []) : drainIdle s = s := by
  unfold drainIdle
  simp only [List.isEmpty_iff, h, and_false, if_false]
  split <;> rfl

/-- While commands are accepted a drain that begins goes no further. -/
theorem startDrain_begun {s : State} (h : s.cmds.active ≠ []) (r : Bool) (n : Nat) (b : Bool) :
    DrainBegun { thenReset := r, holdNs := n, stage := .running, since := s.now, fromSideband := b } s (startDrain r n b s) := by
  unfold startDrain
  by_cases hb : s.dev.state = .braced
  · rw [if_pos hb]
    dsimp only
    rw [drainIdle_waits]
    · exact ⟨rfl, rfl, fun _ => hb, fun hn => absurd hb hn⟩
    · exact h
  · rw [if_neg hb, wakeAll_eq]
    dsimp only
    rw [drainIdle_waits]
    · exact ⟨rfl, rfl, fun h' => absurd h' hb, fun _ => ⟨rfl, rfl⟩⟩
    · exact h

/-- The drain goes on to the time for results exactly when no command is accepted. -/
theorem drainIdle_running {s : State} {d : Drain} (hd : s.dev.drain = some d) (hr : d.stage = .running) :
    (drainIdle s).dev = { s.dev with drain := some (if s.cmds.active = [] then { d with stage := .holding, since := s.now } else d) } := by
  unfold drainIdle
  rw [hd]
  by_cases he : s.cmds.active = []
  · simp [hr, he]
  · simp only [hr, List.isEmpty_iff, he, and_false, if_false]
    rw [← hd]

theorem stillActive_running {s : State} (h : ∀ x ∈ s.cmds.active, x.id < s.cmds.nextId) {sp : CmdSpec} {t : Nat} {f : Frame} {u : State}
    (hu : u.cmds = (running sp t f s).cmds) : stillActive u (startedCmd sp t f s) = s.cmds.active.length := by
  have hnew := startedCmd_id sp t f s
  have hact : u.cmds.active = s.cmds.active ++ [startedCmd sp t f s] := by rw [hu, running_eq_withNew]; rfl
  rw [stillActive, hact]
  exact congrArg List.length (drop_new fun a ha => by rw [hnew]; exact Nat.ne_of_lt (h a ha))

/-- What `d` holds after a DRAIN or a RESET of the frame (R433, R434). -/
def DrainOf (reset : Bool) (t : Nat) (f : Frame) (s : State) (d : Drain) : Prop :=
  d.thenReset = reset ∧ d.holdNs = par f 0 2 * 1000000000 ∧ d.fromSideband = false ∧
  (s.cmds.active ≠ [] → d.stage = .running) ∧ (s.cmds.active = [] → d.stage = .holding) ∧ d.since = max s.now t

/-- That drain. -/
def drainOf (reset : Bool) (t : Nat) (f : Frame) (s : State) : Drain :=
  { thenReset := reset, holdNs := par f 0 2 * 1000000000, stage := if s.cmds.active = [] then .holding else .running, since := max s.now t, fromSideband := false }

theorem drainOf_holds (reset : Bool) (t : Nat) (f : Frame) (s : State) : DrainOf reset t f s (drainOf reset t f s) :=
  ⟨rfl, rfl, rfl, fun h => if_neg h, fun h => if_pos h, rfl⟩

theorem portUp_of_draining {d : Drain} {s u : State} (h : DrainBegun d s u) {n : Nat} (hup : portUp s n = true) : portUp u n = true := by
  have hstate : u.dev.state ≠ .powered := by
    by_cases hb : s.dev.state = .braced
    · rw [h.braced hb]; decide
    · rw [(h.other hb).1]; decide
  have hport : hostPort u n = hostPort s n := by rw [h.eq]; rfl
  have hflush : u.pf = s.pf := by rw [h.eq]
  simp only [portUp, Bool.and_eq_true, bne_iff_ne] at hup ⊢
  rw [hport, hflush]
  exact ⟨⟨hup.1.1, hstate⟩, hup.2⟩

section
variable {sp : CmdSpec} {row : Nat → Frame → Instr} {t : Nat} {f : Frame} {s : State} {r : Bool}

/-- A command whose work begins a drain. -/
theorem drain_begins (hrow : (⟨sp, row, id⟩ : CmdRow) ∈ quickRows) (hs : Starts sp t f s) (hn : Unhurt sp t f s)
    (hwork : ∀ s a, sp.work s a = (startDrain r (par a.frame 0 2 * 1000000000) false s,
      okOut (toLE 4 (stillActive (startDrain r (par a.frame 0 2 * 1000000000) false s) a)) [])) :
    ∃ u d, exec (row t f) s = .next u ∧ Replied s u sp.opcode f stOk .none (toLE 4 s.cmds.active.length) [] ∧
      (s.dev.state = .braced → u.dev.state = .braced) ∧ (s.dev.state ≠ .braced → u.dev.state = .draining ∧ u.dev.prev = s.dev.state) ∧
      u.dev.drain = some d ∧ DrainOf r t f s d ∧ u.media.nss = s.media.nss ∧ u.media.holds = s.media.holds := by
  have hp : Plain sp := quickRows_plain _ hrow
  have hrun := running_eq_admitted hp t f s
  have hact : (running sp t f s).cmds.active ≠ [] := by
    rw [hrun]
    exact List.append_ne_nil_of_right_ne_nil _ (List.cons_ne_nil _ _)
  set w := startDrain r (par f 0 2 * 1000000000) false (running sp t f s) with hw
  have hb : DrainBegun _ (running sp t f s) w := startDrain_begun hact ..
  have hcount : stillActive w (startedCmd sp t f s) = s.cmds.active.length := stillActive_running hs.1.1.2.1 (by rw [hb.eq])
  have hx := exec_finish hrow hs hn (hwork _ _)
  rw [show (startedCmd sp t f s).frame = f from rfl, ← hw, hcount] at hx
  have hout : w.out = s.out := by rw [hb.eq, hrun]; rfl
  have hunit : fragUnit w = fragUnit s := by
    rw [fragUnit, hb.eq, hrun]
    rfl
  obtain ⟨hrep, -⟩ := complete_replies (a := startedCmd sp t f s) hp.result rfl (o := okOut (toLE 4 s.cmds.active.length) [])
    (portUp_of_draining hb (running_portUp hp hs.1)) hunit ⟨[], hout⟩
  have hdone : complete (startedCmd sp t f s) (okOut (toLE 4 s.cmds.active.length) []) w = _ := complete_answered hp.result rfl _ _
  set x := answer sp.opcode f (sequenced t f s) stOk .none (toLE 4 s.cmds.active.length) [] (freed (startedCmd sp t f s) w) with hxdef
  have hx' : complete (startedCmd sp t f s) (okOut (toLE 4 s.cmds.active.length) []) w = drainIdle x := hdone
  have hframe : x = { w with
      cmds := x.cmds, hawser := x.hawser, power := x.power, berths := x.berths, fresh := x.fresh, net := x.net, out := x.out } := by
    rw [hxdef, answer_frame, freed_frame]
  have hleft : x.cmds.active = s.cmds.active := by
    rw [hxdef, answer_cmds, freed_frame]
    show (dropActive _ w).cmds.active = _
    rw [dropActive, hb.eq, hrun]
    exact drop_new fun a ha => by rw [startedCmd_id]; exact Nat.ne_of_lt (ids_below hs.1 a ha)
  have hxdrain : x.dev.drain = some _ := (congrArg (fun y : State => y.dev.drain) hframe).trans hb.drain
  have hdev := drainIdle_running hxdrain rfl
  rw [hleft] at hdev
  obtain ⟨hsdev, hsnow, hsmedia⟩ : (running sp t f s).dev = s.dev ∧ (running sp t f s).now = max s.now t ∧ (running sp t f s).media = s.media := by
    rw [hrun]
    exact ⟨rfl, rfl, rfl⟩
  have hxdev : x.dev = w.dev := by rw [hframe]
  have hxnow : x.now = max s.now t := by rw [hframe, ← hsnow, hb.eq]
  have hend : settled t f s (drainIdle x) = { drainIdle x with net := (settled t f s (drainIdle x)).net } := settled_frame ..
  have hmedia : (settled t f s (drainIdle x)).media = { s.media with service := w.media.service } := by
    rw [hend, drainIdle_frame, hframe, ← hsmedia, hb.eq]
  have hstate : (settled t f s (drainIdle x)).dev.state = w.dev.state ∧ (settled t f s (drainIdle x)).dev.prev = w.dev.prev := by
    rw [hend]
    dsimp only
    rw [hdev, hxdev]
    exact ⟨rfl, rfl⟩
  obtain ⟨later, earlier, y, hy, hfields⟩ := hrep
  rw [hx'] at hy
  have hforce : (settled t f s (drainIdle x)).dev.drain = some (drainOf r t f s) := by
    rw [hend]
    refine (congrArg Device.drain hdev).trans (congrArg some ?_)
    rw [hxnow, hsnow, drainOf]
    split <;> rfl
  refine ⟨settled t f s (drainIdle x), drainOf r t f s, hx.trans (by rw [finish, hx']), ⟨later, earlier, y, by rw [hend]; exact hy, hfields⟩, fun h => ?_, fun h => ?_, hforce,
    drainOf_holds r t f s, ?_, ?_⟩
  · rw [hstate.1]
    exact hb.braced (hsdev ▸ h)
  · rw [hstate.1, hstate.2, ← hsdev]
    exact hb.other (hsdev ▸ h)
  · rw [hmedia]
  · rw [hmedia]

theorem Starts.device {t : Nat} {f : Frame} {s : State} (h : Starts sp t f s) : sp.device (judgedState (atAdmission t f s)) f = true := by
  simpa using need_eq_none.mp (firstSome_eq_none.mp h.1.2.2.2 (need (sp.device (judgedState (atAdmission t f s)) f) conflictNone) (by simp))

end

/-- Settles O30. -/
theorem drainAndResetBegin : Obligations.DrainAndResetBegin := by
  refine fun t f s => ⟨fun h => ?_, fun h => ?_⟩
  · have hready : s.dev.state = .ready := by
      have hdev := h.device
      unfold judgedState at hdev
      split at hdev
      · exact absurd (show (DevState.draining == .ready) = true from hdev) (by decide)
      · have hstate : ((atAdmission t f s).dev.state == .ready) = true := hdev
        simpa using hstate
    have hnot : s.dev.state ≠ .braced := by rw [hready]; decide
    obtain ⟨u, d, hx, hrep, -, hother, hdrain, hof, hmedia⟩ := drain_begins (sp := cmdDrain) (row := .drain) (r := false) (by simp [quickRows]) h
      (unhurt_of_norefs (fun _ _ => rfl) (fun _ _ => rfl)) (fun _ _ => rfl)
    exact ⟨u, d, hx, hrep, (hother hnot).1, (hother hnot).2.trans hready, hdrain, hof, hmedia⟩
  · obtain ⟨u, d, hx, hrep, hbraced, hother, hdrain, hof, hmedia⟩ := drain_begins (sp := cmdReset) (row := .reset) (r := true) (by simp [quickRows]) h
      (unhurt_of_norefs (fun _ _ => rfl) (fun _ _ => rfl)) (fun _ _ => rfl)
    exact ⟨u, d, hx, hrep, fun hready => (hother (by rw [hready]; decide)).1, hbraced, hdrain, hof, hmedia⟩

end Sys2Proof.Machine

namespace Sys2Proof.Machine

/-! ### What completing a command leaves -/

/-- The state in which a completing command is answered or its result goes out. -/
theorem freedCounted_frame (a : Active) (o : WorkOut) (s : State) : freedCounted a o s = { s with
    cmds := (dropActive a.id s).cmds, hawser := (freedCounted a o s).hawser, power := (freedCounted a o s).power
    berths := (freedCounted a o s).berths, fresh := (freedCounted a o s).fresh, lb := (freedCounted a o s).lb, eng := (freedCounted a o s).eng } := by
  rw [freedCounted, countUe_frame, freed_frame]

theorem storeResult_frame (a : Active) (o : WorkOut) (s : State) : storeResult a o s = { s with
    out := (storeResult a o s).out, hawser := (storeResult a o s).hawser, net := (storeResult a o s).net
    cmds := { s.cmds with slots := (storeResult a o s).cmds.slots } } := by
  unfold storeResult
  split
  · rfl
  · split
    · unfold resultReady
      dsimp only
      split
      · split
        · rw [((Sends.refl _).sendNotice ..).eq]
          rfl
        · rfl
      · rfl
    · rfl
    · rfl

theorem sendResult_frame (d b tag : Nat) (k : StatusBlock) (c : Bytes) (s : State) : sendResult d b tag k c s = { s with
    out := (sendResult d b tag k c s).out, hawser := (sendResult d b tag k c s).hawser, net := (sendResult d b tag k c s).net } := by
  have h : Sends s (sendResult d b tag k c s) := (Sends.refl s).sendMessage ..
  conv_lhs => rw [h.eq]
  rw [h.eq]

/-- A command that completes is accepted no longer; namespaces, holds, registers and the logbook keep what they hold. -/
theorem complete_frame (a : Active) (o : WorkOut) (s : State) : complete a o s = { s with
    out := (complete a o s).out, fresh := (complete a o s).fresh, hawser := (complete a o s).hawser, net := (complete a o s).net, power := (complete a o s).power
    berths := (complete a o s).berths, lb := (complete a o s).lb, eng := (complete a o s).eng, dev := (complete a o s).dev, vaults := (complete a o s).vaults
    rdma := (complete a o s).rdma, cmds := { (dropActive a.id s).cmds with slots := (complete a o s).cmds.slots } } := by
  unfold complete
  dsimp only
  rw [drainIdle_frame, show countUe o.status (unitsReleased a (dropWork a.id (dropActive a.id s))) = freedCounted a o s from rfl, freedCounted_frame]
  split
  · rw [sendResult_frame]
  · split
    · rw [storeResult_frame]
    · rw [answer_frame]

/-! ### The logbook's operations -/

theorem mem_insertBy {α : Type} (le : α → α → Bool) (a : α) (l : List α) (x : α) : x ∈ insertBy le a l ↔ x = a ∨ x ∈ l := by
  induction l with
  | nil => simp [insertBy]
  | cons b l ih =>
    rw [insertBy]
    split
    · simp
    · simp only [List.mem_cons, ih]
      tauto

theorem find_insertBy_of_not {α : Type} (le : α → α → Bool) {a : α} {p : α → Bool} (h : p a = false) (l : List α) : (insertBy le a l).find? p = l.find? p := by
  induction l with
  | nil => simp [insertBy, h]
  | cons b l ih =>
    rw [insertBy]
    split
    · rw [List.find?_cons, h]
    · rw [List.find?_cons, List.find?_cons, ih]

theorem find_insertBy_new {α : Type} (le : α → α → Bool) {a : α} {p : α → Bool} (h : p a = true) {l : List α} (hl : ∀ x ∈ l, p x = false) : (insertBy le a l).find? p = some a := by
  induction l with
  | nil => simp [insertBy, h]
  | cons b l ih =>
    rw [insertBy]
    split
    · rw [List.find?_cons, h]
    · rw [List.find?_cons, hl b (List.mem_cons_self), ih fun x hx => hl x (List.mem_cons_of_mem _ hx)]

section
variable (a : Nat) (v : BitVec 64) (s : State) (x : Nat)

theorem wordProgrammed_programWord : wordProgrammed (programWord a v s) x = (x == a || wordProgrammed s x) := by
  rw [Bool.eq_iff_iff]
  simp only [wordProgrammed, programWord, List.any_eq_true, mem_insertBy, Bool.or_eq_true, beq_iff_eq]
  constructor
  · rintro ⟨w, rfl | hw, rfl⟩
    · exact Or.inl rfl
    · exact Or.inr ⟨w, hw, rfl⟩
  · rintro (rfl | ⟨w, hw, rfl⟩)
    · exact ⟨(x, v), Or.inl rfl, rfl⟩
    · exact ⟨w, Or.inr hw, rfl⟩

theorem wordValue_programWord_ne {x : Nat} (h : x ≠ a) : wordValue (programWord a v s) x = wordValue s x := by
  rw [wordValue, programWord]
  dsimp only
  rw [find_insertBy_of_not _ (by simpa using Ne.symm h)]
  rfl

theorem wordValue_programWord_same (h : wordProgrammed s a = false) : wordValue (programWord a v s) a = v := by
  rw [wordValue, programWord]
  dsimp only
  rw [find_insertBy_new _ (by simp) (fun w hw => by simpa using List.any_eq_false.mp h w hw)]
  rfl

theorem wordProgrammed_eraseSector (l : Nat) : wordProgrammed (eraseSector l s) x = (wordProgrammed s x && x / 512 != l) := by
  rw [Bool.eq_iff_iff]
  simp only [wordProgrammed, eraseSector, List.any_eq_true, List.mem_filter, Bool.and_eq_true, beq_iff_eq]
  constructor
  · rintro ⟨w, ⟨hw, hl⟩, rfl⟩
    exact ⟨⟨w, hw, rfl⟩, hl⟩
  · rintro ⟨⟨w, hw, rfl⟩, hl⟩
    exact ⟨w, ⟨hw, hl⟩, rfl⟩

end

section
variable {k : Nat} {s : State} {o : BankOp} {l : List BankOp}

theorem bankOps_modBank (h : k < s.logLive.ops.length) (g : List BankOp → List BankOp) : bankOps (modBank k g s) k = g (bankOps s k) := by
  simp [bankOps, modBank, List.getD_eq_getElem?_getD, h]

theorem lt_of_bankOps (h : bankOps s k = o :: l) : k < s.logLive.ops.length := by
  by_contra hk
  rw [bankOps, List.getD_eq_default _ _ (Nat.le_of_not_lt hk)] at h
  cases h

/-- The last operation of a bank ends, and its command with it. -/
theorem finishOp_last (h : bankOps s k = [o]) (out : WorkOut) :
    (finishOp k out s).logbook = s.logbook ∧ bankOps (finishOp k out s) k = [] ∧ getActive (finishOp k out s) o.cmd = none := by
  have hops : bankOps (modBank k (fun l => l.drop 1) s) k = [] := by rw [bankOps_modBank (lt_of_bankOps h), h]; rfl
  unfold finishOp
  rw [h]
  dsimp only
  split
  · next a ha =>
    have hid : a.id = o.cmd := by simpa using List.find?_some ha
    rw [complete_frame]
    refine ⟨rfl, hops, ?_⟩
    rw [← hid]
    simp [getActive, dropActive]
  · next ha => exact ⟨rfl, hops, ha⟩

theorem beginOps_zero (k : Nat) (s : State) : beginOps k 0 s = s := rfl

/-- A finished word program with more to come. -/
theorem opAdvance_next (hk : o.kind = 1) (h1 : 1 < o.left) : opAdvance k o s =
    modBank k (fun l => { o with left := o.left - 1 } :: l.drop 1) (programWord (o.sector * 512 + o.word + (o.total - o.left)) (o.words.getD (o.total - o.left) 0) s) := by
  rw [opAdvance, if_pos hk]
  exact if_neg (by omega)

/-- The last word program of an operation that no other waits for. -/
theorem opAdvance_last_word (hk : o.kind = 1) (h1 : o.left ≤ 1) (h : bankOps s k = [o]) : opAdvance k o s =
    finishOp k (okOut [] []) (programWord (o.sector * 512 + o.word + (o.total - o.left)) (o.words.getD (o.total - o.left) 0) s) := by
  rw [opAdvance, if_pos hk]
  refine (if_pos h1).trans ?_
  dsimp only
  rw [(finishOp_last (s := programWord _ _ s) h _).2.1]
  rfl

theorem opAdvance_last_sector (hk : o.kind = 2) (h1 : o.left ≤ 1) (h : bankOps s k = [o]) : opAdvance k o s = finishOp k (okOut [] []) (eraseSector o.sector s) := by
  rw [opAdvance, if_neg (by omega), if_pos hk]
  refine (if_pos h1).trans ?_
  dsimp only
  rw [(finishOp_last (s := eraseSector _ s) h _).2.1]
  rfl

end

section
variable {t k : Nat} {s : State} {o : BankOp} {l : List BankOp}

theorem operationComplete_none (ok : Bool) (h : alive s = false ∨ bankOps s k = []) : exec (.logbookOperationComplete t k ok) s = .next (setNow t s) := by
  show execLogbookOperationComplete t k ok s = _
  unfold execLogbookOperationComplete
  dsimp only
  split
  · rfl
  · next ha =>
    have hops : bankOps (setNow t s) k = [] := h.resolve_left fun hf => ha (by rw [Bool.not_eq_true']; exact hf)
    rw [hops]

theorem operationComplete_ok (ha : alive s = true) (h : bankOps s k = o :: l) : exec (.logbookOperationComplete t k true) s = .next (opAdvance k o (setNow t s)) := by
  show execLogbookOperationComplete t k true s = _
  have ha' : alive (setNow t s) = true := ha
  have h' : bankOps (setNow t s) k = o :: l := h
  simp [execLogbookOperationComplete, ha', h']

theorem operationComplete_again (ha : alive s = true) (h : bankOps s k = o :: l) {s2 : State} (hr : retireSector o.sector (if o.kind = 2 then 2 else 1) (setNow t s) = some s2) :
    exec (.logbookOperationComplete t k false) s = .next (opAdvance k o s2) := by
  show execLogbookOperationComplete t k false s = _
  have ha' : alive (setNow t s) = true := ha
  have h' : bankOps (setNow t s) k = o :: l := h
  simp [execLogbookOperationComplete, ha', h', hr]

theorem operationComplete_exhausted (ha : alive s = true) (h : bankOps s k = [o]) (hr : retireSector o.sector (if o.kind = 2 then 2 else 1) (setNow t s) = none) :
    exec (.logbookOperationComplete t k false) s = .next (finishOp k (failOut logExhausted) (logReadOnly (setNow t s))) := by
  show execLogbookOperationComplete t k false s = _
  have ha' : alive (setNow t s) = true := ha
  have h' : bankOps (setNow t s) k = [o] := h
  have hlast : bankOps (finishOp k (failOut logExhausted) (logReadOnly (setNow t s))) k = [] := (finishOp_last (s := logReadOnly (setNow t s)) h _).2.1
  simp [execLogbookOperationComplete, ha', h', hr, hlast, beginOps_zero]

theorem retireSector_some {n c : Nat} {s2 : State} (h : retireSector n c s = some s2) :
    s2.logbook.bad.length = s.logbook.bad.length + 1 ∧ s2.logLive.ops = s.logLive.ops ∧ s2.logbook.words = s.logbook.words := by
  unfold retireSector at h
  dsimp only at h
  split at h
  · cases h
  · split at h
    · cases h
    · cases h
      exact ⟨by simp, rfl, rfl⟩

end

/-! ### System compaction -/

section
variable {t n : Nat} {s : State}

theorem compaction_idle (h : n = 0 ∨ n = 7 ∨ 8 < n ∨ (∃ l ∈ s.logLive.ops, ∃ o ∈ l, o.kind = 3)) : exec (.logbookCompaction t n) s = .next (setNow t s) := by
  show execLogbookCompaction t n s = _
  unfold execLogbookCompaction
  dsimp only
  split
  · rfl
  · refine if_neg ?_
    rintro ⟨-, h1, h2, h3, h4⟩
    rcases h with h | h | h | ⟨l, hl, o, ho, hk⟩
    · omega
    · omega
    · omega
    · have hno : (s.logLive.ops.any fun l => l.any fun o => o.kind == 3) = false := by simpa using h4
      have hyes : (s.logLive.ops.any fun l => l.any fun o => o.kind == 3) = true := List.any_eq_true.mpr ⟨l, hl, List.any_eq_true.mpr ⟨o, ho, by simpa using hk⟩⟩
      rw [hno] at hyes
      cases hyes

/-- The operation of a due compaction. -/
def compactionOp (t n : Nat) (s : State) : BankOp :=
  { cmd := s.cmds.nextId, kind := 3, sector := if n = 8 then 1984 else (logRegions.getD n (0, 0, 0)).1, word := 0, total := 1, left := 1, began := max s.now t, words := [] }

/-- An operation that waits, or that meets no programmed word, joins its bank's. -/
theorem pushOp_joins {k : Nat} {o : BankOp} (hk : bankOps s k ≠ [] ∨ o.kind = 3 ∨ (o.kind = 1 ∧ firstProgrammed s o = none)) (hb : o.began = s.now)
    (hlt : k < s.logLive.ops.length) : ∃ ops, pushOp k o s = { s with logLive := { s.logLive with ops := ops } } ∧ ops.getD k [] = bankOps s k ++ [o] := by
  have hpush : bankOps (modBank k (fun l => l ++ [o]) s) k = bankOps s k ++ [o] := bankOps_modBank hlt _
  unfold pushOp
  dsimp only
  split
  · next he =>
    have hidle := List.isEmpty_iff.mp he
    have hbegan : ({ o with began := (modBank k (fun l => l ++ [o]) s).now } : BankOp) = o := by rw [show (modBank k (fun l => l ++ [o]) s).now = o.began from hb.symm]
    rw [hidle, List.nil_append] at hpush ⊢
    refine ⟨(modBank k (fun l => l ++ [o]) s).logLive.ops.modify k (fun _ => [o]), ?_, ?_⟩
    · rw [beginOps, hpush]
      dsimp only
      rw [hbegan]
      rcases hk with hk | hk | ⟨hk, hfree⟩
      · exact absurd hidle hk
      · rw [if_neg (by omega), if_neg (by omega)]
        rfl
      · rw [if_pos hk, show firstProgrammed (modBank k (fun l => l ++ [o]) s) o = none from hfree]
        rfl
    · simp [List.getD_eq_getElem?_getD, modBank, hlt]
  · exact ⟨_, rfl, hpush⟩

/-- An operation on an idle bank that meets a programmed word ends at once. -/
theorem pushOp_fails {k : Nat} {o : BankOp} (hk : o.kind = 1) (hidle : bankOps s k = []) {a : Nat} (hf : firstProgrammed s o = some a) (hlt : k < s.logLive.ops.length)
    {c : Active} (hc : getActive s o.cmd = some c) : ∃ ops, pushOp k o s =
      complete c { status := stNotErased, detail := .integrity kSector (a / 512) a } { s with logLive := { s.logLive with ops := ops } } := by
  have hpush : bankOps (modBank k (fun l => l ++ [o]) s) k = [o] := by rw [bankOps_modBank hlt, hidle]; rfl
  unfold pushOp
  rw [hidle]
  refine ⟨((modBank k (fun l => l ++ [o]) s).logLive.ops.modify k (fun l => l.drop 1)), ?_⟩
  refine (if_pos rfl).trans ?_
  rw [beginOps, hpush]
  dsimp only
  rw [if_pos hk, show firstProgrammed (modBank k (fun l => l ++ [o]) s) o = some a from hf]
  dsimp only [beginOps]
  unfold finishOp
  rw [hpush]
  dsimp only
  rw [show getActive (modBank k (fun l => l.drop 1) (modBank k (fun l => l ++ [o]) s)) o.cmd = some c from hc]
  rfl

end

/-- A due compaction joins its bank's operations. -/
theorem compaction_due {t n : Nat} {s : State} (ha : alive s = true) (h1 : 1 ≤ n) (h8 : n ≤ 8) (h7 : n ≠ 7) (hno : ∀ l ∈ s.logLive.ops, ∀ o ∈ l, o.kind ≠ 3)
    (h4 : s.logLive.ops.length = 4) : ∃ u o, exec (.logbookCompaction t n) s = .next u ∧
      bankOps u (if n = 8 then 2 else 0) = bankOps s (if n = 8 then 2 else 0) ++ [o] ∧ o.kind = 3 ∧ o.cmd = s.cmds.nextId ∧
      u = { s with now := max s.now t, logLive := { s.logLive with ops := u.logLive.ops }, cmds := { s.cmds with nextId := s.cmds.nextId + 1 } } := by
  have hlive : alive (setNow t s) = true := ha
  have hstate : (setNow t s).dev.state ≠ .powered := by simpa using (Bool.and_eq_true_iff.mp ha).1
  have hnone : ((setNow t s).logLive.ops.any fun l => l.any fun o => o.kind == 3) = false := by simpa using hno
  obtain ⟨ops, hpush, hbank⟩ := pushOp_joins (k := if n = 8 then 2 else 0) (o := compactionOp t n s)
    (s := { setNow t s with cmds := { s.cmds with nextId := s.cmds.nextId + 1 } }) (Or.inr (Or.inl rfl)) rfl (by show _ < s.logLive.ops.length; rw [h4]; split <;> omega)
  refine ⟨{ s with now := max s.now t, logLive := { s.logLive with ops := ops }, cmds := { s.cmds with nextId := s.cmds.nextId + 1 } }, compactionOp t n s, ?_, hbank, rfl, rfl, rfl⟩
  show execLogbookCompaction t n s = _
  unfold execLogbookCompaction
  dsimp only
  rw [if_neg (by rw [hlive]; decide), if_pos ⟨hstate, h1, h8, h7, by rw [hnone]; rfl⟩]
  exact congrArg Host.Outcome.next hpush

/-! ### LOGBOOK_PROGRAM -/

theorem modActive_absent {n : Nat} {s : State} (h : getActive s n = none) (g : Active → Active) : modActive n g s = s := by
  have hne : ∀ a ∈ s.cmds.active, (if a.id == n then g a else a) = a := fun a ha => if_neg (by simpa using List.find?_eq_none.mp h a ha)
  rw [modActive, List.map_congr_left hne, List.map_id']

section
variable {sp : CmdSpec} {t : Nat} {f : Frame} {s : State}

theorem beginWork_ends {a : Active} {w : State} (hfetch : (sp.uses s a.frame).fetch = [])
    (hstart : sp.start (modActive a.id (fun x => { x with phase := 3 }) s) { a with phase := 3 } = w) (hgone : getActive w a.id = none) : beginWork sp a s = w := by
  simp only [beginWork, hfetch, fetchAll, List.map_nil, hstart, modActive_absent hgone, hgone]

/-- A command that its own start ends. -/
theorem accept_ends (h : Starts sp t f s) (hT : TakesLightly sp t f s) (hfetch : (sp.uses (taken sp t f s) f).fetch = [])
    (hgone : getActive (sp.start (running sp t f s) (startedCmd sp t f s)) s.cmds.nextId = none) :
    accept sp f (sequenced t f s) (atAdmission t f s) = sp.start (running sp t f s) (startedCmd sp t f s) := by
  have hid : (newActive sp f (sequenced t f s) (atAdmission t f s)).id = s.cmds.nextId := startedCmd_id sp t f s
  have htaken : taken sp t f s = withNew s.cmds.active (newActive sp f (sequenced t f s) (atAdmission t f s)) (taken sp t f s) := by rw [withNew, ← hT.active]
  have hrun : modActive s.cmds.nextId (fun x => { x with phase := 3 }) (taken sp t f s) = running sp t f s := by
    rw [running_eq_withNew]
    exact (congrArg (modActive _ _) htaken).trans (modActive_withNew (ids_below h.1) hid _ _)
  rw [accept_begins h hT]
  rw [← hid] at hrun hgone
  exact beginWork_ends hfetch (congrArg (fun x => sp.start x (startedCmd sp t f s)) hrun) hgone

end

theorem logProgram_plain : Plain { cmdLogbookProgram with slow := fun _ _ => false, start := fun s _ => s } :=
  ⟨rfl, fun _ _ => rfl, fun _ _ => rfl, fun _ _ => rfl, fun _ _ => rfl⟩

/-- The operation of a LOGBOOK_PROGRAM. -/
def programOp (t : Nat) (f : Frame) (s : State) : BankOp :=
  { cmd := s.cmds.nextId, kind := 1, sector := par f 0 4 / 512, word := par f 0 4 % 512, total := par f 4 2, left := par f 4 2,
    began := max s.now t, words := (List.range (par f 4 2)).map (fun i => BitVec.ofNat 64 (pay f (8 * i) 8)) }

section
variable {t : Nat} {f : Frame} {s : State}

theorem logProgram_running (t : Nat) (f : Frame) (s : State) : running cmdLogbookProgram t f s = admitted s (startedCmd cmdLogbookProgram t f s) (max s.now t)
    (running cmdLogbookProgram t f s).berths (running cmdLogbookProgram t f s).net.ports (running cmdLogbookProgram t f s).net.queues :=
  running_eq_admitted logProgram_plain t f s

theorem logProgram_start (t : Nat) (f : Frame) (s : State) : cmdLogbookProgram.start (running cmdLogbookProgram t f s) (startedCmd cmdLogbookProgram t f s) =
    pushOp (bankOf (par f 0 4 / 512)) (programOp t f s) (running cmdLogbookProgram t f s) := by
  have hnow : (running cmdLogbookProgram t f s).now = max s.now t := by rw [logProgram_running]; rfl
  rw [programOp, ← hnow, ← startedCmd_id cmdLogbookProgram t f s]
  rfl

theorem logProgram_exec (h : Starts cmdLogbookProgram t f s) : exec (.logbookProgram t f) s =
    .next (settled t f s (accept cmdLogbookProgram f (sequenced t f s) (atAdmission t f s))) :=
  congrArg Host.Outcome.next (runCommand_accept (sp := cmdLogbookProgram) rfl h.1)

theorem logProgram_takes (t : Nat) (f : Frame) (s : State) : TakesLightly cmdLogbookProgram t f s := takesLightly_of_take_id (fun _ _ => rfl) t f s

/-- A LOGBOOK_PROGRAM on a bank that is busy, or over words that hold nothing, joins its bank's operations. -/
theorem logProgram_joins (h : Starts cmdLogbookProgram t f s) (hfree : bankOps s (bankOf (par f 0 4 / 512)) ≠ [] ∨ firstProgrammed s (programOp t f s) = none)
    (hlt : bankOf (par f 0 4 / 512) < s.logLive.ops.length) :
    ∃ u, exec (.logbookProgram t f) s = .next u ∧ bankOps u (bankOf (par f 0 4 / 512)) = bankOps s (bankOf (par f 0 4 / 512)) ++ [programOp t f s] ∧
      u.logbook = s.logbook ∧ u.out = s.out ∧ ∃ a ∈ u.cmds.active, a.id = s.cmds.nextId ∧ a.phase = 3 := by
  have hrun := logProgram_running t f s
  have hlive : (running cmdLogbookProgram t f s).logLive = s.logLive ∧ (running cmdLogbookProgram t f s).logbook = s.logbook ∧
      (running cmdLogbookProgram t f s).now = max s.now t := by rw [hrun]; exact ⟨rfl, rfl, rfl⟩
  have htaken : (taken cmdLogbookProgram t f s).out = s.out ∧ (taken cmdLogbookProgram t f s).logbook = s.logbook := by
    rw [show taken cmdLogbookProgram t f s = _ from taken_plain logProgram_plain t f s]
    exact ⟨(enter_out _ _).1.trans (atAdmission_out ..), hlive.2.1⟩
  obtain ⟨ops, hpush, hops⟩ := pushOp_joins (k := bankOf (par f 0 4 / 512)) (o := programOp t f s) (s := running cmdLogbookProgram t f s)
    (by
      rw [bankOps, hlive.1]
      refine hfree.imp id fun hf => Or.inr ⟨rfl, ?_⟩
      unfold firstProgrammed wordProgrammed
      rw [hlive.2.1]
      exact hf) hlive.2.2.symm (by rw [hlive.1]; exact hlt)
  have hstart : cmdLogbookProgram.start (running cmdLogbookProgram t f s) (startedCmd cmdLogbookProgram t f s) =
      withNew s.cmds.active (startedCmd cmdLogbookProgram t f s) { taken cmdLogbookProgram t f s with logLive := { s.logLive with ops := ops } } := by
    rw [logProgram_start, hpush, hlive.1, running_eq_withNew]
    rfl
  have hacc := accept_starts h (logProgram_takes t f s) rfl (startedCmd_id ..) hstart
  have hx := logProgram_exec h
  rw [hacc, settled_frame] at hx
  refine ⟨_, hx, ?_, htaken.2, htaken.1, startedCmd cmdLogbookProgram t f s, List.mem_append_right _ (List.mem_singleton_self _), startedCmd_id .., rfl⟩
  refine hops.trans ?_
  rw [bankOps, hlive.1]
  rfl

/-- A LOGBOOK_PROGRAM on an idle bank over a word that holds data. -/
theorem logProgram_fails (h : Starts cmdLogbookProgram t f s) (hd : s.dev.drain = none) {a : Nat} (hidle : bankOps s (bankOf (par f 0 4 / 512)) = [])
    (hf : firstProgrammed s (programOp t f s) = some a) (hlt : bankOf (par f 0 4 / 512) < s.logLive.ops.length) :
    ∃ u, exec (.logbookProgram t f) s = .next u ∧ Replied s u 0x0A02 f stNotErased (.integrity kSector (a / 512) a) [] [] ∧
      u.logbook = s.logbook ∧ u.cmds.active = s.cmds.active := by
  have hrun := logProgram_running t f s
  have hnew := startedCmd_id cmdLogbookProgram t f s
  obtain ⟨hlive, hlog, hdev, hregs, hout⟩ : (running cmdLogbookProgram t f s).logLive = s.logLive ∧ (running cmdLogbookProgram t f s).logbook = s.logbook ∧
      (running cmdLogbookProgram t f s).dev = s.dev ∧ (running cmdLogbookProgram t f s).regs = s.regs ∧ (running cmdLogbookProgram t f s).out = s.out := by
    rw [hrun]
    exact ⟨rfl, rfl, rfl, rfl, rfl⟩
  obtain ⟨ops, hpush⟩ := pushOp_fails (k := bankOf (par f 0 4 / 512)) (o := programOp t f s) (s := running cmdLogbookProgram t f s) (a := a) rfl
    (by rw [bankOps, hlive]; exact hidle)
    (by
      unfold firstProgrammed wordProgrammed
      rw [hlog]
      exact hf) (by rw [hlive]; exact hlt) (c := startedCmd cmdLogbookProgram t f s) (by rw [running_eq_withNew]; exact getActive_withNew (ids_below h.1) hnew _)
  set w : State := { running cmdLogbookProgram t f s with logLive := { (running cmdLogbookProgram t f s).logLive with ops := ops } } with hw
  set o : WorkOut := { status := stNotErased, detail := .integrity kSector (a / 512) a } with ho
  have hstart : cmdLogbookProgram.start (running cmdLogbookProgram t f s) (startedCmd cmdLogbookProgram t f s) = complete (startedCmd cmdLogbookProgram t f s) o w := by
    rw [logProgram_start, hpush]
  have hleft : (dropActive s.cmds.nextId w).cmds.active = s.cmds.active := by
    rw [← hnew, dropActive, hw, running_eq_withNew]
    exact drop_new fun x hx => by rw [hnew]; exact Nat.ne_of_lt (ids_below h.1 x hx)
  have hgone : getActive (complete (startedCmd cmdLogbookProgram t f s) o w) s.cmds.nextId = none := by
    rw [complete_frame, hnew, getActive, hleft]
    exact List.find?_eq_none.mpr fun x hx => by simpa using Nat.ne_of_lt (ids_below h.1 x hx)
  have hx := logProgram_exec h
  rw [accept_ends h (logProgram_takes t f s) rfl (by rw [hstart]; exact hgone), hstart] at hx
  have hue : o.status ≠ stMediaUe := ne_of_beq_false rfl
  have hup : portUp (running cmdLogbookProgram t f s) f.port = true :=
    running_portUp (sp := { cmdLogbookProgram with slow := fun _ _ => false, start := fun s _ => s }) logProgram_plain h.1
  have hframe := finish_frame (sp := cmdLogbookProgram) (t := t) (f := f) (s := s) (w' := w) (o := o) rfl (hdev ▸ hd) hue
  refine ⟨finish cmdLogbookProgram t f s w o, hx, finish_replies rfl (hdev ▸ hd) hue hup ?_ ⟨[], hout⟩, ?_, ?_⟩
  · rw [fragUnit, fragUnit, ← hregs]
  · rw [hframe]
    exact hlog
  · rw [hframe]
    exact hleft

end

/-- Settles O31. -/
theorem logbookOperationsRun : Obligations.LogbookOperationsRun := by
  intro t s
  refine ⟨fun f o h hd ho => ⟨fun a hidle hfirst hlt => ?_, fun hfree hlt => ?_⟩, fun k ok h => operationComplete_none ok h, fun k o l ha h => ⟨fun hk h1 hfree => ?_, fun hk h1 hl => ?_, fun hk h1 hl => ?_,
    fun s2 hk h1 hr => ?_, fun hk hl hr => ?_⟩, fun n _ h => compaction_idle h, fun n ha h1 h8 h7 hno h4 => ?_⟩
  · subst ho
    exact logProgram_fails h hd hidle hfirst hlt
  · subst ho
    exact logProgram_joins h hfree hlt
  · refine ⟨_, operationComplete_ok ha h, ?_⟩
    rw [opAdvance_next hk h1]
    refine ⟨?_, ?_, ?_, fun x hx => ⟨?_, ?_⟩, rfl⟩
    · refine (bankOps_modBank (s := programWord _ _ (setNow t s)) (lt_of_bankOps h) _).trans ?_
      show _ :: (bankOps s k).drop 1 = _
      rw [h]
      rfl
    · exact (wordProgrammed_programWord ..).trans (by simp)
    · exact wordValue_programWord_same _ _ _ hfree
    · exact (wordProgrammed_programWord ..).trans (by simp [hx, wordProgrammed, setNow])
    · exact wordValue_programWord_ne _ _ _ hx
  · subst hl
    refine ⟨_, operationComplete_ok ha h, ?_⟩
    rw [opAdvance_last_word (s := setNow t s) hk h1 h]
    obtain ⟨hlog, hops, hgone⟩ := finishOp_last (s := programWord (o.sector * 512 + o.word + (o.total - o.left)) (o.words.getD (o.total - o.left) 0) (setNow t s)) h (okOut [] [])
    refine ⟨hops, ?_, fun x hx => ?_, hgone⟩
    · rw [wordProgrammed, hlog]
      exact (wordProgrammed_programWord ..).trans (by simp)
    · rw [wordProgrammed, hlog]
      exact (wordProgrammed_programWord ..).trans (by simp [hx, wordProgrammed, setNow])
  · subst hl
    refine ⟨_, operationComplete_ok ha h, ?_⟩
    rw [opAdvance_last_sector (s := setNow t s) hk h1 h]
    obtain ⟨hlog, hops, hgone⟩ := finishOp_last (s := eraseSector o.sector (setNow t s)) h (okOut [] [])
    refine ⟨hops, hgone, fun x => ?_⟩
    rw [wordProgrammed, hlog]
    exact wordProgrammed_eraseSector ..
  · obtain ⟨hbad, hops, -⟩ := retireSector_some hr
    have h2 : bankOps s2 k = o :: l := by rw [bankOps, hops]; exact h
    refine ⟨_, operationComplete_again ha h (by rw [if_neg (by omega)]; exact hr), ?_⟩
    rw [opAdvance_next hk h1]
    refine ⟨rfl, hbad, ?_, (wordProgrammed_programWord ..).trans (by simp)⟩
    refine (bankOps_modBank (s := programWord _ _ s2) (lt_of_bankOps h2) _).trans ?_
    show _ :: (bankOps s2 k).drop 1 = _
    rw [h2]
    rfl
  · subst hl
    obtain ⟨hlog, hops, hgone⟩ := finishOp_last (s := logReadOnly (setNow t s)) h (failOut logExhausted)
    refine ⟨_, operationComplete_exhausted ha h hr, ?_, ?_, hops, hgone⟩
    · rw [hlog]; rfl
    · rw [hlog]; rfl
  · exact compaction_due ha h1 h8 h7 hno h4

end Sys2Proof.Machine

namespace Sys2Proof.Machine

/-! ### Datagrams -/

section
variable {t : Nat} {d : Datagram} {s : State}

/-- The port takes the datagram. -/
theorem nimoxFrame_taken (h : (portUp s d.port && portAnswers s d.port d.dstIp && d.dstUdp == udpPort s) = true) :
    exec (.nimoxFrame t d) s = .next (takeDatagram d (setNow t s)) := if_pos h

/-- The state once the datagram is counted as one of its port. -/
def datagramHeard (t : Nat) (d : Datagram) (s : State) : State := modPortStats d.port (fun p => { p with framesIn := satAdd 64 p.framesIn 1 }) (setNow t s)

theorem takeDatagram_drops (h : dropsHeader d = true) :
    takeDatagram d (setNow t s) = modPortStats d.port (fun p => { p with dropHdr := satAdd 32 p.dropHdr 1 }) (datagramHeard t d s) := if_pos h

/-- A datagram of no command in progress that its frame's rules let pass. -/
theorem takeDatagram_first (h : dropsHeader d = false) (hb : (headFrame d).berth ≤ 15) (hnew : s.net.reasms.find? (fun x => x.key == keyOf (headFrame d)) = none)
    (href : s.net.refused.any (fun x => x.key == keyOf (headFrame d)) = false) (hf : frameFault d (fragUnit s) = none) :
    takeDatagram d (setNow t s) = firstFragment d (hostCharge (headFrame d).berth d.port d.bytes.length (datagramHeard t d s)) := by
  have hnew' : (datagramHeard t d s).net.reasms.find? (fun x => x.key == keyOf (headFrame d)) = none := hnew
  have href' : (hostCharge (headFrame d).berth d.port d.bytes.length (datagramHeard t d s)).net.refused.any (fun x => x.key == keyOf (headFrame d)) = false := href
  have hf' : frameFault d (fragUnit (datagramHeard t d s)) = none := hf
  unfold takeDatagram
  dsimp only
  rw [if_neg (by rw [h]; decide)]
  rw [show modPortStats d.port (fun p => { p with framesIn := satAdd 64 p.framesIn 1 }) (setNow t s) = datagramHeard t d s from rfl, hnew', if_pos hb]
  dsimp only [Option.map_none, Option.getD_none]
  rw [hf']
  dsimp only
  rw [href']
  rfl

/-- A whole command's datagram holds exactly its parameters and its payload. -/
theorem whole_lengths (hf : frameFault d (fragUnit s) = none) (h1 : hdrCount d = 1) :
    d.bytes.length = 32 + (hdrParamLen d + hdrPayloadLen d) ∧ max 1 (ceilDiv (hdrParamLen d + hdrPayloadLen d) (fragUnit s)) = 1 := by
  have hall := firstSome_eq_none.mp hf
  have hcount : (hdrCount d == max 1 (ceilDiv (hdrParamLen d + hdrPayloadLen d) (fragUnit s))) = true :=
    need_eq_none.mp (hall _ (List.mem_of_getElem? (i := 11) rfl))
  have hindex : decide (hdrIndex d < hdrCount d) = true := need_eq_none.mp (hall _ (List.mem_of_getElem? (i := 9) rfl))
  have hlen : (d.bytes.length == 32 + (min ((hdrIndex d + 1) * fragUnit s) (hdrParamLen d + hdrPayloadLen d) - hdrIndex d * fragUnit s)) = true :=
    need_eq_none.mp (hall _ (List.mem_of_getElem? (i := 13) rfl))
  rw [beq_iff_eq, h1] at hcount
  have hzero : hdrIndex d = 0 := by simpa [h1] using hindex
  have hfit : hdrParamLen d + hdrPayloadLen d ≤ fragUnit s := by
    have hpos : fragUnit s = 8192 ∨ fragUnit s = 1408 := by unfold fragUnit; split <;> simp
    have hle : ceilDiv (hdrParamLen d + hdrPayloadLen d) (fragUnit s) ≤ 1 := le_trans (le_max_right ..) (le_of_eq hcount.symm)
    unfold ceilDiv at hle
    rcases hpos with hpos | hpos <;> rw [hpos] at hle ⊢ <;> omega
  rw [beq_iff_eq, hzero] at hlen
  refine ⟨?_, hcount.symm⟩
  rw [hlen, Nat.zero_mul, Nat.zero_add, Nat.one_mul, min_eq_right hfit]
  rfl

/-- A command of one fragment arrives as its datagram does. -/
theorem runCommand_whole {f : Frame} (hup : portUp s d.port = true) (hf : frameFault d (fragUnit s) = none) (h1 : hdrCount d = 1)
    (hw : f = wholeFrame (headFrame d) (hdrParamLen d) (d.bytes.drop 32)) (hh : headerFault (hdrOpcode d) 1 f = none) :
    runCommand (hdrOpcode d) t f s = submit (hdrOpcode d) f (hostCharge (headFrame d).berth d.port d.bytes.length (datagramHeard t d s)) := by
  obtain ⟨hlen, hcount⟩ := whole_lengths hf h1
  have hparams : f.params.length = hdrParamLen d := by
    rw [hw]
    simp only [wholeFrame, List.length_take, List.length_drop]
    omega
  have hpayload : f.payload.length = hdrPayloadLen d := by
    rw [hw]
    simp only [wholeFrame, List.length_drop]
    omega
  have hport : f.port = d.port ∧ f.berth = (headFrame d).berth := by rw [hw]; exact ⟨rfl, rfl⟩
  have hup' : portUp (setNow t s) f.port = true := by rw [hport.1]; exact hup
  have hunit : max 1 (ceilDiv (hdrParamLen d + hdrPayloadLen d) (fragUnit (setNow t s))) = 1 := hcount
  unfold runCommand
  dsimp only
  rw [if_pos hup', hparams, hpayload, hunit, hh]
  dsimp only
  rw [if_pos rfl, hport.1, hport.2, Nat.mul_one, ← hlen]
  rfl

end

/-- Settles O33: the datagram's checks and its command's own row let the same frame into the same state. -/
theorem datagramsAreTakenOrDropped : Obligations.DatagramsAreTakenOrDropped := by
  refine fun t d s => ⟨fun h => ?_, fun h hd => ?_, fun h hd hb hnew href hf hmany hroom => ?_, fun f hup hip hudp hd hf h1 hb hnew href hw hh _ => ?_⟩
  · exact if_neg (by rw [show (portUp (setNow t s) d.port && portAnswers (setNow t s) d.port d.dstIp && d.dstUdp == udpPort (setNow t s)) = false from h]; decide)
  · refine ⟨_, nimoxFrame_taken h, ?_⟩
    rw [takeDatagram_drops hd]
    refine ⟨rfl, fun n => ?_⟩
    have hp : PlacesKept (headFrame d) s (modPortStats d.port (fun p => { p with dropHdr := satAdd 32 p.dropHdr 1 }) (datagramHeard t d s)) :=
      ((PlacesKept.of_eq _ (a := s) (b := setNow t s) rfl rfl rfl).trans (PlacesKept.modPortStats _ _ _ _)).trans (PlacesKept.modPortStats _ _ _ _)
    exact hp.2.1 n
  · have hnone : s.net.refused.any (fun x => x.key == keyOf (headFrame d)) = false := by rw [href]; rfl
    refine ⟨_, ?r, nimoxFrame_taken h, ?_⟩
    case r => exact { key := keyOf (headFrame d), opcode := hdrOpcode d, urgent := (headFrame d).urgent, paramLen := hdrParamLen d, payloadLen := hdrPayloadLen d,
                      fragCount := hdrCount d, unit := fragUnit s, timeoutNs := fragTimeoutNs s, frags := [(hdrIndex d, d.bytes.drop 32)], last := max s.now t }
    have hroom' : reasmRefuse (hostCharge (headFrame d).berth d.port d.bytes.length (datagramHeard t d s)) (hdrParamLen d + hdrPayloadLen d) = none := hroom
    rw [takeDatagram_first hd hb hnew hnone hf, firstFragment]
    dsimp only
    rw [if_neg hmany, hroom']
    exact ⟨rfl, rfl, rfl, rfl, rfl, rfl, rfl, rfl⟩
  · have htaken : (portUp s d.port && portAnswers s d.port d.dstIp && d.dstUdp == udpPort s) = true := by rw [hup, hip, hudp]; simp
    have hnone : s.net.refused.any (fun x => x.key == keyOf (headFrame d)) = false := by simpa using href
    rw [nimoxFrame_taken htaken, takeDatagram_first hd hb hnew hnone hf, runCommand_whole hup hf h1 hw hh, firstFragment]
    dsimp only
    rw [if_pos h1, hw]

end Sys2Proof.Machine

namespace Sys2Proof.Machine

/-! ### Two commands of one identifier -/

/-- A BOLLARD of berth 0 that has not started, under identifier 5. -/
def unstartedBollard (op : Nat) : Active :=
  { id := 5, opcode := 0x0720, frame := bollardFrame (tstFrame [] []) 0 op 9, phase := 0, accepted := 0, acceptedLocal := 0, result := false }

/-- A module in which a TAKE of 9 from an empty bollard and a READ of it have the same identifier: nothing in the statement, nor in `Sound`,
keeps identifiers apart. -/
def twoOfOneId : State := { tstReady with cmds := { nextId := 6, active := [unstartedBollard 2, unstartedBollard 0] } }

/-- COMMAND_START gives both the phase of the TAKE, which waits for the count. -/
theorem twoOfOneId_phases : ∀ u, exec (.commandStart 0 5) twoOfOneId = .next u → u.cmds.active.map (fun a => a.phase) = [1, 1] := by
  have h : (match exec (.commandStart 0 5) twoOfOneId with | .next u => u.cmds.active.map (fun a => a.phase) == [1, 1] | _ => true) = true := by decide +kernel
  intro u hu
  rw [hu] at h
  exact eq_of_beq h

/-- Refutes O35: the statement gives each command of the identifier the phase of its own waits, the model gives all of them that of the first.
They differ in `twoOfOneId`, where nothing holds the READ back. -/
theorem not_workStartsAndEnds : ¬ Obligations.WorkStartsAndEnds := by
  intro h
  obtain ⟨-, hwaits, -⟩ := h 0 5 twoOfOneId (unstartedBollard 2) cmdBollard rfl rfl (by decide +kernel)
  have hx := twoOfOneId_phases _ (hwaits (by decide) (by decide +kernel) (by decide +kernel))
  have hphases : ((modActive 5 (fun a => { a with phase := phaseOf cmdBollard (setNow 0 twoOfOneId) a }) (setNow 0 twoOfOneId)).cmds.active.map (fun a => a.phase)) = [1, 3] := by
    decide +kernel
  rw [hphases] at hx
  exact absurd hx (by decide)

end Sys2Proof.Machine

namespace Sys2Proof.Machine

/-! ### RDMA as requester -/

theorem getQp_qpn {s : State} {n : BitVec 24} {q : Qp} (h : getQp s n = some q) : q.qpn = n := by simpa using List.find?_some h

/-- A queue pair fails while no vault replicates. -/
theorem failQp_alone {s : State} (h : ∀ v ∈ s.vaults, v.send.state = .off) (n : BitVec 24) : failQp n s = qpError n s := by
  have hnone : ((qpError n s).vaults.filter (fun v => v.send.state != .off && v.send.inUse == n)) = [] :=
    List.filter_eq_nil_iff.mpr fun v hv => by simp [h v hv]
  rw [failQp, replQpError, hnone]
  rfl

section
variable {t : Nat} {n psn : BitVec 24} {data : Bytes} {s : State} {q : Qp}

/-- A queue pair that hears packets. -/
theorem liveQp_some (h : liveQp s n = some q) : getQp s n = some q ∧ q.state = .rts ∧ portUp s q.port = true ∧ portClassOf s q.port ≠ 0 := by
  obtain ⟨hq, hc⟩ := Option.filter_eq_some_iff.mp h
  simp only [Bool.and_eq_true, beq_iff_eq, bne_iff_ne] at hc
  exact ⟨hq, hc.1.1, hc.1.2, hc.2⟩

theorem liveQp_none (h : getQp s n = none) : liveQp s n = none := by rw [liveQp, h]; rfl

theorem discardObserved_none (h : getQp s n = none) : discardObserved n s = s := by rw [discardObserved, h]

theorem discardObserved_heard (h : liveQp s n = some q) : discardObserved n s = s := by
  obtain ⟨hq, -, -, hc⟩ := liveQp_some h
  rw [discardObserved, hq]
  exact if_neg fun h' => hc h'.2

theorem ackRequests_length (q : Qp) (psn : BitVec 24) (l : List QpRequest) : (ackRequests q psn l).length ≤ l.length := by
  induction l with
  | nil => exact le_refl _
  | cons r l ih =>
    rw [ackRequests]
    split
    · exact le_trans ih (Nat.le_succ _)
    · exact le_refl _

theorem ackRequests_covered {r : QpRequest} (l : List QpRequest) (hr : r.isRead = false) (hu : psnUpTo (lastPsn q r) psn = true) :
    ackRequests q psn (r :: l) = ackRequests q psn l := by
  rw [ackRequests, if_pos (by simp [hr, hu])]

theorem ackRequests_waits {r : QpRequest} (l : List QpRequest) (h : r.isRead = true ∨ psnUpTo (lastPsn q r) psn = false) : ackRequests q psn (r :: l) = r :: l := by
  rw [ackRequests, if_neg (by rcases h with h | h <;> simp [h])]

/-- A packet number just before a request's first does not cover its last. -/
theorem not_psnUpTo_before {r : QpRequest} (h : packetsOf q.mtu r.len ≤ 2 ^ 23) : psnUpTo (lastPsn q r) (r.psn - 1) = false := by
  have h1 : 1 ≤ packetsOf q.mtu r.len := le_max_left ..
  rw [psnUpTo, lastPsn, decide_eq_false_iff_not]
  have hd : r.psn - 1 - (r.psn + BitVec.ofNat 24 (packetsOf q.mtu r.len - 1)) = BitVec.ofNat 24 (2 ^ 24 - packetsOf q.mtu r.len) := by
    generalize packetsOf q.mtu r.len = k at h h1
    bv_omega
  rw [hd]
  simp only [BitVec.toNat_ofNat]
  omega

theorem ackReceived_live (h : liveQp s n = some q) : exec (.ackReceived t n psn) s =
    if (ackRequests q psn q.requests).length < q.requests.length then
      .next (modQp n (fun x => { x with requests := ackRequests q psn q.requests, retries := 0, timerAt := max s.now t }) (setNow t s))
    else .next (setNow t s) := by
  have h' : liveQp (setNow t s) n = some q := h
  show execAckReceived t n psn s = _
  unfold execAckReceived
  dsimp only
  rw [h']
  rfl

theorem readResponse_live (h : liveQp s n = some q) {r : QpRequest} {l : List QpRequest} (hr : readHead q.requests = some (r, l)) : exec (.rdmaReadResponse t n psn data) s =
    if r.psn = psn ∧ r.len = data.length then
      .next (hostData r.cmd r.ref data (modQp n (fun x => { x with requests := l, retries := 0, timerAt := max s.now t })
        { setNow t s with power := { s.power with lastSram := max s.now t } }))
    else .next (setNow t s) := by
  have h' : liveQp (setNow t s) n = some q := h
  show execRdmaReadResponse t n psn data s = _
  unfold execRdmaReadResponse
  dsimp only
  rw [h']
  dsimp only
  rw [hr]
  rfl

/-- The command of an identifier after a change that leaves its identifier. -/
theorem getActive_modActive {g : Active → Active} (hg : ∀ x, (g x).id = x.id) (s : State) (id : Nat) : getActive (modActive id g s) id = (getActive s id).map g := by
  rw [getActive, modActive, List.find?_map, getActive]
  have hp : (fun x : Active => x.id == id) ∘ (fun x => if x.id == id then g x else x) = fun x => x.id == id := by
    funext x
    simp only [Function.comp]
    split <;> simp [hg]
  rw [hp]
  cases h : s.cmds.active.find? (fun x => x.id == id) with
  | none => rfl
  | some x => exact congrArg some (if_pos (List.find?_some h))

/-- Data for a command that still waits for more. -/
theorem hostData_waits {id i : Nat} {a : Active} (h : getActive s id = some a) (hw : a.awaiting.filter (fun x => x != i) ≠ []) : hostData id i data s =
    modActive id (fun a => { a with fetched := (i, data) :: a.fetched.filter (fun x => x.1 != i), awaiting := a.awaiting.filter (fun x => x != i) }) s := by
  unfold hostData
  dsimp only
  rw [getActive_modActive (g := fun a => { a with fetched := (i, data) :: a.fetched.filter (fun x => x.1 != i), awaiting := a.awaiting.filter (fun x => x != i) })
    (fun _ => rfl), h]
  dsimp only [Option.map_some]
  split
  · exact if_neg (by simpa [List.isEmpty_iff] using hw)
  · rfl

theorem nakReceived_live (h : liveQp s n = some q) (hr : q.requests ≠ []) (code : NakCode) : exec (.nakReceived t n psn code) s = .next (
    match code with
    | .sequenceError =>
      if (ackRequests q (psn - 1) q.requests).isEmpty then modQp n (fun x => { x with requests := ackRequests q (psn - 1) q.requests }) (setNow t s)
      else retryQp { q with requests := ackRequests q (psn - 1) q.requests } (modQp n (fun x => { x with requests := ackRequests q (psn - 1) q.requests }) (setNow t s))
    | .invalidRequest => failQp n (setNow t s)
    | .remoteAccess => failQp n (setNow t s)
    | .remoteOperational => failQp n (setNow t s)) := by
  have h' : (liveQp (setNow t s) n).filter (fun q => !q.requests.isEmpty) = some q := by
    rw [show liveQp (setNow t s) n = some q from h, Option.filter_some, if_pos (by simpa using hr)]
  show execNakReceived t n psn code s = _
  unfold execNakReceived
  dsimp only
  rw [h']
  cases code <;> rfl

theorem ackTimeout_live (hq : getQp s n = some q) (hr : q.state = .rts) (hl : alive s = true) (hn : q.requests ≠ []) : exec (.ackTimeout t n) s =
    if q.timerAt + 4096 * 2 ^ q.ackTimeout ≤ max s.now t then .next (retryQp q (setNow t s)) else .next (setNow t s) := by
  have h' : (getQp (setNow t s) n).filter (fun q => q.state == .rts && !q.requests.isEmpty) = some q := by
    rw [show getQp (setNow t s) n = some q from hq, Option.filter_some, if_pos (by simp [hr, hn])]
  have hl' : alive (setNow t s) = true := hl
  show execAckTimeout t n s = _
  unfold execAckTimeout
  dsimp only
  rw [h']
  simp only [hl', Bool.true_and, decide_eq_true_eq]
  rfl

/-- The ACK timeout without anything outstanding, or before its time. -/
theorem ackTimeout_idle (hq : getQp s n = some q) (h : q.requests = [] ∨ max s.now t < q.timerAt + 4096 * 2 ^ q.ackTimeout) :
    exec (.ackTimeout t n) s = .next (setNow t s) := by
  show execAckTimeout t n s = _
  unfold execAckTimeout
  dsimp only
  rw [show getQp (setNow t s) n = some q from hq, Option.filter_some]
  split
  · next q' hq' =>
    split at hq'
    · next hc =>
      cases hq'
      rcases h with h | h
      · simp [h] at hc
      · exact if_neg (by simp only [Bool.and_eq_true, decide_eq_true_eq, not_and]; exact fun _ => not_le.mpr h)
    · cases hq'
  · rfl

theorem congestionNotification_live (h : liveQp s n = some q) : exec (.congestionNotificationPacket t n) s =
    if ecnReact s then .next (modQp n (fun x => { x with rateMbps := max 1000 (x.rateMbps / 2), lastCnpIn := max s.now t }) (setNow t s)) else .next (setNow t s) := by
  have h' : liveQp (setNow t s) n = some q := h
  show execCongestionNotificationPacket t n s = _
  unfold execCongestionNotificationPacket
  dsimp only
  rw [h']
  rfl

theorem rateRecovery_rts (hq : getQp s n = some q) (hr : q.state = .rts) (hl : alive s = true) : exec (.rateRecovery t n) s =
    if ecnReact s = true ∧ q.lastCnpIn + 55000 ≤ max s.now t ∧ q.rateMbps < (hostPort s q.port).gbps * 1000 then
      .next (modQp n (fun x => { x with rateMbps := min ((hostPort s q.port).gbps * 1000) (x.rateMbps + (hostPort s q.port).gbps * 1000 * 5 / 100), lastCnpIn := max s.now t })
        (setNow t s))
    else .next (setNow t s) := by
  have h' : (getQp (setNow t s) n).filter (fun q => q.state == .rts) = some q := by
    rw [show getQp (setNow t s) n = some q from hq, Option.filter_some, if_pos (by simp [hr])]
  have hl' : alive (setNow t s) = true := hl
  show execRateRecovery t n s = _
  unfold execRateRecovery
  dsimp only
  rw [h']
  simp only [hl', Bool.and_true, Bool.and_eq_true, decide_eq_true_eq, and_assoc]
  rfl

/-- A retry of one WRITE. -/
theorem retryQp_write {r : QpRequest} (hq : q.requests = [r]) (hr : r.isRead = false) (hlt : q.retries < q.retryCnt) (u : State) : retryQp q u =
    emit (.rdmaWriteRequest q.port q.qpn r.psn r.rkey r.va r.data r.imm) (modQp q.qpn (fun x => { x with retries := x.retries + 1, timerAt := u.now }) u) := by
  rw [retryQp, if_pos hlt, hq, resendRequests, resendRequests, hr]
  rfl

theorem modQp_modQp {g g' : Qp → Qp} (hg : ∀ x, (g x).qpn = x.qpn) (n : BitVec 24) (u : State) : modQp n g' (modQp n g u) = modQp n (fun x => g' (g x)) u := by
  simp only [modQp, List.map_map]
  congr 3
  funext x
  simp only [Function.comp]
  split
  · next h => rw [if_pos (by rw [hg]; exact h)]
  · rfl

end

/-- Settles O52. -/
theorem rdmaRequesterFollowsItsPeer : Obligations.RdmaRequesterFollowsItsPeer := by
  intro t n psn data code s
  refine ⟨fun h => ?_, fun q h => ?_, fun q hq hrts hl => ?_⟩
  · have hn : liveQp (setNow t s) n = none := liveQp_none h
    have hd : discardObserved n (setNow t s) = setNow t s := discardObserved_none h
    refine ⟨?_, ?_, ?_, ?_⟩
    · show execAckReceived t n psn s = _
      simp only [execAckReceived, hn, hd]
    · show execNakReceived t n psn code s = _
      simp only [execNakReceived, hn, hd, Option.filter_none]
    · show execRdmaReadResponse t n psn data s = _
      simp only [execRdmaReadResponse, hn, hd]
    · show execCongestionNotificationPacket t n s = _
      simp only [execCongestionNotificationPacket, hn, hd]
  · obtain ⟨hq, -, -, -⟩ := liveQp_some h
    have hqpn := getQp_qpn hq
    refine ⟨fun r l hr hw hu => ?_, fun r l hr hw => ?_, fun r l a hr hp hlen ha hmore => ?_, fun r l hr hno => ?_, fun hc hr hv => ?_, fun r hr hw hp hk hlt => ?_,
      fun hr => ?_, fun he => ?_, fun he => ?_⟩
    · rw [ackReceived_live h, hr, ackRequests_covered l hw hu]
      exact if_pos (Nat.lt_succ_of_le (ackRequests_length ..))
    · rw [ackReceived_live h, hr, ackRequests_waits l hw, if_neg (lt_irrefl _)]
    · rw [readResponse_live h hr, if_pos ⟨hp, hlen⟩]
      exact congrArg Host.Outcome.next (hostData_waits (by exact ha) hmore)
    · rw [readResponse_live h hr, if_neg (fun hb => hno.elim (fun h1 => h1 hb.1) (fun h1 => h1 hb.2))]
    · have hfail : failQp n (setNow t s) = _ := failQp_alone (s := setNow t s) hv n
      rw [nakReceived_live h hr]
      cases code with
      | sequenceError => exact absurd rfl hc
      | invalidRequest => exact congrArg Host.Outcome.next hfail
      | remoteAccess => exact congrArg Host.Outcome.next hfail
      | remoteOperational => exact congrArg Host.Outcome.next hfail
    · have hleft : ackRequests q (psn - 1) q.requests = [r] := by
        rw [hr, ← hp]
        exact ackRequests_waits [] (Or.inr (not_psnUpTo_before hk))
      rw [nakReceived_live h (by rw [hr]; simp)]
      dsimp only
      rw [hleft]
      refine congrArg Host.Outcome.next ?_
      rw [if_neg (by simp), retryQp_write (q := { q with requests := [r] }) rfl hw hlt]
      dsimp only
      rw [hqpn, modQp_modQp (g := fun x => { x with requests := [r] }) (fun _ => rfl)]
      rfl
    · have hn : (liveQp (setNow t s) n).filter (fun q => !q.requests.isEmpty) = none := by
        rw [show liveQp (setNow t s) n = some q from h, Option.filter_some, if_neg (by simp [hr])]
      have hd : discardObserved n (setNow t s) = setNow t s := discardObserved_heard (q := q) h
      show execNakReceived t n psn code s = _
      simp only [execNakReceived, hn, hd]
    · rw [congestionNotification_live h, if_pos he]
    · rw [congestionNotification_live h, if_neg (by rw [he]; decide)]
  · have hqpn := getQp_qpn hq
    refine ⟨fun hr hdue hlt => ?_, fun hr hdue hle hv => ?_, fun h => ackTimeout_idle hq h, fun he hd hlt => ?_, fun h => ?_⟩
    · rw [ackTimeout_live hq hrts hl hr, if_pos hdue, retryQp, if_pos hlt]
      rfl
    · rw [ackTimeout_live hq hrts hl hr, if_pos hdue, retryQp, if_neg (not_lt.mpr hle), hqpn, failQp_alone (s := setNow t s) hv n]
      rfl
    · rw [rateRecovery_rts hq hrts hl, if_pos ⟨he, hd, hlt⟩]
    · rw [rateRecovery_rts hq hrts hl, if_neg]
      rintro ⟨h1, h2, h3⟩
      rcases h with h | h | h
      · rw [h1] at h; cases h
      · omega
      · omega

end Sys2Proof.Machine

namespace Sys2Proof.Machine

/-! ### RDMA as responder -/

theorem modPort_modPort (n : Nat) (g g' : HostPort → HostPort) (s : State) : modPort n g' (modPort n g s) = modPort n (fun p => g' (g p)) s := by
  have hl : (s.net.ports.modify n g).modify n g' = s.net.ports.modify n (fun p => g' (g p)) := by
    refine List.ext_getElem? fun m => ?_
    simp only [List.getElem?_modify]
    cases s.net.ports[m]? with
    | none => rfl
    | some p => by_cases hm : n = m <;> simp [hm]
  simp only [modPort, hl]

theorem sendPfc_eq (n : Nat) (mask : BitVec 8) (pause : Bool) (s : State) :
    ∃ l, sendPfc n mask pause s = { s with out := l ++ s.out } ∧ ∀ o ∈ l, ∃ k b, o = .pfc n k b := by
  refine List.foldlRecOn (motive := fun u : State => ∃ l, u = { s with out := l ++ s.out } ∧ ∀ o ∈ l, ∃ k b, o = Output.pfc n k b) _ _ ⟨[], rfl, nofun⟩ ?_
  rintro u ⟨l, rfl, hl⟩ k -
  refine ⟨.pfc n k pause :: l, rfl, fun o ho => ?_⟩
  rcases List.mem_cons.mp ho with rfl | ho
  · exact ⟨k, pause, rfl⟩
  · exact hl o ho

/-- A port whose buffer stands at `fill` and which holds the peer's priorities `v` paused. -/
def HostPort.buffered (fill : Nat) (v : BitVec 8) (p : HostPort) : HostPort := { p with rxFill := fill, pauseSent := v }

/-- A request finds the buffer at some level, and priorities are paused and released by it. -/
theorem bufferLevel_eq (n : Nat) (s : State) : ∃ fill v l, bufferLevel n s = { modPort n (HostPort.buffered fill v) s with fresh := s.fresh + 1, out := l ++ s.out } ∧
    (∀ o ∈ l, ∃ k b, o = .pfc n k b) ∧ (75 < fill → v = (hostPort s n).pauseSent ||| pfcEn s) ∧ (fill ≤ 50 → v = 0) := by
  unfold bufferLevel
  dsimp only
  generalize Config.amount s.fresh % 101 = fill
  split
  · next h =>
    obtain ⟨l, hl, hall⟩ := sendPfc_eq n (pfcEn s &&& ~~~(hostPort s n).pauseSent) true
      (modPort n (fun p => { p with pauseSent := (hostPort s n).pauseSent ||| pfcEn s }) (useFresh (modPort n (fun p => { p with rxFill := fill }) s)))
    refine ⟨fill, (hostPort s n).pauseSent ||| pfcEn s, l, ?_, hall, fun _ => rfl, fun h' => by omega⟩
    rw [hl]
    exact congrArg (fun u : State => { u with fresh := s.fresh + 1, out := l ++ s.out })
      (modPort_modPort n (fun p => { p with rxFill := fill }) (fun p => { p with pauseSent := (hostPort s n).pauseSent ||| pfcEn s }) s)
  · split
    · next h =>
      obtain ⟨l, hl, hall⟩ := sendPfc_eq n (hostPort s n).pauseSent false (modPort n (fun p => { p with pauseSent := 0 }) (useFresh (modPort n (fun p => { p with rxFill := fill }) s)))
      refine ⟨fill, 0, l, ?_, hall, fun h' => by omega, fun _ => rfl⟩
      rw [hl]
      exact congrArg (fun u : State => { u with fresh := s.fresh + 1, out := l ++ s.out })
        (modPort_modPort n (fun p => { p with rxFill := fill }) (fun p => { p with pauseSent := 0 }) s)
    · refine ⟨fill, (hostPort s n).pauseSent, [], ?_, nofun, fun h' => by omega, fun h' => by omega⟩
      exact congrArg useFresh (modPort_congr (g := fun p => { p with rxFill := fill }) (g' := HostPort.buffered fill (hostPort s n).pauseSent) rfl)

/-- A queue pair that has reported congestion. -/
def Qp.reported (g : Option Nat → Option Nat) (q : Qp) : Qp := { q with lastCnpOut := g q.lastCnpOut }

theorem modQp_id (n : BitVec 24) (s : State) : modQp n (Qp.reported id) s = s := by
  have hid : ∀ x ∈ s.rdma.qps, (if x.qpn == n then Qp.reported id x else x) = x := fun x _ => ite_self x
  rw [modQp, List.map_congr_left hid, List.map_id']

theorem sendCnp_eq (q : Qp) (s : State) : ∃ g l, sendCnp q s = { modQp q.qpn (Qp.reported g) s with out := l ++ s.out } ∧ ∀ o ∈ l, o = .cnp q.port q.qpn := by
  have hor : ∀ c : Bool, ∃ g l, (if c then emit (.cnp q.port q.qpn) (modQp q.qpn (fun q => { q with lastCnpOut := some s.now }) s) else s) =
      { modQp q.qpn (Qp.reported g) s with out := l ++ s.out } ∧ ∀ o ∈ l, o = .cnp q.port q.qpn := by
    intro c
    cases c
    · exact ⟨id, [], by rw [modQp_id]; rfl, nofun⟩
    · exact ⟨fun _ => some s.now, [.cnp q.port q.qpn], rfl, by simp⟩
  exact hor _

/-- What a request packet may send beside its answer. -/
def RdmaExtra (q : Qp) (l : List Output) : Prop := ∀ o ∈ l, o = .cnp q.port q.qpn ∨ ∃ k b, o = .pfc q.port k b

theorem hostCharge_eq (b n k : Nat) (s : State) : ∃ bk : Berth → List (Nat × Int × Nat),
    hostCharge b n k s = { s with berths := s.berths.modify b (fun x => { x with buckets := bk x }) } :=
  ⟨fun x => (n, hostLevel s b n - (k * 100 : Nat), s.now) :: x.buckets.filter (fun y => y.1 != n), rfl⟩

/-- What comes before the operation of a request: buffer level, bucket and congestion. -/
theorem congestion_eq (q : Qp) (p : RdmaPkt) (s : State) :
    ∃ (fill : Nat) (v : BitVec 8) (g : Option Nat → Option Nat) (bk : Berth → List (Nat × Int × Nat)) (l : List Output), congestion q p s = { s with
      fresh := s.fresh + 1, out := l ++ s.out, net := { s.net with ports := s.net.ports.modify q.port (HostPort.buffered fill v) }
      berths := s.berths.modify q.berth (fun b => { b with buckets := bk b }), power := { s.power with lastSram := s.now }
      rdma := (modQp q.qpn (Qp.reported g) s).rdma } ∧
    RdmaExtra q l ∧ (75 < fill → v = (hostPort s q.port).pauseSent ||| pfcEn s) ∧ (fill ≤ 50 → v = 0) := by
  obtain ⟨fill, v, l, hlevel, hl, hfull, hempty⟩ := bufferLevel_eq q.port s
  obtain ⟨bk, hcharge⟩ := hostCharge_eq q.berth q.port p.data.length { bufferLevel q.port s with power := { s.power with lastSram := s.now } }
  have hor : ∀ (c : Bool) (u : State), ∃ g l', (if c then sendCnp q u else u) = { modQp q.qpn (Qp.reported g) u with out := l' ++ u.out } ∧ ∀ o ∈ l', o = .cnp q.port q.qpn := by
    intro c u
    cases c
    · exact ⟨id, [], by rw [modQp_id]; rfl, nofun⟩
    · exact sendCnp_eq q u
  unfold congestion
  dsimp only
  rw [hcharge, hlevel]
  obtain ⟨g, l', hcnp, hl'⟩ := hor _ _
  refine ⟨fill, v, g, bk, l' ++ l, hcnp.trans ?_, fun o ho => (List.mem_append.mp ho).imp (hl' o) (hl o), hfull, hempty⟩
  rw [List.append_assoc]
  rfl

/-- What a request on queue pair `q` changes from `s` to `u` beside its answer: time, what goes out, the port's buffer and pauses, the berth's
buckets, the SRAM timer, the queue pair and shared SRAM. -/
def RdmaServed (t : Nat) (q : Qp) (s u : State) : Prop :=
  u = { s with now := max s.now t, out := u.out, fresh := s.fresh + 1, net := { s.net with ports := u.net.ports }, berths := u.berths,
               power := { s.power with lastSram := max s.now t }, rdma := { s.rdma with qps := u.rdma.qps, sram := u.rdma.sram } } ∧
    (∀ n, hostPort u n = { hostPort s n with rxFill := (hostPort u n).rxFill, pauseSent := (hostPort u n).pauseSent }) ∧
    (∀ n, n ≠ q.port → hostPort u n = hostPort s n) ∧
    (75 < (hostPort u q.port).rxFill → (hostPort u q.port).pauseSent = (hostPort s q.port).pauseSent ||| pfcEn s) ∧
    ((hostPort u q.port).rxFill ≤ 50 → (hostPort u q.port).pauseSent = 0) ∧
    (∀ b, getBerth u b = { getBerth s b with buckets := (getBerth u b).buckets }) ∧
    ∀ k, k ≠ q.qpn → getQp u k = getQp s k

theorem getQp_modQp {g : Qp → Qp} (hg : ∀ x, (g x).qpn = x.qpn) (n k : BitVec 24) (s : State) :
    getQp (modQp n g s) k = if k = n then (getQp s k).map g else getQp s k := by
  have hfind : getQp (modQp n g s) k = (getQp s k).map (fun x => if x.qpn == n then g x else x) := by
    rw [getQp, modQp, List.find?_map, getQp]
    have hp : (fun x : Qp => x.qpn == k) ∘ (fun x => if x.qpn == n then g x else x) = fun x => x.qpn == k := by
      funext x
      simp only [Function.comp]
      split <;> simp [hg]
    rw [hp]
  rw [hfind]
  cases h : getQp s k with
  | none => simp
  | some x =>
    have hx := getQp_qpn h
    by_cases hk : k = n <;> simp [hk, hx]

/-- The state in which a request's operation is done. -/
structure RdmaReady (t : Nat) (q : Qp) (s c : State) : Prop where
  served : RdmaServed t q s c
  out : ∃ l, c.out = l ++ s.out ∧ RdmaExtra q l
  sram : c.rdma.sram = s.rdma.sram
  qp : getQp s q.qpn = some q → ∃ x, getQp c q.qpn = some x ∧ x.state = q.state ∧ x.recvPsn = q.recvPsn

theorem congestion_ready {q : Qp} (hport : q.port < s.net.ports.length) (t : Nat) (p : RdmaPkt) : RdmaReady t q s (congestion q p (setNow t s)) := by
  obtain ⟨fill, v, g, bk, l, heq, hl, hfull, hempty⟩ := congestion_eq q p (setNow t s)
  have hsame : hostPort (congestion q p (setNow t s)) q.port = (hostPort s q.port).buffered fill v := by
    rw [heq]
    exact hostPort_modPort_same (s := s) _ hport
  have hother : ∀ n, n ≠ q.port → hostPort (congestion q p (setNow t s)) n = hostPort s n := by
    intro n hn
    rw [heq]
    exact hostPort_modPort_ne (s := s) _ hn
  have hberth : ∀ b, getBerth (congestion q p (setNow t s)) b = { getBerth s b with buckets := (getBerth (congestion q p (setNow t s)) b).buckets } := by
    intro b
    have hb : getBerth (congestion q p (setNow t s)) b = getBerth (modBerth q.berth (fun b => { b with buckets := bk b }) s) b := by rw [heq]; rfl
    rw [hb, getBerth_modBerth]
    split <;> rfl
  have hqp : ∀ k, getQp (congestion q p (setNow t s)) k = getQp (modQp q.qpn (Qp.reported g) s) k := by
    intro k
    rw [heq]
    rfl
  refine ⟨⟨?_, fun n => ?_, hother, ?_, ?_, hberth, fun k hk => ?_⟩, ⟨l, ?_, hl⟩, ?_, fun hq => ?_⟩
  · rw [heq]
    rfl
  · by_cases hn : n = q.port
    · rw [hn, hsame]
      rfl
    · rw [hother n hn]
  · rw [hsame]
    exact hfull
  · rw [hsame]
    exact hempty
  · rw [hqp, getQp_modQp (g := Qp.reported g) (fun _ => rfl), if_neg hk]
  · rw [heq]
    rfl
  · rw [heq]
    rfl
  · rw [hqp, getQp_modQp (g := Qp.reported g) (fun _ => rfl), if_pos rfl, hq]
    exact ⟨_, rfl, rfl, rfl⟩

/-- The operation changes only its queue pair, shared SRAM and what goes out. -/
theorem RdmaServed.of_operation {t : Nat} {q : Qp} {s c u : State} (h : RdmaServed t q s c)
    (hu : u = { c with out := u.out, rdma := { c.rdma with qps := u.rdma.qps, sram := u.rdma.sram } }) (hq : ∀ k, k ≠ q.qpn → getQp u k = getQp c k) : RdmaServed t q s u := by
  obtain ⟨heq, hports, hothers, hfull, hempty, hberths, hqps⟩ := h
  have hp : ∀ n, hostPort u n = hostPort c n := fun n => by rw [hu]; rfl
  have hb : ∀ b, getBerth u b = getBerth c b := fun b => by rw [hu]; rfl
  refine ⟨?_, fun n => ?_, fun n hn => ?_, ?_, ?_, fun b => ?_, fun k hk => (hq k hk).trans (hqps k hk)⟩
  · have hnet : u.net = c.net := by rw [hu]
    have hber : u.berths = c.berths := by rw [hu]
    have e := hu
    rw [heq] at e
    rw [hnet, hber]
    exact e
  · rw [hp]
    exact hports n
  · rw [hp]
    exact hothers n hn
  · rw [hp]
    exact hfull
  · rw [hp]
    exact hempty
  · rw [hb]
    exact hberths b

section
variable {t : Nat} {q : Qp} {s c : State} {p : RdmaPkt}

/-- The rows of a request take its packet, whatever their immediate data. -/
theorem rdmaRow_takes (imm : BitVec 32) {i : Instr} (hi : i ∈ [Instr.rdmaWrite t p, .rdmaWriteWithImmediate t p imm, .rdmaRead t p]) :
    ∃ m, exec i s = .next (takeRequest p m (setNow t s)) := by
  simp only [List.mem_cons, List.not_mem_nil, or_false] at hi
  rcases hi with rfl | rfl | rfl
  · exact ⟨none, rfl⟩
  · exact ⟨some imm, rfl⟩
  · exact ⟨none, rfl⟩

/-- A request on a queue pair that hears it, outside P3 and above the breakwater's discard. -/
theorem takeRequest_serves (hup : portUp s p.port = true) (hclass : portClassOf s p.port ≠ 0) (hq : getQp s p.qpn = some q) (hport : q.port = p.port) (hrts : q.state = .rts)
    (hp3 : s.power.current ≠ 3) (hlevel : -(hostBurst s q.berth) ≤ hostLevel (setNow t s) q.berth q.port) (m : Option (BitVec 32)) :
    takeRequest p m (setNow t s) = serveByPsn q p m (congestion q p (setNow t s)) := by
  have hup' : portUp (setNow t s) p.port = true := hup
  have hclass' : portClassOf (setNow t s) p.port ≠ 0 := hclass
  have hfilter : (getQp (setNow t s) p.qpn).filter (fun q => q.port == p.port && q.state == .rts) = some q := by
    rw [show getQp (setNow t s) p.qpn = some q from hq, Option.filter_some, if_pos (by simp [hport, hrts])]
  have hkeeps : discards q (setNow t s) = none := by
    unfold discards
    rw [if_neg (show (setNow t s).power.current ≠ 3 from hp3), if_neg (show ¬ hostLevel (setNow t s) q.berth q.port < -hostBurst (setNow t s) q.berth from not_lt.mpr hlevel)]
  unfold takeRequest
  rw [if_neg (by simp [hup']), if_neg hclass', hfilter]
  dsimp only
  rw [hkeeps]

theorem serveByPsn_inOrder (h : p.psn = q.recvPsn) (m : Option (BitVec 32)) (c : State) : serveByPsn q p m c = serveInOrder q p m c := by
  rw [serveByPsn, h]
  simp

theorem serveInOrder_write (h : p.op = .write) (m : Option (BitVec 32)) (c : State) : serveInOrder q p m c = serveWrite q p m c := by
  rw [serveInOrder, h]

theorem serveInOrder_read (h : p.op = .read) (m : Option (BitVec 32)) (c : State) : serveInOrder q p m c = serveRead q p c := by
  rw [serveInOrder, h]

/-- Another operation than a WRITE or a READ is answered with an invalid request. -/
theorem serveInOrder_other (hw : p.op ≠ .write) (hr : p.op ≠ .read) (m : Option (BitVec 32)) (c : State) : serveInOrder q p m c = nakQp q p.psn .invalidRequest c := by
  unfold serveInOrder
  cases hop : p.op with
  | write => exact absurd hop hw
  | read => exact absurd hop hr
  | send => rfl
  | atomic => rfl
  | otherOp => rfl

/-- A NAK on a queue pair on which nothing replicates ends that queue pair. -/
theorem nakQp_ends (hc : RdmaReady t q s c) (hq : getQp s q.qpn = some q) (hrts : q.state = .rts) (hv : ∀ v ∈ s.vaults, v.send.state = .off) (psn : BitVec 24) (code : NakCode) :
    RdmaServed t q s (nakQp q psn code c) ∧ (∃ l, (nakQp q psn code c).out = .rdmaNak q.port q.qpn psn code :: (l ++ s.out) ∧ RdmaExtra q l) ∧
      (nakQp q psn code c).rdma.sram = s.rdma.sram ∧ ∃ x, getQp (nakQp q psn code c) q.qpn = some x ∧ x.state = .error ∧ x.requests = [] := by
  obtain ⟨hserved, ⟨l, hout, hl⟩, hsram, hqp⟩ := hc
  obtain ⟨x, hx, hstate, -⟩ := hqp hq
  have hv' : ∀ v ∈ (emit (.rdmaNak q.port q.qpn psn code) c).vaults, v.send.state = .off := by
    rw [show (emit (.rdmaNak q.port q.qpn psn code) c).vaults = s.vaults by rw [emit, hserved.1]]
    exact hv
  have hnak : nakQp q psn code c = modQp q.qpn (fun x => if x.state = .error then x else { x with state := .error, requests := [], errorSince := ptpNow c })
      (emit (.rdmaNak q.port q.qpn psn code) c) := failQp_alone hv' _
  have hkeep : ∀ y : Qp, (if y.state = .error then y else { y with state := .error, requests := [], errorSince := ptpNow c }).qpn = y.qpn := fun y => by split <;> rfl
  rw [hnak]
  refine ⟨hserved.of_operation rfl fun k hk => ?_, ⟨l, congrArg (_ :: ·) hout, hl⟩, hsram, ?_⟩
  · rw [getQp_modQp hkeep, if_neg hk]
    rfl
  · refine ⟨{ x with state := .error, requests := [], errorSince := ptpNow c }, ?_, rfl, rfl⟩
    rw [getQp_modQp hkeep, if_pos rfl, show getQp (emit (.rdmaNak q.port q.qpn psn code) c) q.qpn = some x from hx, Option.map_some,
      if_neg (by rw [hstate, hrts]; decide)]

/-- A region that software registered, for bytes that lie in it. -/
theorem permitted_plain {r : Region} (hr : getRegion c p.rkey = some r) (ho : r.owner = .plain) (hb : r.berth = q.berth) {len : Nat} (hlen : p.offset + len ≤ r.length)
    {writes : Bool} (hw : (if writes then r.canWrite else r.canRead) = true) : permitted c q p len writes = some r := by
  rw [permitted, hr, Option.filter_some, if_pos]
  simp [hb, hlen, hw, ho]

theorem permitted_none (hr : getRegion c p.rkey = none) (len : Nat) (writes : Bool) : permitted c q p len writes = none := by
  rw [permitted, hr]
  rfl

theorem serveInOrder_unnamed (hop : p.op = .write ∨ p.op = .read) (hr : getRegion c p.rkey = none) (m : Option (BitVec 32)) :
    serveInOrder q p m c = nakQp q p.psn .remoteAccess c := by
  rcases hop with h | h
  · rw [serveInOrder_write h, serveWrite, permitted_none hr]
  · rw [serveInOrder_read h, serveRead, permitted_none hr]

theorem shareMem_setShareMem (b k : Nat) (m : Mem) (u : State) : shareMem (setShareMem b m u) k = if k = b then m else shareMem u k := by
  have hothers : (u.rdma.sram.filter (fun x => x.1 != b)).find? (fun x => x.1 == k) = if k = b then none else u.rdma.sram.find? (fun x => x.1 == k) := by
    rw [List.find?_filter]
    split
    · next h =>
      subst h
      exact List.find?_eq_none.mpr fun x _ => by simp
    · next h =>
      refine congrArg (fun f => u.rdma.sram.find? f) (funext fun x => ?_)
      by_cases hx : x.1 = k <;> simp [hx, h]
  unfold shareMem setShareMem
  dsimp only
  by_cases hm : m.isEmpty = true
  · rw [if_pos hm, hothers]
    by_cases hk : k = b
    · simp [hk, List.isEmpty_iff.mp hm]
    · simp [hk]
  · rw [if_neg hm, List.find?_cons, hothers]
    by_cases hk : k = b
    · simp [hk]
    · rw [show (b == k) = false from beq_false_of_ne (Ne.symm hk), if_neg hk, if_neg hk]

/-- A WRITE into a region of software's, where nothing is poisoned. -/
theorem serveWrite_plain {r : Region} (hr : permitted c q p p.data.length true = some r) (ho : r.owner = .plain) (hp : c.mem.poisoned = []) (m : Option (BitVec 32)) :
    serveWrite q p m c = ackPackets q p.psn (packetsOf q.mtu p.data.length)
      (setShareMem r.berth (memWrite (shareMem c r.berth) (r.offset + p.offset) p.data) c) := by
  have hclear : clearPoison r.berth (r.offset + p.offset) p.data.length (setShareMem r.berth (memWrite (shareMem c r.berth) (r.offset + p.offset) p.data) c) =
      setShareMem r.berth (memWrite (shareMem c r.berth) (r.offset + p.offset) p.data) c := by
    have hmem : c.mem = { c.mem with poisoned := [] } := by rw [← hp]
    simp only [clearPoison, setShareMem, hp, List.filter_nil]
    rw [← hmem]
  have hpart : poisonPart c r.berth (r.offset + p.offset) p.data.length = none := by rw [poisonPart, hp]; rfl
  unfold serveWrite
  dsimp only
  rw [hr]
  dsimp only
  rw [ho]
  dsimp only
  rw [hpart, if_neg (by decide), hclear]

theorem serveRead_plain {r : Region} (hr : permitted c q p p.length false = some r) (hp : c.mem.poisoned = []) : serveRead q p c =
    emit (.rdmaReadData q.port q.qpn p.psn (memRead (shareMem c r.berth) (r.offset + p.offset) p.length))
      (modQp q.qpn (fun x => { x with recvPsn := p.psn + BitVec.ofNat 24 (packetsOf q.mtu p.length) }) c) := by
  have hin : poisonIn c r.berth (r.offset + p.offset) p.length = none := by rw [poisonIn, hp]; rfl
  unfold serveRead answerRead
  dsimp only
  rw [hr]
  dsimp only
  rw [hin]

/-- Moving the expected packet number on. -/
theorem recvPsn_moved {u : State} (h : ∃ x, getQp u q.qpn = some x) (n : BitVec 24) :
    (getQp (modQp q.qpn (fun x => { x with recvPsn := n }) u) q.qpn).map (fun x => x.recvPsn) = some n := by
  obtain ⟨x, hx⟩ := h
  rw [getQp_modQp (g := fun x => { x with recvPsn := n }) (fun _ => rfl), if_pos rfl, hx]
  rfl

/-- Moving it on is an operation on its queue pair. -/
theorem RdmaServed.moved (h : RdmaServed t q s c) (n : BitVec 24) (o : Output) (m : List (Nat × Mem)) :
    RdmaServed t q s (emit o (modQp q.qpn (fun x => { x with recvPsn := n }) { c with rdma := { c.rdma with sram := m } })) :=
  h.of_operation rfl fun k hk => (getQp_modQp (g := fun x => { x with recvPsn := n }) (fun _ => rfl) q.qpn k { c with rdma := { c.rdma with sram := m } }).trans (if_neg hk)

theorem write_served (hc : RdmaReady t q s c) (hq : getQp s q.qpn = some q) {r : Region} (hr : permitted c q p p.data.length true = some r) (ho : r.owner = .plain)
    (hp : c.mem.poisoned = []) (m : Option (BitVec 32)) : ∃ l, RdmaServed t q s (serveWrite q p m c) ∧
      (serveWrite q p m c).out = .rdmaAck q.port q.qpn (p.psn + BitVec.ofNat 24 (packetsOf q.mtu p.data.length - 1)) :: (l ++ s.out) ∧ RdmaExtra q l ∧
      (getQp (serveWrite q p m c) q.qpn).map (fun x => x.recvPsn) = some (p.psn + BitVec.ofNat 24 (packetsOf q.mtu p.data.length)) ∧
      shareMem (serveWrite q p m c) r.berth = memWrite (shareMem s r.berth) (r.offset + p.offset) p.data ∧ ∀ b, b ≠ r.berth → shareMem (serveWrite q p m c) b = shareMem s b := by
  obtain ⟨l, hout, hl⟩ := hc.out
  obtain ⟨x, hx, -, -⟩ := hc.qp hq
  have hshare : ∀ b, shareMem c b = shareMem s b := fun b => by rw [shareMem, shareMem, hc.sram]
  rw [serveWrite_plain hr ho hp]
  refine ⟨l, hc.served.moved .., congrArg (_ :: ·) hout, hl, recvPsn_moved (u := setShareMem ..) ⟨x, hx⟩ _, ?_, fun b hb => ?_⟩
  · refine (shareMem_setShareMem ..).trans ?_
    rw [if_pos rfl, hshare]
  · refine (shareMem_setShareMem ..).trans ?_
    rw [if_neg hb, hshare]

theorem read_served (hc : RdmaReady t q s c) (hq : getQp s q.qpn = some q) {r : Region} (hr : permitted c q p p.length false = some r) (hp : c.mem.poisoned = []) :
    ∃ l, RdmaServed t q s (serveRead q p c) ∧
      (serveRead q p c).out = .rdmaReadData q.port q.qpn p.psn (memRead (shareMem s r.berth) (r.offset + p.offset) p.length) :: (l ++ s.out) ∧ RdmaExtra q l ∧
      (getQp (serveRead q p c) q.qpn).map (fun x => x.recvPsn) = some (p.psn + BitVec.ofNat 24 (packetsOf q.mtu p.length)) ∧ (serveRead q p c).rdma.sram = s.rdma.sram := by
  obtain ⟨l, hout, hl⟩ := hc.out
  obtain ⟨x, hx, -, -⟩ := hc.qp hq
  have hshare : shareMem c r.berth = shareMem s r.berth := by rw [shareMem, shareMem, hc.sram]
  rw [serveRead_plain hr hp, hshare]
  exact ⟨l, hc.served.moved _ _ c.rdma.sram, congrArg (_ :: ·) hout, hl, recvPsn_moved ⟨x, hx⟩ _, hc.sram⟩

theorem ahead_served (hc : RdmaReady t q s c) (hq : getQp s q.qpn = some q) (hne : p.psn ≠ q.recvPsn) (hlt : (p.psn - q.recvPsn).toNat < 2 ^ 23) (m : Option (BitVec 32)) :
    ∃ l, RdmaServed t q s (serveByPsn q p m c) ∧ (serveByPsn q p m c).out = .rdmaNak q.port q.qpn q.recvPsn .sequenceError :: (l ++ s.out) ∧ RdmaExtra q l ∧
      (serveByPsn q p m c).rdma.sram = s.rdma.sram ∧ (getQp (serveByPsn q p m c) q.qpn).map (fun x => (x.state, x.recvPsn)) = some (q.state, q.recvPsn) := by
  obtain ⟨l, hout, hl⟩ := hc.out
  obtain ⟨x, hx, hstate, hpsn⟩ := hc.qp hq
  have hd : (p.psn - q.recvPsn).toNat ≠ 0 := fun h => hne (by bv_omega)
  rw [serveByPsn, if_neg hd, if_pos hlt]
  refine ⟨l, hc.served.of_operation rfl fun _ _ => rfl, congrArg (_ :: ·) hout, hl, hc.sram, ?_⟩
  rw [show getQp (emit (.rdmaNak q.port q.qpn q.recvPsn .sequenceError) c) q.qpn = some x from hx, ← hstate, ← hpsn]
  rfl

end

/-- Settles O51: what comes before the operation (`congestion_ready`), then each operation. -/
theorem rdmaRequestsAreServed : Obligations.RdmaRequestsAreServed := by
  intro t p imm s
  refine ⟨fun hup i hi => ?_, fun hup hclass i hi => ?_, fun hup hclass hnone i hi => ?_, fun q hup hclass hq hport hrts hp3 hlevel => ?_⟩
  · obtain ⟨m, hx⟩ := rdmaRow_takes (s := s) imm hi
    have hup' : portUp (setNow t s) p.port = false := hup
    rw [hx, takeRequest, if_pos (by rw [hup']; rfl)]
  · obtain ⟨m, hx⟩ := rdmaRow_takes (s := s) imm hi
    rw [hx, takeRequest_observed (s := setNow t s) m hup hclass]
  · obtain ⟨m, hx⟩ := rdmaRow_takes (s := s) imm hi
    have hup' : portUp (setNow t s) p.port = true := hup
    have hclass' : portClassOf (setNow t s) p.port ≠ 0 := hclass
    have hfilter : (getQp (setNow t s) p.qpn).filter (fun q => q.port == p.port && q.state == .rts) = none := by
      refine Option.filter_eq_none_iff.mpr fun q hq => ?_
      rcases hnone q hq with h | h <;> simp [h]
    rw [hx, takeRequest, if_neg (by simp [hup']), if_neg hclass', hfilter]
  · have hqpn : q.qpn = p.qpn := getQp_qpn hq
    have hq' : getQp s q.qpn = some q := hqpn ▸ hq
    have hc : RdmaReady t q s (congestion q p (setNow t s)) := congestion_ready (lt_ports_of_linkUp (linkUp_of_portUp (hport ▸ hup))) t p
    have hrow : ∀ i ∈ [Instr.rdmaWrite t p, .rdmaWriteWithImmediate t p imm, .rdmaRead t p],
        ∃ m, exec i s = .next (serveByPsn q p m (congestion q p (setNow t s))) := fun i hi => by
      obtain ⟨m, hx⟩ := rdmaRow_takes (s := s) imm hi
      exact ⟨m, hx.trans (congrArg _ (takeRequest_serves hup hclass hq hport hrts hp3 hlevel m))⟩
    generalize congestion q p (setNow t s) = c at hc hrow
    have hregion : getRegion c p.rkey = getRegion s p.rkey := by rw [getRegion, getRegion, hc.served.1]
    have hpoison : c.mem.poisoned = s.mem.poisoned := by rw [hc.served.1]
    refine ⟨fun r hop hpsn hr ho hb hw hlen hpoi i hi => ?_, fun r hop hpsn hr ho hb hw hlen hpoi i hi => ?_, fun hpsn hv hop hr i hi => ?_, fun hpsn hv hw hr i hi => ?_,
      fun hne hlt i hi => ?_⟩
    all_goals obtain ⟨m, hx⟩ := hrow i hi
    · rw [serveByPsn_inOrder hpsn, serveInOrder_write hop] at hx
      obtain ⟨l, h⟩ := write_served hc hq' (permitted_plain (hregion.trans hr) ho hb hlen hw) ho (hpoison.trans hpoi) m
      exact ⟨_, l, hx, h⟩
    · rw [serveByPsn_inOrder hpsn, serveInOrder_read hop] at hx
      obtain ⟨l, h⟩ := read_served hc hq' (permitted_plain (hregion.trans hr) ho hb hlen hw) (hpoison.trans hpoi)
      exact ⟨_, l, hx, h⟩
    · rw [serveByPsn_inOrder hpsn, serveInOrder_unnamed hop (hregion.trans hr)] at hx
      obtain ⟨hserved, ⟨l, hout, hl⟩, hrest⟩ := nakQp_ends hc hq' hrts hv p.psn .remoteAccess
      exact ⟨_, l, hx, hserved, hout, hl, hrest⟩
    · rw [serveByPsn_inOrder hpsn, serveInOrder_other hw hr] at hx
      obtain ⟨hserved, ⟨l, hout, hl⟩, hrest⟩ := nakQp_ends hc hq' hrts hv p.psn .invalidRequest
      exact ⟨_, l, hx, hserved, hout, hl, hrest⟩
    · obtain ⟨l, h⟩ := ahead_served (p := p) hc hq' hne hlt m
      exact ⟨_, l, hx, h⟩

end Sys2Proof.Machine

namespace Sys2Proof.Machine

/-! ### Frames on a hawser port -/

section
variable {t : Nat} {r : HawserRx} {s : State}

/-- Every row of a frame is its frame's arrival. -/
theorem hawserRow_receives {i : Instr} (hi : i ∈ [Instr.idle t r, .data t r, .ident t r, .topo t r, .flowOpen t r, .flowAck t r, .work t r, .result t r, .announce t r]) :
    exec i s = .next (hawserReceive t r s) := by
  simp only [List.mem_cons, List.not_mem_nil, or_false] at hi
  rcases hi with rfl | rfl | rfl | rfl | rfl | rfl | rfl | rfl | rfl <;> rfl

theorem hawserReceive_deaf (h : alive s = false ∨ 6 ≤ r.port ∨ listens (hawserPort s r.port) = false) : hawserReceive t r s = setNow t s := by
  refine if_neg ?_
  simp only [alive_setNow, hawserPort_setNow, Bool.and_eq_true, decide_eq_true_eq, not_and]
  rintro ⟨ha, hp⟩ hl
  rcases h with h | h | h
  · rw [ha] at h
    cases h
  · omega
  · rw [hl] at h
    cases h

theorem listens_of_carries {h : HawserPort} (hc : carries h.state = true) : listens h = true := by simp [listens, hc]

/-- What a port that listens does with a frame. -/
theorem hawserReceive_heard (ha : alive s = true) (hp : r.port < 6) (hl : listens (hawserPort s r.port) = true) : hawserReceive t r s =
    if r.fecOk = false then nakOnce r.port (modHawserPort r.port (fun h => { h with fecUncorr := satAdd 32 h.fecUncorr 1 }) (hawserHeard t r s))
    else if frameCrcOk r.bytes = false then nakOnce r.port (hawserHeard t r s)
    else if frameBad r.bytes = true then nakOnce r.port (modHawserPort r.port (fun h => { h with badFrames := satAdd 16 h.badFrames 1 }) (hawserHeard t r s))
    else takeFrame r.port (readFrame r.bytes) (hawserHeard t r s) := by
  refine (if_pos ?_).trans ?_
  · simp [ha, hp, hl]
  · simp only [Bool.not_eq_true']
    rfl

/-- A frame whose CRC verifies and whose fields are sound goes on. -/
theorem hawserReceive_good (ha : alive s = true) (hp : r.port < 6) (hl : listens (hawserPort s r.port) = true) (hf : r.fecOk = true) (hc : frameCrcOk r.bytes = true)
    (hb : frameBad r.bytes = false) : hawserReceive t r s = takeFrame r.port (readFrame r.bytes) (hawserHeard t r s) := by
  rw [hawserReceive_heard ha hp hl, hf, hc, hb]
  rfl

theorem modHawserPort_modHawserPort (p : Nat) (g g' : HawserPort → HawserPort) (s : State) :
    modHawserPort p g' (modHawserPort p g s) = modHawserPort p (fun h => g' (g h)) s := by
  have hl : (s.hawser.ports.modify p g).modify p g' = s.hawser.ports.modify p (fun h => g' (g h)) := by
    refine List.ext_getElem? fun m => ?_
    simp only [List.getElem?_modify]
    cases s.hawser.ports[m]? with
    | none => rfl
    | some h => by_cases hm : p = m <;> simp [hm]
  simp only [modHawserPort, hl]

/-- A port with corrections counted and NAK sent, whatever else has been counted. -/
theorem nakOnce_sends {p : Nat} {g : HawserPort → HawserPort} (hp : p < s.hawser.ports.length) (hc : carries (hawserPort s p).state = true) (hn : (hawserPort s p).nakDone = false)
    (hg : ∀ h, (g h).state = h.state ∧ (g h).nakDone = h.nakDone ∧ (g h).rxNext = h.rxNext) (t : Nat) :
    nakOnce p (modHawserPort p g (setNow t s)) = { s with
      now := max s.now t
      out := .hawser p (HFrame.bytes { typ := 0, vl := 31, ack := ((hawserPort s p).rxNext - 1).toNat, crVl := 31, nak := true }) :: s.out
      hawser := { s.hawser with ports := s.hawser.ports.modify p (fun h => { g h with nakDone := true }) } } := by
  have hport : hawserPort (modHawserPort p g (setNow t s)) p = g (hawserPort s p) := hawserPort_modHawserPort_same (s := setNow t s) g hp
  have hboth := modHawserPort_modHawserPort p g (fun h => { h with nakDone := true }) (setNow t s)
  have hport' : hawserPort (modHawserPort p (fun h => { g h with nakDone := true }) (setNow t s)) p = { g (hawserPort s p) with nakDone := true } :=
    hawserPort_modHawserPort_same (s := setNow t s) _ hp
  unfold nakOnce
  dsimp only
  rw [hport, (hg _).1, (hg _).2.1, hc, hn, if_pos (by rfl), hboth, sendIdle, hport']
  show emit (.hawser p (HFrame.bytes { typ := 0, vl := 31, ack := ((g (hawserPort s p)).rxNext - 1).toNat, crVl := 31, nak := true })) _ = _
  rw [(hg _).2.2]
  rfl

/-- A port that has counted a damaged frame. -/
def HawserPort.damaged (r : HawserRx) (h : HawserPort) : HawserPort :=
  { h with
    fecCorr := satAdd 32 h.fecCorr r.corrected, fecUncorr := (if r.fecOk then h.fecUncorr else satAdd 32 h.fecUncorr 1)
    badFrames := (if r.fecOk = true ∧ frameCrcOk r.bytes = true then satAdd 16 h.badFrames 1 else h.badFrames) }

/-- A damaged frame is counted, and NAK sent once. -/
theorem hawserReceive_damaged (ha : alive s = true) (hp : r.port < 6) (hc : carries (hawserPort s r.port).state = true)
    (hbad : r.fecOk = false ∨ frameCrcOk r.bytes = false ∨ frameBad r.bytes = true) :
    hawserReceive t r s = nakOnce r.port (modHawserPort r.port (HawserPort.damaged r) (setNow t s)) := by
  rw [hawserReceive_heard ha hp (listens_of_carries hc), hawserHeard]
  by_cases hf : r.fecOk = false
  · rw [if_pos hf, modHawserPort_modHawserPort]
    exact congrArg (fun g => nakOnce r.port (modHawserPort r.port g (setNow t s))) (funext fun h => by simp [HawserPort.damaged, hf])
  · rw [Bool.not_eq_false] at hf
    rw [if_neg (by rw [hf]; decide)]
    by_cases hcrc : frameCrcOk r.bytes = false
    · rw [if_pos hcrc]
      exact congrArg (fun g => nakOnce r.port (modHawserPort r.port g (setNow t s))) (funext fun h => by simp [HawserPort.damaged, hf, hcrc])
    · rw [Bool.not_eq_false] at hcrc
      have hb : frameBad r.bytes = true := (hbad.resolve_left (by rw [hf]; decide)).resolve_left (by rw [hcrc]; decide)
      rw [if_neg (by rw [hcrc]; decide), if_pos hb, modHawserPort_modHawserPort]
      exact congrArg (fun g => nakOnce r.port (modHawserPort r.port g (setNow t s))) (funext fun h => by simp [HawserPort.damaged, hf, hcrc])

/-! ### Acknowledgements and credits -/

theorem pump_empty {p : Nat} (h : (hawserPort s p).txq = []) : pump p s = s := by
  rw [pump, h]
  rfl

/-- A header that acknowledges the frames up to `k` of the replay buffer and lets nothing go out. -/
theorem takeHeader_acks {p k : Nat} {f : HFrame} (hk : (hawserPort s p).replay.findIdx? (fun x => x.1 == BitVec.ofNat 16 f.ack) = some k) (hn : f.nak = false)
    (htx : (hawserPort s p).txq = []) : takeHeader p f s =
    (if f.crCount = 0 then modHawserPort p (fun h => { h with replay := h.replay.drop (k + 1), ackAt := s.now }) s
     else modCredits p (returnCredits f.crVl f.crCount) (modHawserPort p (fun h => { h with replay := h.replay.drop (k + 1), ackAt := s.now }) s)) := by
  have hport : (hawserPort (modHawserPort p (fun h => { h with replay := h.replay.drop (k + 1), ackAt := s.now }) s) p).txq = [] := by
    rw [hawserPort_modHawserPort]
    split <;> exact htx
  simp only [takeHeader, hk, hn, Option.map_some, Option.getD_some, Nat.add_one_ne_zero, if_false, Bool.false_eq_true]
  split <;> exact pump_empty hport

/-- A header that acknowledges nothing and returns no credits. -/
theorem takeHeader_quiet {p : Nat} {f : HFrame} (hr : (hawserPort s p).replay = []) (hc : f.crCount = 0) (hn : f.nak = false) (htx : (hawserPort s p).txq = []) :
    takeHeader p f s = s := by
  have hid : modHawserPort p (fun h => { h with replay := h.replay.drop 0, ackAt := h.ackAt }) s = s := by
    rw [modHawserPort]
    simp only [List.drop_zero]
    rw [show s.hawser.ports.modify p (fun h => h) = s.hawser.ports from List.modify_id ..]
  simp only [takeHeader, hr, hn, List.findIdx?_nil, Option.map_none, Option.getD_none, hc, if_true, Bool.false_eq_true, if_false]
  rw [hid]
  exact pump_empty htx

/-- A frame taken in order is accepted. -/
theorem hawserReceive_takes (h : HawserTakes r s) : hawserReceive t r s = takeAccepted r.port (readFrame r.bytes)
    (modHawserPort r.port (fun h => { h with rxNext := h.rxNext + 1, nakDone := false }) (hawserHeard t r s)) := by
  obtain ⟨ha, hp, hlen, hc, hf, hcrc, hb, hid, htyp, hseq, htx, hre, hcr, hnak⟩ := h
  have hport : hawserPort (hawserHeard t r s) r.port = { hawserPort s r.port with fecCorr := satAdd 32 (hawserPort s r.port).fecCorr r.corrected } :=
    hawserPort_modHawserPort_same (s := setNow t s) _ hlen
  have hquiet : takeHeader r.port (readFrame r.bytes) (hawserHeard t r s) = hawserHeard t r s :=
    takeHeader_quiet (by rw [hport]; exact hre) hcr hnak (by rw [hport]; exact htx)
  rw [hawserReceive_good ha hp (listens_of_carries hc) hf hcrc hb]
  unfold takeFrame
  rw [if_neg (by rw [hid]; decide), hport, if_pos hc, hquiet]
  dsimp only
  rw [if_neg htyp, hport, if_pos]
  simp only [Bool.and_eq_true, beq_iff_eq]
  exact ⟨hc, hseq⟩

/-- An acknowledgement that comes alone. -/
theorem idle_acks {k : Nat} (ha : alive s = true) (hp : r.port < 6) (hc : carries (hawserPort s r.port).state = true) (hf : r.fecOk = true) (hcrc : frameCrcOk r.bytes = true)
    (hb : frameBad r.bytes = false) (htyp : (readFrame r.bytes).typ = 0) (htx : (hawserPort s r.port).txq = []) (hn : (readFrame r.bytes).nak = false)
    (hcred : r.port < s.hawser.credits.length)
    (hk : (hawserPort s r.port).replay.findIdx? (fun x => x.1 == BitVec.ofNat 16 (readFrame r.bytes).ack) = some k) :
    (hawserPort (hawserReceive t r s) r.port).replay = (hawserPort s r.port).replay.drop (k + 1) ∧ (hawserPort (hawserReceive t r s) r.port).ackAt = max s.now t ∧
      creditsOf (hawserReceive t r s) r.port = (if (readFrame r.bytes).crCount = 0 then creditsOf s r.port
        else returnCredits (readFrame r.bytes).crVl (readFrame r.bytes).crCount (creditsOf s r.port)) ∧
      hawserReceive t r s = { s with
        now := max s.now t, hawser := { s.hawser with ports := (hawserReceive t r s).hawser.ports, credits := (hawserReceive t r s).hawser.credits } } := by
  have hlen : r.port < s.hawser.ports.length := by
    by_contra hno
    rw [hawserPort, List.getD_eq_default _ _ (Nat.le_of_not_lt hno)] at hc
    cases hc
  have hport : hawserPort (hawserHeard t r s) r.port = { hawserPort s r.port with fecCorr := satAdd 32 (hawserPort s r.port).fecCorr r.corrected } :=
    hawserPort_modHawserPort_same (s := setNow t s) _ hlen
  have hreceive : hawserReceive t r s = takeHeader r.port (readFrame r.bytes) (hawserHeard t r s) := by
    rw [hawserReceive_good ha hp (listens_of_carries hc) hf hcrc hb]
    unfold takeFrame
    rw [if_neg (by simp [isIdent, htyp]), hport, if_pos hc]
    dsimp only
    rw [if_pos htyp]
  have hacks := takeHeader_acks (s := hawserHeard t r s) (p := r.port) (k := k) (f := readFrame r.bytes) (by rw [hport]; exact hk) hn (by rw [hport]; exact htx)
  have hacked : hawserPort (modHawserPort r.port (fun h => { h with replay := h.replay.drop (k + 1), ackAt := (hawserHeard t r s).now }) (hawserHeard t r s)) r.port =
      { hawserPort (hawserHeard t r s) r.port with replay := (hawserPort s r.port).replay.drop (k + 1), ackAt := max s.now t } := by
    rw [hawserPort_modHawserPort_same _ (by simpa [hawserHeard, modHawserPort] using hlen), hport]
    rfl
  rw [hreceive, hacks]
  split
  · rw [hacked]
    exact ⟨rfl, rfl, rfl, rfl⟩
  · refine ⟨congrArg HawserPort.replay hacked, congrArg HawserPort.ackAt hacked, ?_, rfl⟩
    simp [creditsOf, modCredits, hawserHeard, modHawserPort, List.getD_eq_getElem?_getD, hcred]

/-! ### IDENT -/

/-- An IDENT frame on a port at step 4 of its training. -/
theorem hawserReceive_ident (ha : alive s = true) (hp : r.port < 6) (hst : (hawserPort s r.port).state = .training) (hstep : (hawserPort s r.port).step = 4)
    (hf : r.fecOk = true) (hcrc : frameCrcOk r.bytes = true) (hb : frameBad r.bytes = false) (hid : isIdent (readFrame r.bytes) = true) :
    hawserReceive t r s = takeIdent r.port (padTo 32 (readFrame r.bytes).payload) (hawserHeard t r s) := by
  rw [hawserReceive_good ha hp (by simp [listens, hst, hstep]) hf hcrc hb]
  exact if_pos hid

theorem takeIdent_invalid {p : Nat} {m : Bytes} (h : identValid m = false) : takeIdent p m s = s := by
  unfold takeIdent
  rw [h]
  rfl

/-- A valid IDENT at step 4 is answered, and judged where it is the second one. -/
theorem takeIdent_valid {p : Nat} {m : Bytes} (h : identValid m = true) (hst : (hawserPort s p).state = .training) (hstep : (hawserPort s p).step = 4) : takeIdent p m s =
    if (hawserPort s p).lastIdent = some m then judgeIdent p m (sendIdent p s) else modHawserPort p (fun h => { h with lastIdent := some m }) (sendIdent p s) := by
  unfold takeIdent
  dsimp only
  rw [h, if_neg (by decide), if_pos ⟨hst, hstep⟩]

theorem leaveLink_peer (p : Nat) (st : HawserState) (s : State) : (hawserPort (leaveLink p st s) p).peerModule = (hawserPort s p).peerModule := by
  unfold leaveLink
  dsimp only
  rw [(moveFrames_sends ..).port_part HawserPort.peerModule (fun _ => rfl), enterPort_part HawserPort.peerModule (fun _ => rfl) (fun _ _ _ _ => rfl)]
  show (hawserPort (modHawserPort p _ s) p).peerModule = _
  rw [hawserPort_modHawserPort]
  split <;> rfl

/-- A peer of another fleet leaves the port FOREIGN. -/
theorem judgeIdent_foreign {p : Nat} {m : Bytes} (hp : p < s.hawser.ports.length) (h : getLE m 4 4 ≠ fleetId s) : (hawserPort (judgeIdent p m s) p).state = .foreign ∧
    (hawserPort (judgeIdent p m s) p).peerModule = identModule m ∧ (judgeIdent p m s).cmds = s.cmds := by
  have hjudge : judgeIdent p m s =
      leaveLink p .foreign (modHawserPort p (fun h => { h with peerModule := identModule m, peerPort := identPort m, peerSerial := slice m 16 16 }) s) := by
    have hchecks : identChecks (modHawserPort p (fun h => { h with peerModule := identModule m, peerPort := identPort m, peerSerial := slice m 16 16 }) s) p m = some .foreign :=
      if_pos h
    unfold judgeIdent
    dsimp only
    rw [hchecks]
  rw [hjudge]
  refine ⟨leaveLink_state _ (by simpa [modHawserPort] using hp), (leaveLink_peer ..).trans ?_, leaveLink_cmds ..⟩
  rw [hawserPort_modHawserPort_same _ hp]

end

end Sys2Proof.Machine

namespace Sys2Proof.Machine

/-! ### Accepted frames -/

section
variable {t : Nat} {r : HawserRx} {s : State}

theorem takes_data (h : HawserTakes r s) (ht : (readFrame r.bytes).typ = 1) (hd : (readFrame r.bytes).dest = moduleNo s) :
    hawserReceive t r s = takeData r.port (readFrame r.bytes) (hawserTaken t r s) := by
  rw [hawserReceive_takes h]
  unfold takeAccepted
  rw [if_neg (by omega)]
  refine (if_pos hd).trans ?_
  exact if_pos ht

theorem takes_announce (h : HawserTakes r s) (ht : (readFrame r.bytes).typ = 3) :
    hawserReceive t r s = takeAnnounceFrame r.port (readFrame r.bytes) (hawserTaken t r s) := by
  rw [hawserReceive_takes h]
  exact if_pos ht

/-- A control frame that is a whole message. -/
theorem takes_message (h : HawserTakes r s) (ht : (readFrame r.bytes).typ = 2) (hd : (readFrame r.bytes).dest = moduleNo s) (hl : (readFrame r.bytes).last = true)
    (hp : s.hawser.partialMsg = []) : hawserReceive t r s =
      takeMessage r.port (readFrame r.bytes).src (readFrame r.bytes).flow (readFrame r.bytes).payload (hawserTaken t r s) := by
  have hw : (hawserTaken t r s).hawser.partialMsg = [] := hp
  have hsame : ({ hawserTaken t r s with hawser := { (hawserTaken t r s).hawser with partialMsg := [] } } : State) = hawserTaken t r s := by rw [← hw]
  rw [hawserReceive_takes h]
  unfold takeAccepted
  rw [if_neg (by omega)]
  refine (if_pos hd).trans ?_
  refine (if_neg (by omega)).trans ?_
  show takeControl r.port (readFrame r.bytes) (hawserTaken t r s) = _
  unfold takeControl
  rw [hw, hl]
  simp only [List.find?_nil, Option.map_none, Option.getD_none, List.nil_append, if_true, List.filter_nil]
  rw [hsame]

end

/-! ### DATA -/

section
variable {p : Nat} {f : HFrame} {s : State} {fl : Flow}

theorem takeData_unknown (h : findFlow s f.src (BitVec.ofNat 32 f.flow) = none) :
    takeData p f s = modHawserPort p (fun h => { h with flowUnknown := satAdd 8 h.flowUnknown 1 }) s := by rw [takeData, h]

theorem takeData_complete (h : findFlow s f.src (BitVec.ofNat 32 f.flow) = some fl) (hc : flowComplete fl = true) :
    takeData p f s = modHawserPort p (fun h => { h with flowUnknown := satAdd 8 h.flowUnknown 1 }) s := by
  rw [takeData, h]
  exact if_pos hc

/-- The flow with a frame's bytes in it. -/
def Flow.received (f : HFrame) (fl : Flow) : Flow :=
  { fl with
    frames := (if fl.frames.contains f.frameNo then fl.frames else f.frameNo :: fl.frames)
    data := memWrite fl.data (f.frameNo * 992) (dataBytes fl f) }

/-- `s` with the frame entered in its flow. -/
def flowReceived (f : HFrame) (fl : Flow) (s : State) : State :=
  { s with hawser := { s.hawser with flows := s.hawser.flows.map (fun x => if x.src == fl.src && x.flow == fl.flow then fl.received f else x) } }

theorem takeData_open (h : findFlow s f.src (BitVec.ofNat 32 f.flow) = some fl) (hc : flowComplete fl = false) (hw : fl.work = none) : takeData p f s =
    setShareMem fl.berth (memWrite (shareMem s fl.berth) (fl.offset + f.frameNo * 992) ((dataBytes fl f).take (sramShare s fl.berth - (fl.offset + f.frameNo * 992))))
      (flowReceived f fl s) := by
  rw [takeData, h]
  refine (if_neg (by rw [hc]; decide)).trans ?_
  dsimp only
  split
  · next hwork => exact absurd (hwork.symm.trans hw) (by simp)
  · rfl

theorem findFlow_received {src : Nat} {n : BitVec 32} (h : findFlow s src n = some fl) (f : HFrame) : findFlow (flowReceived f fl s) src n = some (fl.received f) := by
  have hkey : (fl.src == src && fl.flow == n) = true := by simpa using List.find?_some h
  simp only [Bool.and_eq_true, beq_iff_eq] at hkey
  rw [findFlow, flowReceived, List.find?_map]
  have hp : (fun x : Flow => x.src == src && x.flow == n) ∘ (fun x => if x.src == fl.src && x.flow == fl.flow then fl.received f else x) =
      fun x => x.src == src && x.flow == n := by
    funext x
    simp only [Function.comp]
    split
    · next hx =>
      simp only [Bool.and_eq_true, beq_iff_eq] at hx
      simp [Flow.received, hkey, hx]
    · rfl
  rw [hp, show s.hawser.flows.find? (fun x => x.src == src && x.flow == n) = some fl from h]
  simp

theorem mem_received (f : HFrame) (fl : Flow) : f.frameNo ∈ (fl.received f).frames := by
  unfold Flow.received
  dsimp only
  split
  · next h => exact List.contains_iff_mem.mp h
  · exact List.mem_cons_self

theorem findFlow_setShareMem (b : Nat) (mem : Mem) (s : State) (src : Nat) (n : BitVec 32) : findFlow (setShareMem b mem s) src n = findFlow s src n := rfl

theorem shareMem_flowReceived (f : HFrame) (fl : Flow) (s : State) (b : Nat) : shareMem (flowReceived f fl s) b = shareMem s b := rfl

theorem setShareMem_flowReceived_frame (b : Nat) (mem : Mem) (f : HFrame) (fl : Flow) (s : State) : setShareMem b mem (flowReceived f fl s) =
    { s with
      hawser := { s.hawser with flows := (setShareMem b mem (flowReceived f fl s)).hawser.flows }
      rdma := { s.rdma with sram := (setShareMem b mem (flowReceived f fl s)).rdma.sram } } := rfl

/-- DATA of an open flow that no work awaits lands in its berth's SRAM. -/
theorem takeData_lands (h : findFlow s f.src (BitVec.ofNat 32 f.flow) = some fl) (hc : flowComplete fl = false) (hw : fl.work = none) :
    shareMem (takeData p f s) fl.berth = memWrite (shareMem s fl.berth) (fl.offset + f.frameNo * 992)
      ((dataBytes fl f).take (sramShare s fl.berth - (fl.offset + f.frameNo * 992))) ∧
    (∀ b, b ≠ fl.berth → shareMem (takeData p f s) b = shareMem s b) ∧
    (∃ g, findFlow (takeData p f s) f.src (BitVec.ofNat 32 f.flow) = some g ∧ f.frameNo ∈ g.frames ∧ g.bytes = fl.bytes) ∧
    takeData p f s = { s with hawser := { s.hawser with flows := (takeData p f s).hawser.flows }, rdma := { s.rdma with sram := (takeData p f s).rdma.sram } } := by
  rw [takeData_open h hc hw]
  generalize memWrite (shareMem s fl.berth) _ _ = mem
  refine ⟨?_, fun b hb => ?_, ⟨fl.received f, ?_, mem_received f fl, rfl⟩, setShareMem_flowReceived_frame ..⟩
  · rw [shareMem_setShareMem, if_pos rfl]
  · rw [shareMem_setShareMem, if_neg hb, shareMem_flowReceived]
  · rw [findFlow_setShareMem, findFlow_received h f]

end

/-! ### Messages -/

section
variable {p src flow : Nat} {m : Bytes} {s : State}

theorem takeMessage_topo (h : getLE m 0 2 = 2) : takeMessage p src flow m s = takeTopo p m s := by simp only [takeMessage, h]

theorem takeMessage_flowOpen (h : getLE m 0 2 = 3) : takeMessage p src flow m s = takeFlowOpen src m s := by simp only [takeMessage, h]

theorem takeMessage_flowAck (h : getLE m 0 2 = 4) : takeMessage p src flow m s = takeFlowAck src m s := by simp only [takeMessage, h]

theorem takeMessage_work (h : getLE m 0 2 = 5) : takeMessage p src flow m s = takeWork src flow m s := by simp only [takeMessage, h]

theorem takeMessage_result (h : getLE m 0 2 = 6) : takeMessage p src flow m s = takeResult src flow m s := by simp only [takeMessage, h]

end

section
variable {p src flow : Nat} {m : Bytes} {s : State}

/-- A flow that is not open yet and that there is room for. -/
theorem takeFlowOpen_room (hnew : findFlow s src (BitVec.ofNat 32 (getLE m 2 4)) = none) (hroom : openFlows s < 4096) :
    ∃ x, (takeFlowOpen src m s).hawser.flows = s.hawser.flows ++ [x] ∧ x.src = src ∧ x.flow = BitVec.ofNat 32 (getLE m 2 4) ∧ x.berth = getLE m 6 1 ∧
      x.offset = getLE m 10 8 ∧ x.bytes = getLE m 18 8 ∧ x.frames = [] ∧ (takeFlowOpen src m s).cmds = s.cmds := by
  have hsame : s.hawser.flows.filter (fun f => !(f.src == src && f.flow == BitVec.ofNat 32 (getLE m 2 4))) = s.hawser.flows :=
    List.filter_eq_self.mpr fun x hx => by simpa [imp_iff_not_or] using List.find?_eq_none.mp hnew x hx
  unfold takeFlowOpen
  dsimp only
  rw [hsame]
  refine ⟨{ src := src, flow := BitVec.ofNat 32 (getLE m 2 4), berth := getLE m 6 1, offset := getLE m 10 8, bytes := getLE m 18 8, frames := [],
            work := workFor s (getLE m 6 1) (src, getLE m 10 8, getLE m 18 8) }, ?_, rfl, rfl, rfl, rfl, rfl, rfl, ?_⟩
  · rw [if_neg (not_le.mpr hroom), ((Sends.refl _).sendMessage ..).eq]
  · rw [if_neg (not_le.mpr hroom), ((Sends.refl _).sendMessage ..).eq]

theorem takeFlowOpen_full (hnew : findFlow s src (BitVec.ofNat 32 (getLE m 2 4)) = none) (hfull : 4096 ≤ openFlows s) :
    (takeFlowOpen src m s).hawser.flows = s.hawser.flows ∧ (takeFlowOpen src m s).cmds = s.cmds := by
  have hsame : s.hawser.flows.filter (fun f => !(f.src == src && f.flow == BitVec.ofNat 32 (getLE m 2 4))) = s.hawser.flows :=
    List.filter_eq_self.mpr fun x hx => by simpa [imp_iff_not_or] using List.find?_eq_none.mp hnew x hx
  unfold takeFlowOpen
  dsimp only
  rw [hsame, if_pos (show 4096 ≤ openFlows s from hfull), ((Sends.refl _).sendMessage ..).eq]
  exact ⟨rfl, rfl⟩

theorem sendFlowData_sends (x : TxFlow) (s : State) : Sends s (sendFlowData x s) :=
  Sends.foldl (fun _ _ h => h.sendRoutedFrom ..) _ (Sends.refl s)

/-- A FLOW_ACK releases the flow it names. -/
theorem takeFlowAck_releases {x : TxFlow} (h : s.hawser.txFlows.find? (fun x => x.flow == BitVec.ofNat 32 (getLE m 2 4) && x.dest == src) = some x) :
    (takeFlowAck src m s).hawser.txFlows = s.hawser.txFlows.filter (fun y => y.flow != BitVec.ofNat 32 (getLE m 2 4)) ∧ (takeFlowAck src m s).cmds = s.cmds := by
  set s1 : State := { s with hawser := { s.hawser with txFlows := s.hawser.txFlows.filter (fun y => y.flow != BitVec.ofNat 32 (getLE m 2 4)) } } with hs1
  have key : Sends s1 (takeFlowAck src m s) := by
    unfold takeFlowAck
    dsimp only
    rw [h]
    dsimp only
    split
    · exact sendFlowData_sends x s1
    · refine Sends.modWork ?_ ..
      split
      · exact (Sends.refl s1).endMembers ..
      · exact Sends.refl s1
  rw [key.eq]
  exact ⟨rfl, rfl⟩

theorem takeFlowAck_unknown (h : s.hawser.txFlows.find? (fun x => x.flow == BitVec.ofNat 32 (getLE m 2 4) && x.dest == src) = none) : takeFlowAck src m s = s := by
  unfold takeFlowAck
  dsimp only
  rw [h]

theorem getWork_modWork (g : FleetWork → FleetWork) (hg : ∀ x, (g x).cmd = x.cmd) (c : Nat) (s : State) : getWork (modWork c g s) c = (getWork s c).map g := by
  rw [getWork, modWork, List.find?_map, getWork]
  have hp : (fun x : FleetWork => x.cmd == c) ∘ (fun x => if x.cmd == c then g x else x) = fun x => x.cmd == c := by
    funext x
    simp only [Function.comp]
    split <;> simp [hg]
  rw [hp]
  cases h : s.hawser.works.find? (fun x => x.cmd == c) with
  | none => rfl
  | some x => exact congrArg some (if_pos (List.find?_some h))

theorem getWork_addResult {c : Nat} {x : FleetWork} (h : getWork s c = some x) (src : Nat) (body : Bytes) :
    getWork (addResult c src body s) c = some { x with waiting := x.waiting.erase src, results := x.results ++ [(src, body)] } := by
  rw [addResult, getWork_modWork (fun w => { w with waiting := w.waiting.erase src, results := w.results ++ [(src, body)] }) (fun _ => rfl), h]
  rfl

/-- A successful RESULT of a member that the origin's work waits for. -/
theorem takeResult_joins {a : Active} (h : s.cmds.active.find? (fun a => a.frame.berth == flow && a.frame.tag.toNat == getLE m 2 4 && a.origin.isNone
      && ((getWork s a.id).map (fun w => w.waiting.contains src)).getD false) = some a) (hok : isSuccess (readBlock (m.drop 6)).status = true) :
    takeResult src flow m s = addResult a.id src (m.drop 6) s := by
  unfold takeResult
  dsimp only
  rw [h, hok]
  rfl

end

/-! ### TOPO -/

theorem neighboursOf_ports {s u : State} (hf : u.hawser.fleet = s.hawser.fleet) (hr : u.regs = s.regs)
    (hp : ∀ p, (hawserPort u p).linked = (hawserPort s p).linked ∧ (hawserPort u p).peerModule = (hawserPort s p).peerModule) : neighboursOf u = neighboursOf s := by
  funext m
  unfold neighboursOf moduleNo
  rw [hf, hr]
  simp only [(hp _).1, (hp _).2]

/-- The modules of the fleet depend only on what the module knows of its peers. -/
theorem fleetModules_ports {s u : State} (hf : u.hawser.fleet = s.hawser.fleet) (hr : u.regs = s.regs)
    (hp : ∀ p, (hawserPort u p).linked = (hawserPort s p).linked ∧ (hawserPort u p).peerModule = (hawserPort s p).peerModule) : fleetModules u = fleetModules s := by
  have hreach (n : Nat) (l : List Nat) : reachGo u n l = reachGo s n l := by
    induction n generalizing l with
    | zero => rfl
    | succ n ih => rw [reachGo, reachGo, ih, neighboursOf_ports hf hr hp]
  simp only [fleetModules, hreach, moduleNo, hf, hr]

theorem fleetModules_hawserTaken (t : Nat) (r : HawserRx) (s : State) : fleetModules (hawserTaken t r s) = fleetModules s := by
  refine fleetModules_ports rfl rfl fun p => ?_
  show (hawserPort (modHawserPort _ _ (modHawserPort _ _ s)) p).linked = _ ∧ (hawserPort (modHawserPort _ _ (modHawserPort _ _ s)) p).peerModule = _
  rw [modHawserPort_modHawserPort, hawserPort_modHawserPort]
  split <;> exact ⟨rfl, rfl⟩

section
variable {p : Nat} {m : Bytes} {s : State}

/-- What the module knows of the sender of a TOPO message after it. -/
def topoEntry (m : Bytes) (s : State) : FleetModule :=
  { (s.hawser.fleet.find? (fun x => x.module == getLE m 2 2)).getD { module := getLE m 2 2, serial := [], neighbours := [], version := 0 } with
    neighbours := topoNeighbours m, version := BitVec.ofNat 16 (getLE m 22 2) }

theorem topoEntry_module (m : Bytes) (s : State) : (topoEntry m s).module = getLE m 2 2 := by
  unfold topoEntry
  cases h : s.hawser.fleet.find? (fun x => x.module == getLE m 2 2) with
  | none => rfl
  | some x => simpa using List.find?_some h

theorem takeTopo_stale (h : getLE m 2 2 = moduleNo s ∨ newerTopo s (getLE m 2 2) (BitVec.ofNat 16 (getLE m 22 2)) = false) : takeTopo p m s = s :=
  if_pos (h.imp_right fun h => by rw [h]; rfl)

/-- A newer TOPO message replaces the entry of its sender, and modules it cuts off are forgotten. -/
theorem takeTopo_newer (hm : getLE m 2 2 ≠ moduleNo s) (hn : newerTopo s (getLE m 2 2) (BitVec.ofNat 16 (getLE m 22 2)) = true) :
    (∃ now : List Nat, (takeTopo p m s).hawser.fleet = (topoEntry m s :: s.hawser.fleet.filter (fun x => x.module != getLE m 2 2)).filter
      (fun x => now.contains x.module || !(fleetModules s).contains x.module)) ∧ (takeTopo p m s).cmds = s.cmds := by
  set s1 : State := { s with hawser := { s.hawser with fleet := topoEntry m s :: s.hawser.fleet.filter (fun x => x.module != getLE m 2 2) } } with hs1
  have htopo : takeTopo p m s = floodOn p 2 m (forgetLost (fleetModules s) (failCut s s1)) := by
    refine if_neg ?_
    rintro (h | h)
    · exact hm h
    · rw [hn] at h
      cases h
  have hcut : Sends s1 (failCut s s1) := (Sends.refl s1).failCut s
  rw [htopo, ((Sends.refl (forgetLost (fleetModules s) (failCut s s1))).floodOn p 2 m).eq]
  refine ⟨⟨fleetModules (failCut s s1), ?_⟩, ?_⟩
  · show (failCut s s1).hawser.fleet.filter _ = _
    rw [show (failCut s s1).hawser.fleet = s1.hawser.fleet by rw [hcut.eq]]
  · show (failCut s s1).cmds = _
    rw [hcut.eq]

/-- All entries of the sender of a newer TOPO message are the message's, and there is one where the sender was not reached before. -/
theorem takeTopo_entry (hm : getLE m 2 2 ≠ moduleNo s) (hn : newerTopo s (getLE m 2 2) (BitVec.ofNat 16 (getLE m 22 2)) = true) :
    (∀ x ∈ (takeTopo p m s).hawser.fleet, x.module = getLE m 2 2 → x.neighbours = topoNeighbours m ∧ x.version = BitVec.ofNat 16 (getLE m 22 2)) ∧
    (getLE m 2 2 ∉ fleetModules s → ∃ x ∈ (takeTopo p m s).hawser.fleet, x.module = getLE m 2 2) := by
  obtain ⟨⟨now, hfleet⟩, -⟩ := takeTopo_newer (p := p) hm hn
  rw [hfleet]
  refine ⟨fun x hx hsrc => ?_, fun hout => ⟨topoEntry m s, ?_, topoEntry_module m s⟩⟩
  · obtain rfl | hold := List.mem_cons.mp (List.mem_filter.mp hx).1
    · exact ⟨rfl, rfl⟩
    · exact absurd hsrc (by simpa using (List.mem_filter.mp hold).2)
  · refine List.mem_filter.mpr ⟨List.mem_cons_self, ?_⟩
    rw [topoEntry_module]
    simp [hout]

end

/-! ### WORK -/

theorem openFlow_cmds (cmd dest berth offset : Nat) (data : Bytes) (s : State) : (openFlow cmd dest berth offset data s).cmds = s.cmds := by
  unfold openFlow
  dsimp only
  rw [((Sends.refl _).sendMessage ..).eq]

theorem workSend_cmds (cmd berth : Nat) (s : State) : (workSend cmd berth s).cmds = s.cmds := by
  unfold workSend
  split
  · rfl
  · split
    · rfl
    · dsimp only
      split
      · rfl
      · exact List.foldlRecOn (motive := fun u : State => u.cmds = s.cmds) _ _ rfl fun u hu _ _ => (openFlow_cmds ..).trans hu

theorem workAdvance_cmds (cmd berth n : Nat) (s : State) : (workAdvance cmd berth n s).cmds = s.cmds := by
  induction n generalizing s with
  | zero => rfl
  | succ n ih =>
    unfold workAdvance
    split
    · rfl
    · split
      · rfl
      · split
        · rw [ih, workSend_cmds]
          rfl
        · split
          · rw [ih]
            rfl
          · rfl

theorem fetchAll_cmds (id : Nat) (l : List (Nat × DRef)) (s : State) : (fetchAll id l s).cmds = s.cmds := by
  induction l generalizing s with
  | nil => rfl
  | cons x l ih =>
    refine (ih _).trans ?_
    unfold sendRdmaRead
    split <;> rfl

theorem startCollective_cmds (s : State) (a : Active) : (startCollective s a).cmds = s.cmds := by
  unfold startCollective workBegin
  dsimp only
  rw [workAdvance_cmds, workSend_cmds]
  split
  · rfl
  · exact List.foldlRecOn (motive := fun u : State => u.cmds = s.cmds) _ _ rfl fun u hu _ _ => by
      rw [sendWork, ((Sends.refl u).sendMessage ..).eq]
      exact hu

/-- A command without what its progress changes. -/
def Active.fixed (a : Active) : Active := { a with phase := 0, awaiting := [], hawser := false }

theorem mem_modActive (g : Active → Active) (hg : ∀ a, (g a).fixed = a.fixed) (n : Nat) {s : State} {a b : Active} (hb : b ∈ s.cmds.active) (hab : b.fixed = a.fixed) :
    ∃ c ∈ (modActive n g s).cmds.active, c.fixed = a.fixed := by
  refine ⟨_, List.mem_map_of_mem hb, ?_⟩
  split
  · exact (hg b).trans hab
  · exact hab

/-- A member's command keeps its identifier, opcode, frame and origin when it starts or waits. -/
theorem tryStart_collective (id : Nat) {s : State} {a b : Active} (hb : b ∈ s.cmds.active) (hab : b.fixed = a.fixed) :
    (tryStart cmdCollective id s).cmds.nextId = s.cmds.nextId ∧ ∃ c ∈ (tryStart cmdCollective id s).cmds.active, c.fixed = a.fixed := by
  have hphase (n : Nat) : ∃ c ∈ (modActive id (fun a => { a with phase := n }) s).cmds.active, c.fixed = a.fixed :=
    mem_modActive (fun a => { a with phase := n }) (fun _ => rfl) id hb hab
  unfold tryStart
  split
  · exact ⟨rfl, b, hb, hab⟩
  · split
    · exact ⟨rfl, b, hb, hab⟩
    · dsimp only
      split
      · split
        · exact ⟨rfl, hphase _⟩
        · exact ⟨rfl, hphase _⟩
      · have hrun (n : Nat) (u : State) (hu : u.cmds = (modActive id (fun a => { a with phase := n }) s).cmds) (aw : List Nat) :
            (modActive id (fun a => { a with awaiting := aw }) u).cmds.nextId = s.cmds.nextId ∧
            ∃ c ∈ (modActive id (fun a => { a with awaiting := aw }) u).cmds.active, c.fixed = a.fixed := by
          obtain ⟨c, hc, hca⟩ := hphase n
          refine ⟨(congrArg Cmds.nextId hu : u.cmds.nextId = _), mem_modActive (fun a => { a with awaiting := aw }) (fun _ => rfl) id ?_ hca⟩
          rw [hu]
          exact hc
        split
        · rw [show cmdCollective.slow _ _ = true from rfl, Bool.not_true, Bool.and_false, if_neg Bool.false_ne_true]
          exact hrun _ _ ((startCollective_cmds ..).trans (fetchAll_cmds ..)) _
        · exact hrun _ _ ((startCollective_cmds ..).trans (fetchAll_cmds ..)) _

section
variable {src flow : Nat} {m : Bytes} {s : State}

theorem takeWork_unknown (h : specOf (getLE m 2 2) = none) : (takeWork src flow m s).cmds = s.cmds ∧ (takeWork src flow m s).rdma = s.rdma := by
  unfold takeWork
  dsimp only
  rw [h]
  dsimp only
  rw [sendResult_frame]
  exact ⟨rfl, rfl⟩

/-- The command that a member accepts from its origin. -/
def memberActive (src flow : Nat) (m : Bytes) (s : State) : Active :=
  let f := memberFrame flow cmdCollective m
  let u := cmdCollective.uses s f
  { id := s.cmds.nextId, opcode := 0x0810, frame := f, phase := 0, accepted := ptpNow s, acceptedLocal := s.now, result := false,
    lock := u.lock, objs := u.objs, regions := refRegions u.refs, qps := refQps u.refs, pin := u.pin, reserved := u.reserved, snap := u.snap,
    depth := cmdCollective.depth s f, hawser := true, origin := some (src, getLE m 4 4) }

/-- `s` with a member's command accepted. -/
def memberEntered (src flow : Nat) (m : Bytes) (s : State) : State :=
  { s with cmds := { s.cmds with nextId := s.cmds.nextId + 1, active := s.cmds.active ++ [memberActive src flow m s] } }

/-- A member's collective command that passes its checks is entered, and starts or waits. -/
theorem takeWork_member (hop : getLE m 2 2 = 0x0810) (hok : memberRefuse cmdCollective s (memberFrame flow cmdCollective m) = none) : ∃ n, takeWork src flow m s =
    workAdvance s.cmds.nextId flow n (tryStart cmdCollective s.cmds.nextId (cmdCollective.take (memberEntered src flow m s) (memberActive src flow m s))) := by
  have hspec : specOf (getLE m 2 2) = some cmdCollective := by
    rw [hop]
    rfl
  unfold takeWork
  dsimp only
  rw [hspec]
  dsimp only
  rw [if_neg (by decide), hok]
  exact ⟨_, rfl⟩

theorem takeWork_accepts (hop : getLE m 2 2 = 0x0810) (hok : memberRefuse cmdCollective s (memberFrame flow cmdCollective m) = none) :
    (takeWork src flow m s).cmds.nextId = s.cmds.nextId + 1 ∧
    ∃ a ∈ (takeWork src flow m s).cmds.active, a.id = s.cmds.nextId ∧ a.opcode = 0x0810 ∧ a.origin = some (src, getLE m 4 4) ∧ a.frame.berth = flow := by
  obtain ⟨n, hwork⟩ := takeWork_member (src := src) hop hok
  have hmem : memberActive src flow m s ∈ (memberEntered src flow m s).cmds.active := List.mem_append_right _ List.mem_cons_self
  obtain ⟨b, hb, hba⟩ := mem_modActive (fun a => { a with hawser := true }) (fun _ => rfl) s.cmds.nextId hmem rfl
  obtain ⟨hid, c, hc, hca⟩ := tryStart_collective (s := cmdCollective.take (memberEntered src flow m s) (memberActive src flow m s)) s.cmds.nextId hb hba
  rw [hwork, workAdvance_cmds]
  have hfixed {α : Type} (part : Active → α) (hpart : ∀ a, part a.fixed = part a) : part c = part (memberActive src flow m s) := by
    rw [← hpart c, hca, hpart]
  exact ⟨hid, c, hc, hfixed Active.id fun _ => rfl, hfixed Active.opcode fun _ => rfl, hfixed Active.origin fun _ => rfl, hfixed (fun a => a.frame.berth) fun _ => rfl⟩

end

/-! ### ANNOUNCE -/

section
variable {p : Nat} {f : HFrame} {s : State}

theorem takeAnnounceFrame_known (h : f.src = moduleNo s ∨ (f.src, getLE f.payload 0 4) ∈ s.hawser.seenAnn) : takeAnnounceFrame p f s = s :=
  if_pos (h.imp_right fun h => List.contains_iff_mem.mpr h)

/-- Another module's first BRACE announcement, where a peer's already stands. -/
theorem takeAnnounceFrame_peer (hm : f.src ≠ moduleNo s) (hnew : (f.src, getLE f.payload 0 4) ∉ s.hawser.seenAnn) (hst : getLE f.payload 6 1 = 1) (hen : peerEn s = true)
    (hcond : getLE f.payload 7 1 % 4 ≠ 0) (hpeers : s.storm.peers ≠ []) :
    (takeAnnounceFrame p f s).hawser.seenAnn = (f.src, getLE f.payload 0 4) :: s.hawser.seenAnn ∧
    (takeAnnounceFrame p f s).storm.peers = { module := f.src, last := s.now } :: s.storm.peers.filter (fun x => x.module != f.src) ∧
    (takeAnnounceFrame p f s).dev = s.dev := by
  set s1 : State := { s with hawser := { s.hawser with seenAnn := (f.src, getLE f.payload 0 4) :: s.hawser.seenAnn } } with hs1
  set u : State := ((List.range 6).filter (fun q => hawserUp s1 q && q != p)).foldl (fun st q => sendOn q { f with hops := f.hops + 1 } st) s1 with hu
  have hsent : Sends s1 u := Sends.foldl (fun _ _ h => h.sendFrom ..) _ (Sends.refl s1)
  have htake : takeAnnounceFrame p f s = takeAnnounce f.src f.payload u := by
    refine if_neg ?_
    rintro (h | h)
    · exact hm h
    · exact hnew (List.contains_iff_mem.mp h)
  have henu : peerEn u = true := by
    rw [hsent.eq]
    exact hen
  have hpeersu : u.storm.peers.isEmpty = false := by
    rw [hsent.eq]
    simpa using hpeers
  have hnewer : takeAnnounce f.src f.payload u =
      { u with storm := { u.storm with peers := { module := f.src, last := u.now } :: u.storm.peers.filter (fun x => x.module != f.src) } } := by
    unfold takeAnnounce
    dsimp only
    rw [if_neg (by rw [hst]; decide), henu, if_pos (by simpa using hcond), hpeersu]
    rfl
  rw [htake, hnewer, hsent.eq]
  exact ⟨rfl, rfl, rfl⟩

end

/-! ### Every frame -/

section
variable {t : Nat} {r : HawserRx} {s : State}

/-- A damaged frame changes only its port, and one NAK goes out. -/
theorem damaged_answered (ha : alive s = true) (hp : r.port < 6) (hlen : r.port < s.hawser.ports.length) (hc : carries (hawserPort s r.port).state = true)
    (hn : (hawserPort s r.port).nakDone = false) (hbad : r.fecOk = false ∨ frameCrcOk r.bytes = false ∨ frameBad r.bytes = true) :
    (hawserReceive t r s).out =
      .hawser r.port (HFrame.bytes { typ := 0, vl := 31, ack := ((hawserPort s r.port).rxNext - 1).toNat, crVl := 31, nak := true }) :: s.out ∧
    hawserPort (hawserReceive t r s) r.port = { HawserPort.damaged r (hawserPort s r.port) with nakDone := true } ∧
    hawserReceive t r s = { s with
      now := max s.now t, out := (hawserReceive t r s).out, hawser := { s.hawser with ports := (hawserReceive t r s).hawser.ports } } := by
  rw [hawserReceive_damaged ha hp hc hbad, nakOnce_sends (g := HawserPort.damaged r) hlen hc hn (fun _ => ⟨rfl, rfl, rfl⟩) t]
  exact ⟨rfl, hawserPort_modHawserPort_same (s := s) (fun h => { HawserPort.damaged r h with nakDone := true }) hlen, rfl⟩

/-- An IDENT frame of step 4 is ignored, answered, or answered and judged. -/
theorem ident_taken (ha : alive s = true) (hp : r.port < 6) (hlen : r.port < s.hawser.ports.length) (hst : (hawserPort s r.port).state = .training)
    (hstep : (hawserPort s r.port).step = 4) (hf : r.fecOk = true) (hcrc : frameCrcOk r.bytes = true) (hb : frameBad r.bytes = false)
    (hid : isIdent (readFrame r.bytes) = true) : hawserReceive t r s =
      (if identValid (padTo 32 (readFrame r.bytes).payload) = false then hawserHeard t r s
       else if (hawserPort s r.port).lastIdent = some (padTo 32 (readFrame r.bytes).payload) then
         judgeIdent r.port (padTo 32 (readFrame r.bytes).payload) (sendIdent r.port (hawserHeard t r s))
       else modHawserPort r.port (fun h => { h with lastIdent := some (padTo 32 (readFrame r.bytes).payload) }) (sendIdent r.port (hawserHeard t r s))) := by
  have hport : hawserPort (hawserHeard t r s) r.port = { hawserPort s r.port with fecCorr := satAdd 32 (hawserPort s r.port).fecCorr r.corrected } :=
    hawserPort_modHawserPort_same (s := setNow t s) _ hlen
  rw [hawserReceive_ident ha hp hst hstep hf hcrc hb hid]
  split
  · next h => exact takeIdent_invalid h
  · next h =>
    rw [takeIdent_valid (by simpa using h) (by rw [hport]; exact hst) (by rw [hport]; exact hstep), hport]

end

/-- Settles O58: each type of frame by the lemma of what takes it, above the state in which the port has counted and acknowledged it. -/
theorem hawserFramesAreTaken : Obligations.HawserFramesAreTaken := by
  unfold Obligations.HawserFramesAreTaken
  intro t r s f p m h w rows
  have hrow {i : Instr} (hi : i ∈ rows) : exec i s = .next (hawserReceive t r s) := hawserRow_receives hi
  refine ⟨fun hdeaf i hi => ?_, fun ha hp hlen hc hn hbad i hi => ?_, fun k ha hp hc hf hcrc hb htyp htx hn hcred hk => ?_, fun htakes htyp hdest => ?_,
    fun htakes htyp hdest hlast hpart => ?_, fun htakes htyp => ?_, fun ha hp hlen hst hstep hf hcrc hb hid => ?_⟩
  · rw [hrow hi, hawserReceive_deaf hdeaf]
  · exact ⟨_, hrow hi, damaged_answered ha hp hlen hc hn hbad⟩
  · exact ⟨_, rfl, idle_acks ha hp hc hf hcrc hb htyp htx hn hcred hk⟩
  · have hdata : exec (.data t r) s = .next (takeData p f w) := congrArg Host.Outcome.next (takes_data htakes htyp hdest)
    refine ⟨fun hnone => ?_, fun fl hfl => ⟨fun hdone => ?_, fun hopen hwork => ?_⟩⟩
    · rw [hdata, takeData_unknown (s := w) hnone]
    · rw [hdata, takeData_complete (s := w) hfl hdone]
    · exact ⟨_, hdata, takeData_lands (s := w) hfl hopen hwork⟩
  · have hmsg : hawserReceive t r s = takeMessage p f.src f.flow m w := takes_message htakes htyp hdest hlast hpart
    refine ⟨fun hcode hnew => ⟨fun hroom => ?_, fun hfull => ?_⟩, fun hcode => ⟨fun hnone => ?_, fun x hx => ?_⟩, fun hcode => ⟨fun hop => ?_, fun hop hok => ?_⟩,
      fun hcode a x ha hx hok => ?_, fun hcode => ?_⟩
    · have hopen : hawserReceive t r s = takeFlowOpen f.src m w := hmsg.trans (takeMessage_flowOpen hcode)
      obtain ⟨x, hx⟩ := takeFlowOpen_room (s := w) hnew hroom
      exact ⟨_, x, congrArg Host.Outcome.next hopen, hx⟩
    · have hopen : hawserReceive t r s = takeFlowOpen f.src m w := hmsg.trans (takeMessage_flowOpen hcode)
      exact ⟨_, congrArg Host.Outcome.next hopen, takeFlowOpen_full (s := w) hnew hfull⟩
    · have hack : hawserReceive t r s = takeFlowAck f.src m w := hmsg.trans (takeMessage_flowAck hcode)
      exact congrArg Host.Outcome.next (hack.trans (takeFlowAck_unknown (s := w) hnone))
    · have hack : hawserReceive t r s = takeFlowAck f.src m w := hmsg.trans (takeMessage_flowAck hcode)
      exact ⟨_, congrArg Host.Outcome.next hack, takeFlowAck_releases (s := w) hx⟩
    · have hwork : hawserReceive t r s = takeWork f.src f.flow m w := hmsg.trans (takeMessage_work hcode)
      exact ⟨_, congrArg Host.Outcome.next hwork, takeWork_unknown (s := w) hop⟩
    · have hwork : hawserReceive t r s = takeWork f.src f.flow m w := hmsg.trans (takeMessage_work hcode)
      exact ⟨_, congrArg Host.Outcome.next hwork, takeWork_accepts (s := w) hop hok⟩
    · have hres : hawserReceive t r s = takeResult f.src f.flow m w := hmsg.trans (takeMessage_result hcode)
      refine ⟨_, congrArg Host.Outcome.next (hres.trans (takeResult_joins (s := w) ha hok)), ?_, rfl⟩
      exact getWork_addResult (s := w) hx f.src (m.drop 6)
    · have htopo : hawserReceive t r s = takeTopo p m w := hmsg.trans (takeMessage_topo hcode)
      refine ⟨fun hstale => congrArg Host.Outcome.next (htopo.trans (takeTopo_stale (s := w) hstale)), fun hsrc hnewer => ⟨_, congrArg Host.Outcome.next htopo, ?_, ?_, ?_⟩⟩
      · exact (takeTopo_entry (s := w) hsrc hnewer).1
      · rw [← fleetModules_hawserTaken t r s]
        exact (takeTopo_entry (s := w) hsrc hnewer).2
      · exact (takeTopo_newer (s := w) hsrc hnewer).2
  · have hann : hawserReceive t r s = takeAnnounceFrame p f w := takes_announce htakes htyp
    refine ⟨fun hknown => congrArg Host.Outcome.next (hann.trans (takeAnnounceFrame_known (s := w) hknown)), fun hsrc hnew hst hen hcond hpeers => ⟨_, congrArg Host.Outcome.next hann, ?_⟩⟩
    exact takeAnnounceFrame_peer (s := w) hsrc hnew hst hen hcond hpeers
  · have hident : hawserReceive t r s = _ := ident_taken (t := t) ha hp hlen hst hstep hf hcrc hb hid
    refine ⟨fun hinv => congrArg Host.Outcome.next (hident.trans (if_pos hinv)), fun hval hdiff => ?_, fun hval hsame hfleet => ?_⟩
    · exact congrArg Host.Outcome.next (hident.trans ((if_neg (by rw [hval]; decide)).trans (if_neg hdiff)))
    · have hjudge : hawserReceive t r s = judgeIdent p (padTo 32 m) (sendIdent p (hawserHeard t r s)) := hident.trans ((if_neg (by rw [hval]; decide)).trans (if_pos hsame))
      have hlen' : p < (sendIdent p (hawserHeard t r s)).hawser.ports.length := by
        show p < (s.hawser.ports.modify _ _).length
        rwa [List.length_modify]
      exact ⟨_, congrArg Host.Outcome.next hjudge, judgeIdent_foreign hlen' hfleet⟩

end Sys2Proof.Machine
